-- ==== Sys2Proof/Word.lean ====
section
/-!
DEFINITION. The word types of TZ-GN4-A (R4, R5) and their plainest arithmetic.
-/
namespace Sys2Proof

/-- One byte. -/
abbrev Byte := BitVec 8
/-- A 16-bit field, and the 16-bit code scheme of R12. -/
abbrev Half := BitVec 16
/-- A control-space register (R6). -/
abbrev Word := BitVec 32
/-- A 64-bit quantity (R6). -/
abbrev DWord := BitVec 64
/-- A status or error code (R12). -/
abbrev Code := BitVec 16
/-- A structure as bytes, lowest address first (R5). -/
abbrev Bytes := List Byte
/-- A sparse map in canonical form: keys strictly rising, no entry at the default value. -/
abbrev Assoc (α : Type) := List (Nat × α)

end Sys2Proof
end

