-- ==== Sys2Proof/Syntax.lean ====
section
/-!
DEFINITION. The commands of the block: one constructor of Instr per row of spec/opcode_table.json, with the
row's operands. What the environment decides (a flit's bytes, a training result, a temperature) is an operand
(log entry 2).
-/
namespace Sys2Proof

/-- A rectangle of a bay plan entry (R77). -/
structure Rect where
  die : Nat
  row : Nat
  col : Nat
  rows : Nat
  cols : Nat
  deriving DecidableEq, Repr

/-- A bay plan entry (R77, R169, R203, R236, R248). -/
structure BayPlan where
  role : Nat := 0
  rects : List Rect := []
  base : Nat := 0
  swapWaitLimit : Nat := 1
  clayQuota : Nat := 0
  loamQuota : Nat := 0
  marlQuota : Nat := 0
  hodFirst : Nat := 0
  hodCount : Nat := 0
  streamFirst : Word := 0
  streamCount : Nat := 0
  seed : DWord := 0
  deriving DecidableEq, Repr

/-- What reading one sector of a unit, or one 256 B unit of a column, met (R260, R261, R274): words or beats corrected,
a word or beat SECDED cannot correct, or check bits that were computed from a 48-bit address given here. -/
inductive SectorRead where
  | corrected (count : Nat)
  | uncorrectable
  | writtenAt (address : Nat)
  deriving DecidableEq, Repr

/-- What reading one tile met: its sectors, or its units in Clay, that were not clean, in ascending order. -/
abbrev TileRead := List (Nat × SectorRead)

/-- What reading an object met, by tile; a tile that is not listed was clean. -/
abbrev ObjRead := List (Nat × TileRead)

/-- A Cirid command message (R460) with the op its row names: the connection it came on, the header fields a
client may set wrongly, and the body after the header. -/
structure Cirid where
  conn : Nat
  flags : Half := 0
  tag : Word := 0
  code : Half := 0
  reserved : Half := 0
  body : Bytes := []
  /-- The op the header carries where it is none of the table's (R462). -/
  reservedOp : Option Half := none
  /-- What the device's read of the object showed, for READ_OBJECT. -/
  read : ObjRead := []
  deriving DecidableEq, Repr

/-- Who changes a bay plan entry (R80): Mortar, or a Cirid command whose body is a bay record of R453. -/
inductive PlanSource where
  | mortar (bay : Nat) (plan : BayPlan)
  | mgmt (m : Cirid)
  deriving DecidableEq, Repr

/-- What the check bits of a read showed (R260, R261, R274): clean, some single-bit errors corrected, or
uncorrectable at an offset (256 B unit, hopper byte or sector) of the data read. -/
inductive Ecc where
  | clean
  | corrected (words : Nat)
  | uncorrectable (at_ : Nat)
  deriving DecidableEq, Repr

/-- What an Announce message says of the clock behind its source, in the order the default best-timekeeper algorithm
compares it (R40; IEEE 1588-2019). -/
structure PtpClock where
  priority1 : Nat
  cls : Nat
  accuracy : Nat
  variance : Nat
  priority2 : Nat
  identity : Nat
  steps : Nat
  deriving DecidableEq, Repr

/-- The messages of the request-response profile (R40); times and corrections in ns. -/
inductive PtpBody where
  | announce (clock : PtpClock)
  | sync (twoStep : Bool) (origin : Nat) (correction : Int)
  | followUp (origin : Nat) (correction : Int)
  | delayResp (receive : Nat) (correction : Int)
  | peerDelay
  | other
  deriving DecidableEq, Repr

/-- An IEEE 1588-2019 message on the management port (R40): its source port identity and sequence number, the phase in
the current tick at which it arrived, and the one at which the Delay_Req this device answers with leaves, in ns. -/
structure PtpMsg where
  wellFormed : Bool
  inProfile : Bool
  domain : Nat
  overEthernet : Bool
  source : Nat
  seq : Nat
  body : PtpBody
  arriveNs : Nat
  requestNs : Nat
  deriving DecidableEq, Repr

/-- A requester of a stop's arbiter (R68): its index, and the flit it has waiting, named by its producer brick
and out stream. -/
structure FlitCand where
  requester : Nat
  brick : Nat
  stream : Nat
  deriving DecidableEq, Repr

/-- A grit packet (R213): the 128-bit header's fields and the 64 B body. -/
structure GritPacket where
  kind : Nat
  fence : Bool
  post : Bool
  dest : Nat
  source : Nat
  stream : Nat
  length : Nat
  handle : Word
  arg : Word
  body : Bytes
  deriving DecidableEq, Repr

/-- One DDR channel after training (R269–R271): its SPD's highest rate in MT/s, whether the sideband answered,
and whether training passed at the first or second try. -/
structure DdrResult where
  present : Bool
  spdRate : Nat
  sidebandOk : Bool
  trained : Bool
  deriving DecidableEq, Repr

/-- What bringing up a CXL port found (R279, R280). -/
structure CxlResult where
  linkUp : Bool
  flit256 : Bool
  width : Nat
  rate64 : Bool
  memCapable : Bool
  cacheCapable : Bool
  configOk : Bool
  decoderOk : Bool
  memoryActive : Bool
  volatileSectors : Nat
  deriving DecidableEq, Repr

/-- How a CXL response arrived (R282). -/
inductive CxlKind where
  | readData (poisoned : Bool)
  | writeDone
  | unknownTag
  | malformed
  deriving DecidableEq, Repr

/-- What one step did for one running request: its key, the prompt tokens processed (R376), the drafts proposed (R380), and
whether the step aborted twice (R383). -/
structure StepResult where
  port : Nat
  session : Nat
  request : Nat
  prompt : Nat
  proposed : Nat
  aborted : Bool
  deriving DecidableEq, Repr

/-- The straps and monitors at the release of reset (R491, R494). -/
structure ReleaseFacts where
  bootsel : Bool
  mgmtSel : Bool
  testMode : Bool
  railsOk : Bool
  deriving DecidableEq, Repr

/-- What the start-up tests found (R35, R73): die results, die-to-die training, and the faulty sites, as
(die, row, column). -/
structure SelfTestFacts where
  ashlarOk : BitVec 4
  clayOk : BitVec 16
  ksN : Bool
  ksS : Bool
  d2d : Bool
  faulty : List (Nat × Nat × Nat)
  deriving DecidableEq, Repr

/-- A TCP connection and TLS handshake on the management port (R459). -/
structure MgmtFacts where
  conn : Nat
  source : Nat
  tlsOk : Bool
  clientKey : Bytes
  deriving DecidableEq, Repr

/-- What a power window reads (R501, R505): watts of every regulator page that answered, the failed transactions,
the pages left unread, the over-current warnings, and the hottest sensors in quarter degrees. -/
structure PowerFacts where
  milliwatts : Nat
  failures : Nat
  unread : List Nat
  overCurrent : Bool
  ashlar : List Int
  clay : List Int
  ksN : Int
  ksS : Int
  deriving DecidableEq, Repr

/-- A journal entry's fields as fetched from a neighbour (R443, R444): sequence, effective tick, key slot, result
code, command digest, previous head, acceptance tick, and the command itself where the change has not fired. -/
structure JournalEntry where
  seq : Nat
  tick : Nat
  slot : Nat
  code : Code
  cmdDigest : Bytes
  prev : Bytes
  accepted : Nat
  op : Nat
  body : Bytes
  deriving DecidableEq, Repr

/-- The commands. -/
inductive Instr where
  | registerWrite (agent addr width : Nat) (value : Word)
  | d2dFlitRetry (source consecutive : Nat) (retrainFails : Bool)
  | tickStart
  | ppsEdge (phaseNs : Nat)
  | todMessage (bytes : Bytes) (usAfterEdge : Nat)
  | ptpMessage (msg : PtpMsg)
  | upstreamTimeout
  | referenceLossTimeout
  | holdoverLimitExpiry
  | scheduleRequest (mgmt : Bool) (tick cls : Nat) (arg : Word)
  | scheduleEntryFire
  | censusTick
  | censusReport (child : Nat) (tickLow : Word) (digest : Bytes) (flags : Byte)
  | censusChildDeadline
  | censusRootDecision
  | censusVerdict (tickLow : Word) (flags : Byte)
  | censusVerdictDeadline
  | siteFailure (die row col : Nat)
  | bayPlan (src : PlanSource)
  | enable (agent bay reserved : Nat)
  | shutDown (agent bay reserved : Nat)
  | swap (agent bay reserved cycle : Nat)
  | load (agent bay reserved cycle : Nat)
  | save (agent bay reserved cycle : Nat)
  | saveComplete (bay cycle : Nat) (eccs : List (Nat × Ecc) := [])
  | restore (agent bay reserved : Nat) (read : ObjRead := [])
  | clear (agent bay reserved : Nat)
  | shadowLoadError (brick unit : Nat)
  /-- Words of the section's copy that were corrected as the loader read them (R260). -/
  | loadedReport (brick cycle : Nat) (corrected : Nat := 0)
  | brickQuiet (brick : Nat)
  | quietReport (brick cycle : Nat)
  | swapPacket (brick : Nat)
  | swapSequence (bay : Nat)
  | swappedReport (brick cycle : Nat)
  | swapWaitTimeout (bay cycle : Nat)
  | validate (agent reserved : Nat)
  | validateComplete (read : ObjRead := [])
  | endWord (brick prog : Nat)
  | baseWord (brick prog : Nat)
  | loopWord (brick prog : Nat)
  | moveWord (brick prog : Nat) (ecc : Ecc)
  | fenceWord (brick prog : Nat)
  | waitWord (brick prog : Nat) (ecc : Ecc)
  | postWord (brick prog : Nat)
  | jumpWord (brick prog : Nat)
  | arrayPass (brick : Nat)
  | accumWord (brick : Nat)
  | bankDrain (brick : Nat)
  | bankClear (brick : Nat)
  | primaryTile (brick : Nat)
  | addOp (brick k : Nat)
  | mulOp (brick k : Nat)
  | maxOp (brick k : Nat)
  | minOp (brick k : Nat)
  | absOp (brick k : Nat)
  | negOp (brick k : Nat)
  | recipOp (brick k : Nat)
  | sqrtOp (brick k : Nat)
  | rsqrtOp (brick k : Nat)
  | expOp (brick k : Nat)
  | logOp (brick k : Nat)
  | cosOp (brick k : Nat)
  | tanhOp (brick k : Nat)
  | sigmoidOp (brick k : Nat)
  | geluOp (brick k : Nat)
  | siluOp (brick k : Nat)
  | randOp (brick k : Nat)
  | subrOp (brick k : Nat)
  | scalebOp (brick k : Nat)
  | copysignOp (brick k : Nat)
  | rowstatOp (brick k : Nat)
  | amaxOp (brick k : Nat)
  | shareOp (brick k : Nat)
  | cvtOp (brick k : Nat)
  | flagsOp (brick k : Nat)
  | sortOp (brick k : Nat) (ecc : Ecc := .clean)
  | amaxPacket (brick : Nat)
  | amaxReturn (brick : Nat)
  | bayEpochWrite (agent bay : Nat) (high : Bool) (value : Word)
  | lineFlit (link : Nat) (cands : List FlitCand)
  | creditReturn (link vc : Nat)
  | gritData (p : GritPacket)
  | gritPost (p : GritPacket)
  | handleJoin (brick stream : Nat)
  | gritRelease (p : GritPacket)
  | swapModeExchange (brick stream : Nat)
  | progressPacket (channel tiles : Nat)
  | relayBuffer (brick : Nat) (ecc : Ecc)
  | openIn (agent channel reserved : Nat)
  | openOut (agent channel reserved : Nat)
  | closeChannel (agent channel reserved : Nat)
  | splice (agent channel reserved : Nat) (device peerChannel resume : Nat)
  | relayEgressSend (channel : Nat) (read : TileRead)
  | relayGrant (channel source sourceChannel xfer tokens next : Nat)
  | relayToken (channel source sourceChannel xfer tokens : Nat)
  | relayTile (channel source sourceChannel xfer index : Nat) (tile : Bytes)
  | relayError (channel source : Nat) (code : Code) (index : Nat)
  | laggardTimeout (channel : Nat)
  | create (agent reserved : Nat)
  | promote (agent reserved : Nat)
  | evict (agent reserved : Nat)
  | migrate (agent reserved : Nat)
  | pin (agent reserved : Nat)
  | unpin (agent reserved : Nat)
  | delete (agent reserved : Nat)
  | markLost (agent reserved : Nat)
  | query (agent reserved : Nat)
  | movementStart (seq : Nat)
  | movementTile (seq : Nat) (first second : TileRead)
  | tierDoneAck (agent : Nat) (value : Word)
  | patrolScrub (brick unit : Nat) (found : Ecc)
  | ddrTrainingDone (results : List DdrResult)
  | dqsOscillatorRead (unit : Nat) (overLimit : Bool)
  | ddrRetrainDone (unit : Nat) (ok : Bool)
  | moduleTempRead (unit : Nat) (quarterDegrees : Int)
  | ddrAlert (unit : Nat) (writeCrc : Bool) (alerts : Nat)
  | i3cTransfer (unit failures : Nat)
  | pmicInterrupt (unit : Nat) (fault : Bool)
  | cxlBringup (unit : Nat) (facts : CxlResult)
  | memoryActiveTimeout (unit : Nat)
  | cxlReadTimeout (unit seq : Nat)
  | cxlWriteTimeout (unit seq : Nat)
  | cxlResponse (unit : Nat) (kind : CxlKind) (seq : Nat)
  | cxlRecoveryEntry (unit : Nat)
  | cxlLinkDownTimeout (unit : Nat)
  | cxlFatalError (unit : Nat)
  | attend (brick : Nat) (ecc : Ecc)
  | backward (brick : Nat) (ecc : Ecc)
  | merge (brick cycles : Nat) (ecc : Ecc := .clean)
  | mergeCombine (brick : Nat)
  | adamw (brick : Nat)
  | momentum (brick : Nat)
  | stepRerun
  | ckptWrite (objects : List Nat) (read : List (Nat × ObjRead) := [])
  | ckptData (source offset : Nat) (sectors : Bytes)
  | ckptAck (source : Nat) (stepLow : Word)
  | ckptTimeout
  | ownPartDone (verdict : Nat)
  | voteReport (source phase turn verdict step : Nat)
  | phaseLimitExpiry
  | voteAnnounce (kind turn phase tick smin : Nat)
  | wslotWrite (agent bay : Nat) (value : Word)
  | ethernetFrame (port : Nat) (frame : Bytes) (bufferFull : Bool)
  | neighborSolicitation (port source target : Nat) (sourceMac : Bytes)
  | hello (port addr udp : Nat) (frame : Bytes)
  | record (port addr udp : Nat) (frame : Bytes)
  | confirm (port session : Nat)
  | submit (port session : Nat)
  | cancelReq (port session : Nat)
  | resend (port session : Nat)
  | ackReq (port session : Nat)
  | reportReq (port session : Nat)
  | closeRecord (port session : Nat)
  | confirmTimeout (port session : Nat)
  | sessionIdleTimeout (port session : Nat)
  | outputRetainTimeout (port session request : Nat)
  /-- Free batch room of the bay in requests, prompt tokens its Clay quota has room for, and the batch room of the
  group's decode bays. -/
  | servingStepBoundary (bay batchRoom tokenRoom : Nat) (rooms : List (Nat × Nat)) (results : List StepResult)
  | linkTraining (port lanes : Nat)
  | linkTrainingRetry (port : Nat)
  | flitCrcFail (port : Nat)
  | linkRetrainDone (port lanes : Nat)
  | dataFlit (port : Nat) (flit : Bytes) (corrected : Nat)
  | ctrlFlit (port : Nat) (flit : Bytes)
  | nak (port : Nat) (flit : Bytes)
  | beacon (port : Nat) (flit : Bytes) (localSub : Nat)
  | beaconSend (sub : Nat)
  | delayReq (port : Nat) (flit : Bytes) (arriveSub sendSub : Nat)
  | delayReqSend (port sub : Nat)
  | delayResp (port : Nat) (flit : Bytes) (arriveSub : Nat)
  | linkHello (port : Nat) (body : Bytes)
  | rekey (port : Nat)
  | portDownTimeout (port : Nat)
  | suspect (source device : Nat)
  | substitute (failed spare : Nat)
  | mortarMessage (source kind : Nat) (body : Bytes)
  | remapAnnounce (failed host placement tick : Nat)
  | remapReady (host : Nat)
  | stateFetch (source job slot : Nat)
  | remapTableFetch (removed : List Nat) (hosts : List (Nat × Nat))
  | journalAdopt (baseSeq : Nat) (baseHead : Bytes) (entries : List JournalEntry) (secondSeq : Nat) (secondHead : Bytes)
  | reportComplete
  | openImage (agent keystone reserved : Nat)
  | acceptImage (agent keystone reserved : Nat)
  | checkImage (agent keystone reserved : Nat)
  | wopenComplete (read : List (Nat × ObjRead))
  | entropyHealthFail (keystone : Nat)
  | entropyRetestDone (keystone : Nat) (pass : Bool)
  | tapInstruction (ir : Byte)
  | resetRelease (facts : ReleaseFacts)
  | firmwareVerifyDone (readable : Bool) (mib : Nat)
  | selfTestDone (facts : SelfTestFacts)
  | footingVerifyDone
  | scrubDone
  | ready
  | mgmtConnection (facts : MgmtFacts)
  | mgmtIdleTimeout (conn : Nat)
  | status (m : Cirid)
  | readReg (m : Cirid)
  | readStats (m : Cirid)
  | report (m : Cirid)
  | readJournal (m : Cirid)
  | readObject (m : Cirid)
  | alarms (m : Cirid)
  | setField (m : Cirid)
  | bayCmd (m : Cirid)
  | tierCmd (m : Cirid)
  | replaceWeights (m : Cirid)
  | cancelChange (m : Cirid)
  | job (m : Cirid)
  | erase (m : Cirid)
  | write (m : Cirid)
  | verify (m : Cirid)
  | reset (m : Cirid)
  | substituteCommand (m : Cirid)
  | fetchData (port : Nat) (datagram : Bytes)
  | fetchError (port : Nat) (datagram : Bytes)
  | fetchGetTimeout (offset : Nat)
  | watchdogKick (agent : Nat) (value : Word)
  | watchdogExpiry (core : Nat)
  | auditResult
  | pwrOkFall
  | resetInNAssert
  | powerWindow (facts : PowerFacts)
  | pwrCapChange (low : Bool)
  | pmbAlert (overCurrent : Bool) (failures : Nat)
  | thermalTrip
  | entropyStartupTestsDone (passN passS : Bool)
  | writeFootingDone
  | portSignalLoss (port : Nat)
  | cxlLinkDown (unit : Nat)
  | cxlRecoveryExit (unit : Nat)
  | servicePortLinkChange (port : Nat) (up : Bool)
  | neighborAdvertisement (port source target : Nat) (mac : Bytes)
  deriving DecidableEq, Repr

end Sys2Proof
end

