-- ==== Sys2Proof/Config.lean ====
section
/-!
DEFINITION. What one part or one system fixes and the spec leaves open: every constant here is a free value or a
fixed value the spec does not give. None has a body, so no proof can see one (log entries 6–9, 20).
-/
namespace Sys2Proof.Config

/-- The steer value the servo of R42 sets from its n-th measurement (the servo law is left open): log entry 6. -/
opaque servo : Nat → Int
/-- Where the result of function fn, in precision p, at an exact argument (minusZero marks −0) lies within its bound
(R189): log entry 7. -/
opaque transcendental : (fn p : Nat) → (minusZero : Bool) → (arg : Rat) → Nat
/-- Outputs of the entropy source and the DRBG (R427): log entry 8. -/
opaque entropy : Nat → BitVec 8
/-- Parent and children of a device in the reduction tree, of which R58 and R453 name only the root: log entry 9. -/
opaque treeParent : (root device : Nat) → Nat
opaque treeChildren : (root device : Nat) → List Nat
/-- The fused identity seed, owner key and Turozan root key (R423): log entry 20. -/
opaque identitySeed : Bytes
opaque ownerKey : Bytes
opaque rootKey : Bytes

/-- The row base a producing function sends with a row of results to be quantised (R145), which no chapter gives, for a
bond, the rank its layout entry begins at, a format word, a logical row and the pass over the tensor: log entry 41. -/
opaque rowBase : (bond : Bytes) → (rank fmt row turn : Nat) → BitVec 8
/-- The element index of a draw whose tile no layout entry covers (R190, R352), for a bond, a rank, a format word, the
tile's count and the element: log entry 42. -/
opaque freeElem : (bond : Bytes) → (rank fmt count e : Nat) → Nat
/-- Whether the reference of a PTP time source is traceable, as a beacon at a tick says it (R411): log entry 70. -/
opaque ptpTraceable : (tick : Nat) → Bool
/-- Which of the bays that may move the share rule moves (R377), which leaves the choice open: log entry 73. -/
opaque pickBay : Nat → Nat
/-- The code MG_BOOT_STATUS shows where a die failed its start-up test (R35, R458), which no chapter names: log entry
80. -/
opaque dieFailCode : (status : Nat) → Code
/-- The row of scores a serving bond gives (R378): the weight image's result is the bond's own work, which no chapter
fixes. For the weight digests a request has run on, each from a position of its tokens, the tokens before, and the token id:
log entry 129. -/
opaque score : (weights : List (Nat × Bytes)) → (tokens : List Word) → (id : Nat) → Word
/-- The repair entries fused at test, as (die, row, column) (R73), one part's own: log entry 103. -/
opaque fusedRepair : List (Nat × Nat × Nat)

end Sys2Proof.Config
end

