-- ==== Sys2Proof/Machine/Flags.lean ====
section
/-!
DEFINITION. The codes of R12: every status and error the chapters' code tables list (R13, R60, R99, R230, R264,
R285, R308, R338, R362, R390, R422, R446, R469, R487), under its own name; and packing of fields into words (R4).
-/
namespace Sys2Proof.Machine

abbrev sOk : Code := 0x0000
abbrev sPendingEnable : Code := 0x0001
abbrev sCompleted : Code := 0x0002
abbrev sCancelTooLate : Code := 0x0003
abbrev sDeadlineExpired : Code := 0x0004
abbrev eBadField : Code := 0x0101
abbrev eBadLength : Code := 0x0102
abbrev eModeRefused : Code := 0x0103
abbrev eNoSuchObject : Code := 0x0104
abbrev eAuth : Code := 0x0105
abbrev eNotChangeable : Code := 0x0106
abbrev eSlotActive : Code := 0x0107
abbrev eChangeDone : Code := 0x0108
abbrev eFooting : Code := 0x0109
abbrev eFirmware : Code := 0x010A
abbrev eFetch : Code := 0x010B
abbrev eRecovery : Code := 0x010C
abbrev eTickPast : Code := 0x0110
abbrev eTickHorizon : Code := 0x0111
abbrev eSchedFull : Code := 0x0112
abbrev eTimeLost : Code := 0x0113
abbrev eQuota : Code := 0x0201
abbrev eObjPinned : Code := 0x0202
abbrev eObjExists : Code := 0x0210
abbrev eObjBusy : Code := 0x0211
abbrev eObjTier : Code := 0x0212
abbrev eObjLost : Code := 0x0213
abbrev ePlaceOverlap : Code := 0x0214
abbrev eTierFull : Code := 0x0215
abbrev eTierBusy : Code := 0x0216
abbrev eStepAbort : Code := 0x0217
abbrev eUnitDown : Code := 0x0220
abbrev eTierIo : Code := 0x0221
abbrev eBondDigest : Code := 0x0301
abbrev eBondShape : Code := 0x0302
abbrev eCtxShape : Code := 0x0303
abbrev eBayState : Code := 0x0310
abbrev eSwapPending : Code := 0x0311
abbrev eSwapNotReady : Code := 0x0312
abbrev eBrickVacant : Code := 0x0313
abbrev eBayOverlap : Code := 0x0314
abbrev ePlaneBusy : Code := 0x0315
abbrev eBrickFault : Code := 0x0316
abbrev eBondTarget : Code := 0x0320
abbrev eBondFormat : Code := 0x0321
abbrev eBondRange : Code := 0x0322
abbrev eCheckBusy : Code := 0x0323
abbrev eLoadAbort : Code := 0x0324
abbrev eHandleStale : Code := 0x0330
abbrev eRelayState : Code := 0x0331
abbrev eRelayLaggard : Code := 0x0332
abbrev eRelayPeer : Code := 0x0333
abbrev eRelaySpliced : Code := 0x0334
abbrev eRelayRange : Code := 0x0335
abbrev eKvNoPage : Code := 0x0340
abbrev eKvRollback : Code := 0x0341
abbrev eKvPosition : Code := 0x0342
abbrev eKvMerge : Code := 0x0343
abbrev eLinkDown : Code := 0x0401
abbrev eLinkMiswire : Code := 0x0402
abbrev eLinkPeer : Code := 0x0403
abbrev eLinkAuth : Code := 0x0404
abbrev eLinkUnreach : Code := 0x0405
abbrev eLinkNarrow : Code := 0x0406
abbrev eSubstNone : Code := 0x0407
abbrev eLinkRoles : Code := 0x0408
abbrev eSessFull : Code := 0x0501
abbrev eSessExpired : Code := 0x0502
abbrev eSessAbuse : Code := 0x0503
abbrev eEgress : Code := 0x0504
abbrev eQueueFull : Code := 0x0505
abbrev eReqUnknown : Code := 0x0506
abbrev eReqCancelled : Code := 0x0507
abbrev eServeLength : Code := 0x0508
abbrev eModelUnknown : Code := 0x0509
abbrev eServeBusy : Code := 0x050A
abbrev eNotBound : Code := 0x0601
abbrev eSignature : Code := 0x0602
abbrev eWeightDigest : Code := 0x0610
abbrev eIdentity : Code := 0x0611
abbrev eEntropy : Code := 0x0612
abbrev eAttestFull : Code := 0x0613
abbrev eCsBusy : Code := 0x0614
abbrev eTamper : Code := 0x0615
abbrev eConfigSkew : Code := 0x0701
abbrev eOptRecord : Code := 0x0710
abbrev eTrainBond : Code := 0x0711
abbrev ePlanAxes : Code := 0x0712
abbrev eCkptSpace : Code := 0x0713
abbrev eCkptPeer : Code := 0x0714
abbrev eCkptNone : Code := 0x0715
abbrev eTurnHeld : Code := 0x0720
abbrev eTurnVoid : Code := 0x0721
abbrev eTurnLate : Code := 0x0722
abbrev eLayoutMissing : Code := 0x0723
abbrev eLayoutShape : Code := 0x0724
abbrev eTurnPlan : Code := 0x0725
abbrev eAuditMismatch : Code := 0x0801
abbrev eDeviceFatal : Code := 0x0802
abbrev eD2dFail : Code := 0x0803
abbrev eInternal : Code := 0x0804
abbrev eWatchdog : Code := 0x0805
abbrev eRemapNone : Code := 0x0806

/-- A word with the bits of v, cut to n bits, at bit position lo (R4). -/
def fieldAt (lo n v : Nat) : Nat := (v % 2 ^ n) <<< lo

/-- Bits [lo + n - 1 : lo] of a word as a number (R4). -/
def bits (w : Word) (lo n : Nat) : Nat := w.toNat >>> lo % 2 ^ n

/-- Bits [lo + n - 1 : lo] of a number (R4). -/
def nbits (w lo n : Nat) : Nat := w >>> lo % 2 ^ n

/-- A flag as a bit. -/
def bit01 (b : Bool) : Nat := if b then 1 else 0

/-- Two's complement of an n-bit field (R4). -/
def signed (n v : Nat) : Int := if v % 2 ^ n < 2 ^ (n - 1) then (v % 2 ^ n : Nat) else (v % 2 ^ n : Nat) - 2 ^ n

/-- The n-bit two's complement code of an integer. -/
def unsigned (n : Nat) (v : Int) : Nat := (v % (2 ^ n : Int)).toNat

end Sys2Proof.Machine
end

