-- ==== Sys2Proof/Machine/Addresses.lean ====
section
/-!
DEFINITION. Control addresses (R28–R30) of the registers the operations name: statistics counters by their live
address, and the bases of the register blocks.
-/
namespace Sys2Proof.Machine

/-- The Ashlar window (R28). -/
def ashlarBase (a : Nat) : Nat := 0x1000000 + a * 0x1000000
/-- The Keystone window (R28): N then S. -/
def keystoneBase (south : Bool) : Nat := if south then 0x9000000 else 0x8000000
/-- Site status block (R30). -/
def siteBase (a r c : Nat) : Nat := ashlarBase a + 0x400000 + (r * 32 + c) * 0x100
def bayBase (b : Nat) : Nat := 0x1000 + b * 0x20
def randBase (b : Nat) : Nat := 0x3800 + b * 0x20
def hodBase (b : Nat) : Nat := 0x4000 + b * 0x20
def relayBase (c : Nat) : Nat := 0x5000 + c * 0x40
def quotaBase (b : Nat) : Nat := 0x6000 + b * 0x40
def attBase (b : Nat) : Nat := 0x8000 + b * 0x20
def optBase (b : Nat) : Nat := 0x9000 + b * 0x10
def srvBase (m c : Nat) : Nat := 0xD000 + m * 0x100 + c * 0x10
def flagsAddr (b : Nat) : Nat := 0x3000 + b * 4
def wslotAddr (b : Nat) : Nat := 0xA100 + b * 4
/-- KD_CH block of channel D(d) (R283). -/
def kdBase (d : Nat) : Nat := keystoneBase (10 ≤ d) + d % 10 * 0x100
/-- CX block of port X(x) (R284). -/
def cxBase (x : Nat) : Nat := keystoneBase (2 ≤ x) + 0x200000 + x % 2 * 0x100
/-- HX block of port H(p) (R420). -/
def hxBase (p : Nat) : Nat := keystoneBase (8 ≤ p) + 0x100000 + p % 8 * 0x100
/-- SV block of port E(e) (R388). -/
def svBase (e : Nat) : Nat := keystoneBase (e = 1) + 0x300000
/-- CS block (R445). -/
def csBase (south : Bool) : Nat := keystoneBase south + 0x500000

abbrev ctlFaultCount : Nat := 0x10
abbrev d2dRetry : Nat := 0x20
abbrev gritBad : Nat := 0x24
abbrev tbRefFault : Nat := 0x100100
abbrev tbSchedReject : Nat := 0x100104
abbrev bondCheckCount : Nat := 0x2040
abbrev bondCheckFail : Nat := 0x2044
abbrev memCorr : Nat := 0x7100
abbrev memUncorr : Nat := 0x7104
abbrev sieveBad : Nat := 0x7108
abbrev ckptWrites : Nat := 0x9820
abbrev ckptFail : Nat := 0x9824
abbrev ckptHold : Nat := 0x9828
abbrev turnLate : Nat := 0xA020
abbrev turnVoids : Nat := 0xA024
abbrev turnUnscored : Nat := 0xA028
abbrev turnRedist : Nat := 0xA02C
abbrev auditRuns : Nat := 0xC018
abbrev errCount0 : Nat := 0xC030
abbrev mgmtCmds : Nat := 0xE018
abbrev mgmtRefused : Nat := 0xE01C
abbrev mgmtAuthFail : Nat := 0xE020
abbrev mgmtChgFail : Nat := 0xE024
abbrev pmbErr : Nat := 0xF040
abbrev pwrGated0 : Nat := 0xF044

def bayFenceCount (b : Nat) : Nat := bayBase b + 0x18
def baySwapWait (b : Nat) : Nat := bayBase b + 0x1C
def siteSwaps (a r c : Nat) : Nat := siteBase a r c + 0x40
def siteLoadCycles (a r c : Nat) : Nat := siteBase a r c + 0x44
def bayDraws (b : Nat) : Nat := randBase b + 0x18
def bayOutStall (b : Nat) : Nat := hodBase b + 0x0C
def bayInStall (b : Nat) : Nat := hodBase b + 0x10
def bayPosts (b : Nat) : Nat := hodBase b + 0x14
def bayStale (b : Nat) : Nat := hodBase b + 0x18
def arrayStall (n : Nat) : Nat := ashlarBase (n / 1024) + 0x6000 + n % 1024 * 4
def outStall (n : Nat) : Nat := ashlarBase (n / 1024) + 0x7000 + n % 1024 * 4
def inStall (n : Nat) : Nat := ashlarBase (n / 1024) + 0x8000 + n % 1024 * 4
def relayTiles (c : Nat) : Nat := relayBase c + 0x2C
def relayStarve (c : Nat) : Nat := relayBase c + 0x30
def relayBad (c : Nat) : Nat := relayBase c + 0x34
def bayPromotes (b : Nat) : Nat := quotaBase b + 0x28
def bayEvicts (b : Nat) : Nat := quotaBase b + 0x2C
def bayQuotaFail (b : Nat) : Nat := quotaBase b + 0x30
def bayPinFail (b : Nat) : Nat := quotaBase b + 0x34
def chCorr (d : Nat) : Nat := kdBase d + 0x08
def chUncorr (d : Nat) : Nat := kdBase d + 0x0C
def chAddrPar (d : Nat) : Nat := kdBase d + 0x10
def chI3cErr (d : Nat) : Nat := kdBase d + 0x14
def chRetrain (d : Nat) : Nat := kdBase d + 0x18
def cxPoison (x : Nat) : Nat := cxBase x + 0x0C
def cxTimeout (x : Nat) : Nat := cxBase x + 0x10
def cxRecovery (x : Nat) : Nat := cxBase x + 0x14
def cxIoErr (x : Nat) : Nat := cxBase x + 0x18
def attRecords (b : Nat) : Nat := attBase b
def attRefused (b : Nat) : Nat := attBase b + 0x04
def attFlushes (b : Nat) : Nat := attBase b + 0x08
def attRollback (b : Nat) : Nat := attBase b + 0x0C
def attMergeWait (b : Nat) : Nat := attBase b + 0x10
def optElements (b : Nat) : Nat := optBase b
def optSkipped (b : Nat) : Nat := optBase b + 0x04
def optRefused (b : Nat) : Nat := optBase b + 0x08
def svRxDrop (e : Nat) : Nat := svBase e + 0x08
def svAuthFail (e : Nat) : Nat := svBase e + 0x0C
def svReplay (e : Nat) : Nat := svBase e + 0x10
def svHandshakeFail (e : Nat) : Nat := svBase e + 0x14
def svEgressDeny (e : Nat) : Nat := svBase e + 0x18
def srvAdmitted (m c : Nat) : Nat := srvBase m c + 0x04
def srvExpired (m c : Nat) : Nat := srvBase m c + 0x08
def srvCancelled (m c : Nat) : Nat := srvBase m c + 0x0C
def hxTxFlits (p : Nat) : Nat := hxBase p + 0x10
def hxRxFlits (p : Nat) : Nat := hxBase p + 0x14
def hxFecCorr (p : Nat) : Nat := hxBase p + 0x18
def hxCrcErr (p : Nat) : Nat := hxBase p + 0x1C
def hxRetry (p : Nat) : Nat := hxBase p + 0x20
def hxRetrain (p : Nat) : Nat := hxBase p + 0x24
def hxBadFlit (p : Nat) : Nat := hxBase p + 0x28
def hxBadMsg (p : Nat) : Nat := hxBase p + 0x2C
def hxAuthFail (p : Nat) : Nat := hxBase p + 0x30
def hxUnroutable (p : Nat) : Nat := hxBase p + 0x34
def csEntropyFail (south : Bool) : Nat := csBase south + 0x14
def csReports (south : Bool) : Nat := csBase south + 0x18
def errCount (cls : Nat) : Nat := errCount0 + cls * 4
def pwrGated (a : Nat) : Nat := pwrGated0 + a * 4

end Sys2Proof.Machine
end

