-- ==== Sys2Proof/Machine/Package.lean ====
section
/-!
DEFINITION. The package as a map (01_package_and_dies.md): the Clay dies of a column (R17, R18, R26), the Keystone of a
Mason core, its hart id and its window on the control space (R19, R27, R31), the die-to-die links (R22, R23) and the
route between dies (R24).
-/
namespace Sys2Proof.Machine

/-! ### Clay (R17, R18, R26) -/

/-- The Clay die under Ashlar a at a level. -/
def clayDie (a level : Nat) : Nat := 4 * a + level
/-- The level of a byte of a column: bits [9:8] of its offset. -/
def clayLevel (offset : Nat) : Nat := offset / 256 % 4
/-- The Clay die that holds a byte of a brick's column. -/
def columnDie (brick offset : Nat) : Nat := clayDie (brick / 1024) (clayLevel offset)
/-- The byte of its level's 4 MiB that a byte of a column is. -/
def levelByte (offset : Nat) : Nat := offset / 1024 * 256 + offset % 256

/-! ### Mason cores (R19, R27, R31) -/

/-- The Keystone of a Mason core: N for 0–15, S for 16–31. -/
def coreSouth (core : Nat) : Bool := 16 ≤ core
/-- The mhartid CSR of a Mason core. -/
def hartId (core : Nat) : Nat := core
/-- The requester index of a Mason core, and of the management agent. -/
def requesterOf (core : Nat) : Nat := hartId core
abbrev mgmtAgent : Nat := 32

/-- A control address as a Mason core's physical address, and back. -/
def physOf (addr : Nat) : Nat := 0x10000000000 + addr
def controlOf (phys : Nat) : Option Nat :=
  if 0x10000000000 ≤ phys ∧ phys < 0x20000000000 then some (phys - 0x10000000000) else none

/-- The Mason shared SRAM of a Keystone, in bytes. -/
abbrev masonSramSize : Nat := 32 * 2 ^ 20

/-! ### Die-to-die links (R22–R24) -/

/-- The dies that links join. -/
inductive Die where
  | ashlar (a : Nat)
  | keystone (south : Bool)
  deriving DecidableEq, Repr

/-- A die-to-die link: its ends, its data and control modules, and payload bytes per cycle and direction. -/
structure D2dLink where
  ends : Die × Die
  dataModules : Nat
  controlModules : Nat
  bytes : Nat
  deriving DecidableEq, Repr

/-- The table of R22; the link between the Keystones is one standard-package module of 64 GB/s (R3). -/
def d2dLinks : List D2dLink :=
  [⟨(.ashlar 0, .ashlar 1), 32, 2, 4096⟩, ⟨(.ashlar 2, .ashlar 3), 32, 2, 4096⟩, ⟨(.ashlar 0, .ashlar 2), 32, 2, 4096⟩,
   ⟨(.ashlar 1, .ashlar 3), 32, 2, 4096⟩, ⟨(.keystone false, .ashlar 0), 8, 1, 1024⟩, ⟨(.keystone false, .ashlar 1), 8, 1, 1024⟩,
   ⟨(.keystone true, .ashlar 2), 8, 1, 1024⟩, ⟨(.keystone true, .ashlar 3), 8, 1, 1024⟩,
   ⟨(.keystone false, .keystone true), 1, 0, 32⟩]

/-- The link that joins two dies, by its place in the table; the table's length where none does. -/
def d2dBetween (x y : Die) : Nat := d2dLinks.findIdx fun l => l.ends == (x, y) || l.ends == (y, x)

/-- Lines that cross an edge between Ashlar dies, and the perpend lines an Ashlar–Keystone link attaches to (R23). -/
def crossing (line : Nat) : Bool := line % 32 % 4 == 0
def keystoneColumns : List Nat := [2, 10, 18, 26]

/-- The Ashlar die under a Keystone in a die's column of the arrangement: 0 and 1 at Keystone N, 2 and 3 at Keystone S. -/
def nearDie (south : Bool) (a : Nat) : Nat := 2 * (if south then 1 else 0) + a % 2

/-- The dies a transfer passes, its ends included (R24): east–west edge first, then north–south, then the
Ashlar–Keystone link. -/
def dieRoute : Die → Die → List Die
  | .ashlar a, .ashlar b =>
    if a = b then [.ashlar a]
    else if a / 2 = b / 2 ∨ a % 2 = b % 2 then [.ashlar a, .ashlar b]
    else [.ashlar a, .ashlar (2 * (a / 2) + b % 2), .ashlar b]
  | .ashlar a, .keystone k =>
    let n := nearDie k a
    if n = a then [.ashlar a, .keystone k] else [.ashlar a, .ashlar n, .keystone k]
  | .keystone k, .ashlar a =>
    let n := nearDie k a
    if n = a then [.keystone k, .ashlar a] else [.keystone k, .ashlar n, .ashlar a]
  | .keystone k, .keystone l => if k = l then [.keystone k] else [.keystone k, .keystone l]

end Sys2Proof.Machine
end

