-- ==== Sys2Proof/Machine/State.lean ====
section
/-!
DEFINITION. The state of the block: every register, buffer, queue, counter, mode and pin the spec gives the
device, as plain data, and the state right after reset. INVENTORY.md lists each with its rule and reset value.
-/
namespace Sys2Proof.Machine

/-- Byte-addressed contents: the rising list of bytes that differ from what an unlisted byte reads as. -/
abbrev Memory := List Host.Cell

/-! ### The time base (02_course_clock.md) -/

/-- The states of R44. -/
inductive TbState where
  | unset | acquiring | locked | holdover | lost
  deriving DecidableEq, Repr

/-- An entry of the schedule table (R49): tick, class, argument. -/
structure SchedEntry where
  tick : Nat
  cls : Nat
  arg : Word
  deriving DecidableEq, Repr

/-- The time receiver of R40: what each source announces, the two-step Sync that waits for its Follow_Up (source,
sequence, local arrival), this device's Delay_Req not yet answered (source, sequence, origin of the Sync, its local
arrival, local departure), and the path delay last measured; times in ns. -/
structure Ptp where
  clocks : Assoc (Option PtpClock) := []
  sync : Option (Nat × Nat × Int) := none
  request : Option (Nat × Nat × Int × Int × Int) := none
  delay : Int := 0
  deriving DecidableEq, Repr

/-- The time base (R37–R55). -/
structure TimeBase where
  state : TbState := .unset
  /-- The tick number has been loaded (R39, R56). -/
  loaded : Bool := false
  tick : Nat := 0
  /-- Ticks begun since reset, by which durations are measured whatever tick number is loaded (R3). -/
  up : Nat := 0
  /-- Core cycles from reset to the first cycle of the current tick (R3). -/
  cycle : Nat := 0
  /-- Length of the current tick, and the steering fraction (R42). -/
  len : Nat := 2048
  frac : Int := 0
  steer : Word := 0
  offset : Word := 0
  /-- Consecutive measurements within 40 ns (R44). -/
  good : Nat := 0
  /-- TAI second named by a kept ToD message (R39). -/
  tod : Option Nat := none
  /-- Place in the upstream list; the list's length when every port has timed out (R41). -/
  upIndex : Nat := 0
  upstream : Nat := 0
  lastBeacon : Nat := 0
  ptp : Ptp := {}
  /-- Of the last valid measurement, and of the entry to HOLDOVER, in ticks since reset (R44). -/
  lastGood : Nat := 0
  holdSince : Nat := 0
  /-- A measurement in LOST was out of range: LOST until reset (R45). -/
  stuck : Bool := false
  /-- Depth and traceable bit of the upstream's last accepted beacon (R411). -/
  depth : Nat := 0
  traceable : Bool := false
  latchTick : Nat := 0
  latchSeq : Word := 0
  latchTurn : Bool := false
  latchCensus : Bool := false
  lastLatch : Option Nat := none
  sched : List SchedEntry := []
  deriving DecidableEq, Repr

/-- A child's census report (R58). -/
structure ChildReport where
  child : Nat
  equal : Bool
  matched : Bool
  absent : Bool
  timeLost : Bool
  deriving DecidableEq, Repr

/-- The census (R56–R59). -/
structure Census where
  matched : Bool := false
  skew : Bool := false
  absent : Bool := false
  timeLost : Bool := false
  /-- TB_CFG_DIGEST: 32 bytes. -/
  digest : Bytes := []
  /-- The census in progress: its tick. -/
  tick : Option Nat := none
  /-- This device takes part in it (R58). -/
  part : Bool := false
  reports : List ChildReport := []
  sent : Bool := false
  verdict : Bool := false
  /-- Consecutive absences per child (R479). -/
  absences : Assoc Nat := []
  deriving DecidableEq, Repr

/-! ### Dies, sites and networks (01, 03) -/

/-- The start-up results of R35 and the repair map of R71, by die × 32 + column; sites by
(die × 33 + row) × 32 + column. -/
structure Dies where
  ashlarOk : BitVec 4 := 0
  clayOk : BitVec 16 := 0
  ksN : Bool := false
  ksS : Bool := false
  d2d : Bool := false
  /-- fault_row, 0x3F where absent. -/
  faultRow : Assoc Nat := []
  /-- Columns whose entry was found in the field. -/
  fieldOrigin : Assoc Bool := []
  faulty : Assoc Bool := []
  failed : Assoc Bool := []
  deriving DecidableEq, Repr

/-- A flit on a line or neighbour link, on its way to a consumer's slot (R66, R209): the links and virtual channels
still to pass, and the buffer it occupies. A link is brick × 8 + direction: bed line up and down, perpend line up and
down, then the neighbours at row − 1, row + 1, column − 1, column + 1. -/
structure LineFlit where
  src : Nat
  srcStream : Nat
  dest : Nat
  destStream : Nat
  handle : Word
  offset : Nat
  data : Bytes
  path : List (Nat × Nat)
  occupies : Option (Nat × Nat)
  deriving DecidableEq, Repr

/-- A spent credit not yet returned (R67, R69): link, virtual channel, and the brick whose flit spent it. -/
structure CreditOut where
  link : Nat
  vc : Nat
  src : Nat
  deriving DecidableEq, Repr

/-- A grit packet on its way (R70, R215): its requester at the brick, the links still to pass, the link whose buffer holds
it, none where it waits at its source; a DATA packet that may yet become the POST of its slot is held there (R209). -/
structure GritMsg where
  p : GritPacket
  requester : Nat
  path : List Nat
  place : Option Nat
  hold : Bool
  deriving DecidableEq, Repr

/-- The on-package networks. -/
structure Net where
  flits : List LineFlit := []
  credits : List CreditOut := []
  /-- Rotating pointer of each stop output direction (R68). -/
  arb : Assoc Nat := []
  grit : List GritMsg := []
  /-- Rotating pointer of each brick's injection (R215). -/
  gritPtr : Assoc Nat := []
  deriving DecidableEq, Repr

/-! ### Bricks (03, 04, 06–09) -/

/-- R81. -/
inductive PlaneState where
  | empty | loading | loaded | active
  deriving DecidableEq, Repr

/-- A configuration plane of one brick (R81, R84, R112, R171, R175). -/
structure Plane where
  state : PlaneState := .empty
  /-- The 8 KiB section; unlisted bytes are 0. -/
  image : Memory := []
  tag : Word := 0
  /-- Stream keys, four 32-bit words each, stream 0 first. -/
  keys : List (List Word) := []
  /-- Free-mode positions P_o and P_c per lane. -/
  posO : Assoc Nat := []
  posC : Assoc Nat := []
  /-- Layout entries covering the brick, as their 64 B each (R351). -/
  layout : List Bytes := []
  deriving DecidableEq, Repr

/-- Address-generator states (R228). -/
inductive GenState where
  | running | waiting | held | ended
  deriving DecidableEq, Repr

/-- The two spaces a brick's programs address (R119). -/
inductive Space where
  | column | hopper
  deriving DecidableEq, Repr

/-- An entry of a loop stack (R228): word of the LOOP, passes remaining, address at the start of the pass. -/
structure LoopFrame where
  word : Nat
  remaining : Nat
  start : Int
  deriving DecidableEq, Repr

/-- An address generator (R119, R228). -/
structure Gen where
  word : Nat := 0
  state : GenState := .running
  space : Space := .column
  addr : Int := 0
  stack : List LoopFrame := []
  /-- Tiles of the current MOVE already moved. -/
  moved : Nat := 0
  /-- Whether the current address was set by a BASE word of space 0 (R354). -/
  fromBase : Bool := false
  /-- Buffers held: stream word, handle (R206). -/
  held : List (Nat × Word) := []
  deriving DecidableEq, Repr

/-- The state a generator noted when a MOVE delivered a tile (R218). -/
structure RewindPoint where
  prog : Nat
  word : Nat
  stack : List LoopFrame
  addr : Int
  space : Space
  fromBase : Bool
  moved : Nat
  /-- Tiles counted through the format word before this tile (R352). -/
  fmtWord : Nat
  count : Nat
  /-- The free-mode draws its conversion took: the tile read again takes them again (R218; log entry 122). -/
  draws : List Word
  deriving DecidableEq, Repr

/-- A tile as the array, side queue or lanes receive it: 1,024 compute codes, the group-scale powers and row
bases that came with it, the chunk index of its reduction and its tag (R130–R132, R155, R183, R188, R211). -/
structure OperandTile where
  fmt : Nat
  codes : List Nat
  /-- Group-scale bytes of the rows, and row bases (R131). -/
  groups : List Int
  bases : List Int
  /-- Layout place of element (0, 0): logical row and column, and whether an entry covers the word (R352). -/
  row : Nat
  col : Nat
  placed : Bool
  tag : Nat
  note : RewindPoint
  deriving DecidableEq, Repr

/-- An output of an attention slice's engine (R286): its out stream, its tiles each with a record, and its tag. -/
structure OutJob where
  stream : Nat
  tiles : List (Bytes × Bytes)
  tag : Nat
  deriving DecidableEq, Repr

/-- A posted handle waiting for its flits (R205): handle, flits counted by the POST. -/
structure PendingPost where
  handle : Word
  flits : Nat
  source : Nat
  srcStream : Nat
  deriving DecidableEq, Repr

/-- A buffer a relay brick has forwarded and not yet released (R220): its handle, for each out stream the number of
buffers that stream must have posted, and whether its tap's egress has been told of it. -/
structure RelayTake where
  handle : Word
  needs : List (Nat × Nat)
  told : Bool
  deriving DecidableEq, Repr

/-- A stream endpoint of a brick (R202–R211). -/
structure Endpoint where
  bound : Bool := false
  out : Bool := false
  /-- Out: the free FIFO from head. -/
  free : List Word := []
  /-- In: handles in arrival order. -/
  queue : List Word := []
  posts : List PendingPost := []
  /-- In: the last handle received for each slot. -/
  last : Assoc Word := []
  /-- In: flits written and acknowledged per slot. -/
  arrived : Assoc Nat := []
  /-- In: bytes delivered into each slot since its release, and bytes of the current buffer a function has read. -/
  filled : Assoc Nat := []
  readAt : Nat := 0
  /-- Out: bytes and flits written into the current slot, and the tag of its first tile. -/
  bytes : Nat := 0
  flits : Nat := 0
  slotTag : Option Nat := none
  /-- Buffers posted or taken since bind. -/
  count : Word := 0
  /-- Swap mode, in: the half held by the consumer; the half posted and not exchanged. -/
  half : Option Word := none
  swapPosted : Option Word := none
  /-- In: the buffer a join of R185 holds, and the buffers a relay of R220 does, oldest first. -/
  relayHeld : Option Word := none
  relayTaken : List RelayTake := []
  deriving DecidableEq, Repr

/-- The accumulator banks (R148, R184): 1,024 entries of 96 bits; a bank is clear, filling, full, or dirty after
its drain. -/
inductive BankState where
  | clear | filling | full | dirty
  deriving DecidableEq, Repr

structure Bank where
  state : BankState := .clear
  entries : Assoc (BitVec 96) := []
  tag : Nat := 0
  /-- Row bases of the tiles that opened its reduction: activation rows, then weight rows (R132). -/
  bases : List Int := []
  deriving DecidableEq, Repr

/-- An amax register (R134): amax and scale as binary32, and the largest magnitude F of its last gathering. -/
structure Amax where
  amax : Word := 0
  scale : Word := 0x3F800000
  maxCode : Nat := 4
  deriving DecidableEq, Repr

/-- A result tile handed to program 2 (R184, R198): 1,024 values of the chain, or raw bank entries. -/
structure ResultTile where
  raw : Bool
  wide : Bool
  values : List Nat
  tag : Nat
  /-- Format words whose write MOVE it goes to; none where it goes to the next one (R328). -/
  words : List Nat
  deriving DecidableEq, Repr

/-- A pair of the row sort (R197). -/
structure SortPair where
  value : Nat
  index : Nat
  deriving DecidableEq, Repr

/-- One active brick position. -/
structure Brick where
  plane0 : Plane := {}
  plane1 : Plane := {}
  activePlane : Bool := false
  gens : List Gen := [{}, {}, {}, {}]
  streams : Assoc Endpoint := []
  bank0 : Bank := {}
  bank1 : Bank := {}
  /-- Fill bank, passes done in it, and whether its chain-in and merges are taken. -/
  fillBank : Bool := false
  passes : Nat := 0
  chainLoaded : Bool := false
  mergesTaken : Nat := 0
  acts : List OperandTile := []
  weights : List OperandTile := []
  side : List OperandTile := []
  prim : List OperandTile := []
  results : List ResultTile := []
  /-- The values in the lanes, element (0,0) first (R186), and the lane flag states of R195. -/
  lanes : List Nat := []
  /-- Words of the chain still to run on the tile in the lanes; none where the lanes are free. -/
  laneWords : Option (List Nat) := none
  laneTag : Nat := 0
  /-- The count of the tile in the lanes through the format word that places it (R352), and the side tile its chain
  uses, which stays in the queue until the tile's end (R188). -/
  laneIndex : Nat := 0
  laneSide : Option OperandTile := none
  laneFlags : Assoc Nat := []
  amax : Assoc Amax := []
  /-- ROWSTAT registers x and y per row (R191). -/
  rowX : Assoc Word := []
  rowY : Assoc Word := []
  /-- By SORT word: tiles of the row-block taken in, and one more than the row emitted next while it emits (R197); the
  pairs stand in the hopper. -/
  sortTile : Assoc Nat := []
  sortRow : Assoc Nat := []
  /-- Drains or primary tiles since the last LOAD (R214). -/
  drains : Nat := 0
  tag : Nat := 0
  passWaited : Bool := false
  /-- Tiles moved per format word since the bond became ACTIVE (R352). -/
  layoutCounts : Assoc Nat := []
  relayPtr : Nat := 0
  /-- Work record in progress, and the partials a MERGE holds, by part (R286, R303). -/
  working : Bool := false
  partials : Assoc Bytes := []
  partialHandles : List Word := []
  /-- Outputs of the record still to be written, in order, and whether the record was refused (R286, R290). -/
  outJobs : List OutJob := []
  refused : Bool := false
  /-- Fence id the brick drains for, and reports it has sent (R217, R82, R88). -/
  quietSent : Bool := false
  swapCycle : Option Nat := none
  swapped : Bool := false
  /-- Fence points executed since the bond became ACTIVE (R85). -/
  fences : Nat := 0
  /-- Programs rewound in a drain, which run again when the bay resumes (R218). -/
  rewound : List Nat := []
  /-- Draws of the tiles a rewind discarded, by format word and count, until they are read again (R218). -/
  redraws : List (Nat × Nat × List Word) := []
  /-- Out streams that wait for a handle, and whether the array waits (R183, R216): what the stall counters count. -/
  outWait : List Nat := []
  arrayWait : Bool := false
  /-- amax exchange of R193: values sent, the maxima not yet returned. -/
  amaxSent : Bool := false
  /-- Optimiser elements done under the record taken (R326). -/
  updated : Nat := 0
  hopper : Memory := []
  clay : Memory := []
  deriving DecidableEq, Repr

/-! ### Bays (03, 07, 09, 10, 14) -/

/-- R90. -/
inductive BayState where
  | empty | ready | running | draining | fenced | swapping | saving | stopped | faulted
  deriving DecidableEq, Repr

/-- What the device keeps of a bond whose sections a bay's planes hold (R101, R103, R104). -/
structure BondInfo where
  object : Nat
  digest : Bytes
  layoutDigest : Bytes
  fences : List (Nat × Bool)
  seed : DWord
  streamFirst : Word
  deriving DecidableEq, Repr

/-- One bay. -/
structure Bay where
  plan : BayPlan := {}
  state : BayState := .empty
  saveObj : Option Nat := none
  /-- Tick of arrival of a pending swap. -/
  swapAt : Option Nat := none
  /-- A pending shut-down, and the code it stops with. -/
  shutdown : Option Code := none
  enableHeld : Bool := false
  shadowReady : Bool := false
  lastCode : Code := 0
  arg : Word := 0
  /-- Object of a LOAD in progress, and the bricks that reported. -/
  loading : Option Nat := none
  loadCycle : Nat := 0
  loadedBy : List Nat := []
  quietBy : List Nat := []
  swappedBy : List Nat := []
  /-- Fence point the bay drains at, and the tick and cycle of F. -/
  fenceId : Option Nat := none
  /-- Fence points every brick has executed before that one. -/
  fenceAt : Nat := 0
  fenceTick : Nat := 0
  fenceCycle : Nat := 0
  /-- Cycle from which FENCED time is not yet counted. -/
  waitFrom : Nat := 0
  /-- Swap cycle S in core cycles, and the state after the swap. -/
  swapCycle : Option Nat := none
  afterSwap : BayState := .ready
  /-- State the save returns to. -/
  afterSave : BayState := .stopped
  saveTick : Nat := 0
  active : Option BondInfo := none
  shadow : Option BondInfo := none
  epoch : DWord := 0
  epochNext : Option DWord := none
  restoreEpoch : Word := 0
  wsDelta : Nat := 0
  wsActive : Bool := false
  wsPending : Bool := false
  /-- Origin table, 16 entries (R363). -/
  origin : Assoc DWord := []
  /-- AMAX packets at the anchor: brick, mask, values (R193). -/
  amaxIn : List (Nat × Nat × List Word) := []
  issued : Nat := 0
  retired : Nat := 0
  parked : Nat := 0
  drawsIssued : Nat := 0
  drawsServed : Nat := 0
  clayUsed : Nat := 0
  loamUsed : Nat := 0
  marlUsed : Nat := 0
  /-- Object whose uncorrectable tile aborted the last step (R263, R311). -/
  abortObj : Option Nat := none
  attInfo : Word := 0
  attSeq : Word := 0
  deriving DecidableEq, Repr

/-! ### The bond validator (04) -/

/-- R105–R111. -/
structure Validator where
  arg : Word := 0
  running : Option Nat := none
  /-- A write landed in the object during the validation (R108). -/
  disturbed : Bool := false
  refused : Bool := false
  lastCode : Code := 0
  offset : Nat := 0
  section_ : Nat := 0
  sectionValid : Bool := false
  digest : Bytes := []
  deriving DecidableEq, Repr

/-! ### Tiers (10, 11) -/

inductive Tier where
  | clay | loam | marl
  deriving DecidableEq, Repr

/-- A Clay placement with its ranks resolved (R237, R238): the working base in force, granule offset, order
(0 blocked, 1 striped, 2 bond), and the brick of each rank. -/
structure Placement where
  host : Nat
  first : Nat
  ranks : Nat
  offset : Nat
  order : Nat
  base : Nat
  bricks : List Nat
  granules : Nat
  deriving DecidableEq, Repr

/-- A run of sectors of one unit (R241). -/
structure TileLoc where
  unit : Nat
  count : Nat
  first : Nat
  deriving DecidableEq, Repr

/-- A tier object (R233–R254). -/
structure Obj where
  bytesKind : Bool
  fmt : Nat
  tiles : Nat
  size : Nat
  residence : Tier
  creating : Bool
  place : Option Placement := none
  map : List TileLoc := []
  mapLoc : Option TileLoc := none
  charged : Nat
  clayCharge : Nat := 0
  sectorCharge : Nat := 0
  pins : DWord := 0
  devPins : Nat := 0
  /-- The digest a successful validation recorded. -/
  validated : Option Bytes := none
  lost : Bool := false
  lostPending : Bool := false
  /-- Handles a context object parks (R94). -/
  parked : Nat := 0
  parkedBay : Nat := 0
  /-- Of a tensor of an opened image, the binding tags of the image's table (R437). -/
  bound : Option (List Bytes) := none
  deriving DecidableEq, Repr

/-- A queued tier command (R252, R255). -/
structure TierCmd where
  seq : Nat
  op : Nat
  obj : Nat
  arg1 : Word
  arg2 : Word
  arg3 : Word
  arg4 : Word
  running : Bool := false
  next : Nat := 0
  /-- Reads of the current tile that timed out or came back poisoned (R282). -/
  badReads : Nat := 0
  place : Option Placement := none
  /-- The destination's units, fixed at the start (R241, R255). -/
  units : List Nat := []
  map : List TileLoc := []
  mapLoc : Option TileLoc := none
  clayCharge : Nat := 0
  sectorCharge : Nat := 0
  deriving DecidableEq, Repr

/-- The tier mover and its registers (R251–R266). -/
structure TierMover where
  args : List Word := [0, 0, 0, 0, 0]
  cmds : List TierCmd := []
  done : List (Nat × Code) := []
  seq : Nat := 0
  lastCode : Code := 0
  info0 : Word := 0
  info1 : Word := 0
  infoPins : DWord := 0
  infoDev : Word := 0
  errInfo : Word := 0
  errAddr : DWord := 0
  errObj : Word := 0
  /-- Uncorrectable errors per granule (brick × 4,096 + granule), and the retired granules (R263). -/
  granErrs : Assoc Nat := []
  retired : Assoc Bool := []
  deriving DecidableEq, Repr

/-- R270, R283, R284. -/
inductive UnitState where
  | absent | training | inService | mappedOut
  deriving DecidableEq, Repr

/-- A memory unit, D0–D19 or X0–X3 at 32–35. -/
structure MemUnit where
  state : UnitState := .absent
  cause : Nat := 0
  rate : Nat := 0
  width : Nat := 0
  capacity : Nat := 0
  /-- Type 3 capacity discovered at boot, in sectors (R248, R280). -/
  found : Nat := 0
  hot : Bool := false
  throttled : Bool := false
  temp : Int := 0
  drift : Nat := 0
  /-- Held: a retrain, or a link in Recovery or down (R271, R282). -/
  held : Bool := false
  linkDown : Bool := false
  /-- Since the last census tick: uncorrectable sectors, address-parity mismatches, Recovery entries, and
  timeouts and poisons together. -/
  uncorr : Nat := 0
  parity : Nat := 0
  recoveries : Nat := 0
  violations : Nat := 0
  deriving DecidableEq, Repr

/-! ### Training, checkpoints and turns (13, 14) -/

/-- A checkpoint slot held for the buddy, or a mirror slot (R331–R333, R481). -/
structure CkptSlot where
  state : Nat := 0
  step : Nat := 0
  source : Nat := 0
  /-- Bytes of a slot fetched from a buddy (R483), which no unit holds; those of a kept slot lie in its sectors. -/
  data : Memory := []
  deriving DecidableEq, Repr

/-- The checkpoint writer and region (R330–R337). -/
structure Ckpt where
  /-- 0 disabled; 1 idle; 2 sending; 3 waiting. -/
  state : Nat := 0
  lastCode : Code := 0
  sent : Nat := 0
  sending : Nat := 0
  sendTick : Nat := 0
  peerFails : Nat := 0
  /-- Devices whose acknowledgement is awaited: the buddy, and with cairns the spare (R481). -/
  awaiting : List Nat := []
  /-- Channels that hold shares, the slots reserved there, and the sectors of one slot on one channel (R331, R481). -/
  shares : List Nat := []
  kept : List Nat := []
  slotSize : Nat := 0
  shrunk : Bool := false
  slots : Assoc CkptSlot := []
  holding : Bool := false
  deriving DecidableEq, Repr

/-- A phase announcement installed and not yet taken (R342): kind, turn, phase, tick, s_min. -/
structure Announce where
  void : Bool
  turn : Nat
  phase : Nat
  tick : Nat
  smin : Nat
  deriving DecidableEq, Repr

/-- A vote report held (R342). -/
structure Vote where
  source : Nat
  phase : Nat
  verdict : Nat
  step : Nat
  deriving DecidableEq, Repr

/-- Turns (R341–R362). -/
structure Turn where
  /-- Phase code of R341. -/
  phase : Nat := 0
  phaseStart : Nat := 0
  late : Bool := false
  lastCode : Code := 0
  turn : Nat := 0
  next : Option Announce := none
  step : Nat := 0
  ownDone : Option Nat := none
  votes : List Vote := []
  voteSent : Bool := false
  decided : Bool := false
  jobHeld : Bool := false
  /-- Running sequences closed at the next step boundary (R347). -/
  closeRunning : Bool := false
  /-- First step of the turn that learns (R349). -/
  learnFrom : Nat := 0
  /-- The sequences of the turn with data index, step and micro-batch (R349). -/
  assigned : List (Nat × Nat × Nat × Nat) := []
  /-- Rollout objects of void turns that wait to be unpinned (R359). -/
  doomed : List Nat := []
  optRefusedSeen : Bool := false
  deriving DecidableEq, Repr

/-! ### Relay channels (09) -/

/-- A relay channel (R221–R231). -/
structure Relay where
  /-- 0 IDLE; 1 OPEN; 2 DONE; 3 CLOSED. -/
  state : Nat := 0
  egress : Bool := false
  cfg : Word := 0
  peer : Word := 0
  object : Word := 0
  xfer : Word := 0
  count : Word := 0
  start : Word := 0
  laggardTicks : Word := 0x1000
  laggard : Bool := false
  lastCode : Code := 0
  next : Nat := 0
  avail : Nat := 0
  tokens : Nat := 0
  granted : Nat := 0
  retired : Nat := 0
  /-- Egress: tiles sent whose tokens have not returned (R226). -/
  spent : Nat := 0
  /-- Ticks without a token while a tile is available (R224). -/
  starved : Nat := 0
  /-- A field was written while the channel was open (R231). -/
  badWrite : Bool := false
  /-- Ingress: free handles of the stream, bytes and tiles written into the current slot, and the tiles of each slot
  not yet released. -/
  free : List Word := []
  bytes : Nat := 0
  flits : Nat := 0
  slotTiles : Assoc Nat := []
  /-- Ingress: the stream and transfer it was last opened for (R225). -/
  opened : Option (Nat × Nat × Nat × Word) := none
  pinned : Bool := false
  deriving DecidableEq, Repr

/-! ### Hethes (16) -/

inductive PortState where
  | down | training | handshake | up | disabled
  deriving DecidableEq, Repr

/-- A sequenced flit as sent, kept until acknowledged (R398). -/
structure SentFlit where
  fsn : Nat
  vc : Nat
  bytes : Bytes
  deriving DecidableEq, Repr

/-- A flit waiting for a credit, a retry-buffer entry or the port (R397, R398): its plaintext. -/
structure WaitFlit where
  vc : Nat
  detour : Bool
  bytes : Bytes
  /-- The port and channel whose buffer holds it, for a flit being forwarded. -/
  origin : Option (Nat × Nat)
  deriving DecidableEq, Repr

/-- The keys of an outer port in one direction (R410). -/
structure LinkKey where
  key : Bytes
  iv : Bytes
  count : Nat
  deriving DecidableEq, Repr

/-- A Hethes port. -/
structure HxPort where
  state : PortState := .down
  lanes : Nat := 0
  keyed : Bool := false
  txPhase : Bool := false
  rxPhase : Bool := false
  detour : Bool := false
  lastCode : Code := 0
  peerDev : Nat := 0
  peerRole : Nat := 0
  peerValid : Bool := false
  /-- BK public key of the peer's certificate (R437). -/
  peerBk : Bytes := []
  delay : Nat := 0
  delayTick : Option Nat := none
  txFsn : Nat := 0
  rxFsn : Nat := 0
  discarding : Bool := false
  /-- A flit has been received in order; an acknowledgement is due. -/
  rxAny : Bool := false
  ackDue : Bool := false
  retry : List SentFlit := []
  wait : List WaitFlit := []
  /-- Credits spent and credits owed per virtual channel, 8 for the detour buffer. -/
  spent : Assoc Nat := []
  owed : Assoc Nat := []
  rrPtr : Nat := 0
  /-- CRC failures since a tick; retries in a row; ticks of retrains (R392). -/
  crcFails : List Nat := []
  retryRow : Nat := 0
  retrains : List Nat := []
  retraining : Bool := false
  downSince : Option Nat := none
  suspectSent : Bool := false
  nextTry : Nat := 0
  /-- Reassembly buffers by (source × 8 + class × 2 + member) (R399). -/
  asm : Assoc (Option Bytes) := []
  /-- Messages in the middle of being forwarded or discarded here, by the same key (R408). -/
  mid : Assoc Bool := []
  /-- The device's own LINK_HELLO and its ephemeral private key, and the peer's body. -/
  ownHello : Bytes := []
  ownPriv : Bytes := []
  peerHello : Bytes := []
  tx : Option LinkKey := none
  txNext : Option LinkKey := none
  rx : Option LinkKey := none
  rxNext : Option LinkKey := none
  keyTick : Nat := 0
  deriving DecidableEq, Repr

/-- System topology, substitution and re-mapping (R400–R417, R479–R486). -/
structure System where
  device : Nat := 0
  x : Nat := 0
  y : Nat := 0
  z : Nat := 0
  spare : Bool := false
  substituting : Bool := false
  /-- Substitutions installed: failed device, spare's former number. -/
  subst : List (Nat × Nat) := []
  substDev : Nat := 0
  substValid : Bool := false
  noSpare : Bool := false
  substCode : Code := 0
  /-- SUSPECTs held: suspected device, source. -/
  suspects : List (Nat × Nat) := []
  removed : List Nat := []
  /-- Remap table: removed device, host. -/
  remap : List (Nat × Nat) := []
  standing : Nat := 0
  remapCode : Code := 0
  /-- A re-mapping announced: failed, host, placement, tick B. -/
  remapNext : Option (Nat × Nat × Nat × Nat) := none
  voteRoot : Nat := 0
  hostReady : List Nat := []
  deriving DecidableEq, Repr

/-! ### Serving (15) -/

/-- A sealed session (R367–R373). -/
structure Session where
  id : Nat
  port : Nat
  channel : Nat
  addr : Nat
  udp : Nat
  isOpen : Bool
  h : Bytes
  rxKey : Bytes
  txKey : Bytes
  rxIv : Bytes
  txIv : Bytes
  txSeq : Nat
  /-- Highest accepted seq plus one, and the accepted seqs of the last 64. -/
  rxHigh : Nat
  rxSeen : List Nat
  lastFrame : Nat
  acceptTick : Nat
  tagFails : Nat
  /-- Authenticated records not yet taken. -/
  inbox : List Bytes
  deriving DecidableEq, Repr

/-- Where a request stands (R374–R382). -/
inductive ReqStage where
  | queued | prefill (bay : Nat) | decode (bay : Nat) | ended
  deriving DecidableEq, Repr

/-- A generated token with the values kept of it: its id, logprob and lse (R347). -/
structure TokenRec where
  id : Word
  logprob : Word
  lse : Word
  deriving DecidableEq, Repr

/-- A request (R371–R383). -/
structure Request where
  port : Nat
  session : Nat
  id : Nat
  model : Nat
  cls : Nat
  flags : Byte
  stops : List Word
  prompt : List Word
  maxNew : Nat
  temperature : Word
  topK : Nat
  topP : Word
  minP : Word
  seed : Word
  deadline : Nat
  stage : ReqStage
  /-- Generated tokens, all delivered ones kept for RESEND, and the first index of each TOKENS record sent. -/
  tokens : List TokenRec
  cuts : List Nat
  promptDone : Nat
  drafts : Nat
  /-- Drafts of the last verify step that were not accepted: the rollback of the next verify record (R380, R295). -/
  rollback : Nat
  mixed : Bool
  weights : Bytes
  /-- The weight digests the request has run on, each from a position of its tokens (R383). -/
  runs : List (Nat × Bytes)
  cancel : Bool
  ending : Code
  /-- Tick of the ending boundary, and the same in ticks since reset (R372, R383). -/
  endTick : Nat
  endUp : Nat
  deriving DecidableEq, Repr

/-- A weight replacement (R384): header and weight digest of the new image, the weight digest before, whether the flips
are requested, and the bays that have not flipped. -/
structure Replace where
  header : Bytes
  weights : Bytes
  old : Bytes
  ready : Bool
  bays : List Nat
  deriving DecidableEq, Repr

/-- A serving group's bays by role, the share rule's counts and the bay that moves, to prefill where the flag is set
(R377), and its weight replacement. -/
structure Group where
  prefill : List Nat := []
  decode : List Nat := []
  hiCount : Nat := 0
  loCount : Nat := 0
  moving : Option (Nat × Bool) := none
  replace : Option Replace := none
  deriving DecidableEq, Repr

/-- A service port. -/
structure SvPort where
  linkUp : Bool := false
  gwResolved : Bool := false
  gwMac : Bytes := []
  hellos : Assoc Nat := []
  /-- HELLOs that wait for the DRBG (R427): source address, UDP port, frame. -/
  waiting : List (Nat × Nat × Bytes) := []
  deriving DecidableEq, Repr

/-- Serving state. -/
structure Serving where
  port0 : SvPort := {}
  port1 : SvPort := {}
  sessions : List Session := []
  requests : List Request := []
  /-- Class queues by model × 8 + class: (port, session, request). -/
  queues : Assoc (List (Nat × Nat × Nat)) := []
  groups : Assoc Group := []
  deriving DecidableEq, Repr

/-! ### Security (17) -/

/-- A report request waiting (R428): nonce, and who asked. -/
inductive ReportFor where
  | mgmt (conn : Nat) (tag : Word)
  | session (port session : Nat)
  deriving DecidableEq, Repr

structure ReportReq where
  nonce : Bytes
  who : ReportFor
  /-- The report's bytes before the signature, as of the cycle it was taken. -/
  body : Bytes
  deriving DecidableEq, Repr

structure ProgEntry where
  digest : Bytes
  kind : Nat
  tick : Nat
  deriving DecidableEq, Repr

structure WeightEntry where
  digest : Bytes
  binding : Bytes
  claimed : Bool
  device : Nat
  tick : Nat
  deriving DecidableEq, Repr

/-- The Cornerstones (R423–R446). -/
structure Cornerstone where
  identityOk : Bool := false
  akReady : Bool := false
  /-- 0 starting; 1 healthy; 2 retesting; 3 failed; Keystone N then S. -/
  entropyN : Nat := 0
  entropyS : Nat := 0
  lastFailN : Option Nat := none
  lastFailS : Option Nat := none
  scrubbed : Bool := false
  debugLocked : Bool := true
  lastCode : Code := 0
  deviceId : Bytes := []
  akPriv : Bytes := []
  akPub : Bytes := []
  bootNonce : Bytes := []
  bootTick : Nat := 0
  akCert : Bytes := []
  fwDigest : Bytes := []
  mortarDigest : Bytes := []
  progs : List ProgEntry := []
  weights : List WeightEntry := []
  reports : List ReportReq := []
  origin : Bytes := []
  updates : Nat := 0
  optDigest : Bytes := []
  lineageFlags : Nat := 0
  /-- Unit keys, 64 bytes each, by unit number. -/
  unitKeys : Assoc Bytes := []
  keysCleared : Bool := false
  wopenArg : Word := 0
  wopenPeer : Word := 0
  /-- Weight-open command running: 1 OPEN, 2 ACCEPT, 3 CHECK, and its header object. -/
  wopen : Option (Nat × Nat) := none
  wopenOrigin : Nat := 0
  wopenCode : Code := 0
  deriving DecidableEq, Repr

/-! ### Boot and management (18) -/

/-- A serving-table slot (field 0x0702). -/
structure ModelSlot where
  draft : Nat := 0xFF
  draftBay : Nat := 0xFF
  bays : DWord := 0
  vocab : Nat := 0
  context : Nat := 0
  depths : List Nat := []
  weights : Bytes := []
  header : Bytes := []
  layout : Bytes := []
  deriving DecidableEq, Repr

/-- An egress channel (field 0x0601): kinds, and prefixes as (address, length, UDP port). -/
structure Channel where
  kinds : Word := 0
  prefixes : List (Nat × Nat × Nat) := []
  deriving DecidableEq, Repr

/-- A port record of the per-device section (field 0x0202). -/
structure PortRole where
  role : Nat := 0
  outer : Bool := false
  aux : Nat := 0
  deriving DecidableEq, Repr

/-- Training section (R312). -/
structure TrainPlan where
  enable : Bool := false
  ex : Nat := 0
  ey : Nat := 0
  ez : Nat := 0
  t : Nat := 0
  p : Nat := 0
  d : Nat := 0
  micro : Nat := 0
  tagBits : Nat := 0
  ahead : Nat := 0
  ckpt : Bool := false
  buddySectors : Nat := 0
  ckptTimeout : Nat := 0
  firstStep : Nat := 0
  deriving DecidableEq, Repr

/-- Turn section (R339). -/
structure TurnPlan where
  enable : Bool := false
  firstTurn : Nat := 0
  turnBay : Nat := 0
  scoreBays : DWord := 0
  rewardSlots : Nat := 0
  stepsPerTurn : Nat := 0
  seqPerMb : Nat := 0
  phaseLead : Nat := 0
  genLimit : Nat := 0
  scoreLimit : Nat := 0
  learnLimit : Nat := 0
  redistLimit : Nat := 0
  genLayout : Bytes := []
  slotDelta : Nat := 0
  deriving DecidableEq, Repr

/-- The Footing in use (R450–R453), with the fields SET_FIELD has changed (R463). -/
structure Footing where
  present : Bool := false
  generation : Nat := 0
  digest : Bytes := []
  systemDigest : Bytes := []
  ex : Nat := 1
  ey : Nat := 1
  ez : Nat := 1
  cairns : Bool := false
  confidential : Bool := false
  treeRoot : Nat := 0
  holdover : Nat := 0
  leadLog2 : Nat := 0
  minSvn : Nat := 0
  coordX : Nat := 0
  coordY : Nat := 0
  coordZ : Nat := 0
  ports : Assoc PortRole := []
  timeSource : Nat := 0
  ptpEthernet : Bool := false
  ptpDomain : Nat := 0
  upstreams : List Nat := []
  dramRate : Nat := 0
  dramExpect : Nat := 0
  mgmtAddr : Nat := 0
  mgmtPrefix : Nat := 0
  mgmtGateway : Nat := 0
  mgmtTcp : Nat := 0
  /-- Service ports: address, prefix length, gateway. -/
  service : List (Nat × Nat × Nat) := []
  svcUdp : Nat := 0
  operators : List (Nat × Bytes) := []
  signers : List (Nat × Bytes) := []
  clients : List (Nat × Bytes) := []
  bays : List (Nat × BayPlan) := []
  channels : List (Nat × Channel) := []
  hasEgress : Bool := false
  clientAuth : Bool := false
  specDepth : Nat := 0
  idleTicks : Nat := 0
  retainTicks : Nat := 0
  svcHi : Nat := 0
  svcLo : Nat := 0
  svcHold : Nat := 0
  models : List (Nat × ModelSlot) := []
  originX : Nat := 0
  originY : Nat := 0
  originZ : Nat := 0
  train : TrainPlan := {}
  turn : TurnPlan := {}
  /-- Bonds: index, bay, use, digest. -/
  bonds : List (Nat × Nat × Nat × Bytes) := []
  /-- Images: index, owning bay, use, weight digest, header digest. -/
  images : List (Nat × Nat × Nat × Bytes × Bytes) := []
  storageAddr : Nat := 0
  storageUdp : Nat := 0
  seedDevice : Nat := 0
  hasStorage : Bool := false
  /-- Reward slot owners. -/
  rewards : List (Nat × Nat) := []
  bundle : List (Nat × Bytes) := []
  deriving DecidableEq, Repr

/-- Boot stages of R468. -/
inductive BootStage where
  | rom | firmware | selfTest | footing | bringUp | time | ready | failed | recovery
  deriving DecidableEq, Repr

/-- Boot (R455–R458, R468). -/
structure Boot where
  stage : BootStage := .rom
  fwSlot : Bool := false
  ftSlot : Bool := false
  code : Code := 0
  fwA : Code := 0
  fwB : Code := 0
  ftA : Code := 0
  ftB : Code := 0
  primaryS : Bool := false
  mgmt10G : Bool := false
  entropyDone : Bool := false
  /-- The firmware slots have been verified; stage 1 is left once no pin-driving TAP instruction is current (R508). -/
  fwVerified : Bool := false
  flashMib : Nat := 0
  /-- Valid firmware slots' svn. -/
  svnA : Option Nat := none
  svnB : Option Nat := none
  selfTested : Bool := false
  mgmtOpen : Bool := false
  mortar : Bool := false
  ddrDone : Bool := false
  bundleDone : Bool := false
  /-- A neighbour's journal has been adopted, or failed the check (R444). -/
  adopted : Bool := false
  adoptFailed : Bool := false
  /-- The device had reached readiness before the reset it comes back from (R444). -/
  rejoins : Bool := false
  deriving DecidableEq, Repr

/-- A journal entry kept, its outcome when fired, and the command while it waits (R443, R465). -/
structure KeptEntry where
  entry : JournalEntry
  head : Bytes
  fired : Bool
  outcome : Code
  outcomeCycle : Nat
  cancelled : Bool
  deriving DecidableEq, Repr

/-- The management journal (R443, R444). -/
structure Journal where
  seq : Nat := 0
  head : Bytes := []
  baseSeq : Nat := 0
  baseHead : Bytes := []
  entries : List KeptEntry := []
  deriving DecidableEq, Repr

structure MgmtConn where
  id : Nat
  slot : Nat
  source : Nat
  lastTick : Nat
  deriving DecidableEq, Repr

structure AlarmEntry where
  tick : Nat
  bit : Nat
  code : Code
  arg : Word
  deriving DecidableEq, Repr

/-- The management port (R459–R468). -/
structure Mgmt where
  conns : List MgmtConn := []
  tlsFails : Assoc Nat := []
  alarm : Byte := 0
  log : List AlarmEntry := []
  /-- The WRITE_FOOTING running: sub-op and message (R464). -/
  flashOp : Option (Nat × Cirid) := none
  /-- Commands taken that wait behind it, or behind one of their own connection: op and message. -/
  waiting : List (Nat × Cirid) := []
  /-- Turn aggregates (R440): running sums and the last complete ones. -/
  aggRun : Assoc Word := []
  aggDone : Assoc Word := []
  /-- Tick of a scheduled RESET (R462). -/
  resetAt : Option Nat := none
  deriving DecidableEq, Repr

/-- An outstanding GET (R467). -/
structure Get where
  offset : Nat
  length : Nat
  tries : Nat
  deriving DecidableEq, Repr

/-- An image fetch (R467). -/
structure Fetch where
  digest : Bytes
  next : Nat
  total : Nat
  gets : List Get
  /-- Bytes received by stream offset. -/
  data : Memory
  owner : Nat
  deriving DecidableEq, Repr

/-! ### Reliability (19) and electrical (20) -/

structure ErrEntry where
  tick : Nat
  cls : Nat
  source : Nat
  code : Code
  arg : Word
  deriving DecidableEq, Repr

/-- R470–R486. -/
structure Reliability where
  /-- The ring by index, and the entries written since reset. -/
  log : Assoc (Option ErrEntry) := []
  total : Nat := 0
  /-- Class-1 counters that have logged in this period. -/
  firstSeen : List Nat := []
  fatal : Bool := false
  fatalCode : Code := 0
  fatalSource : Nat := 0
  fatalArg : Word := 0
  fatalTick : Nat := 0
  later : Word := 0
  auditPass : Bool := false
  auditPool : Nat := 0
  auditIndex : Nat := 0
  /-- An audit captured and not gathered: the first mismatch, if any. -/
  audit : Option (Option (Nat × Nat)) := none
  degraded : BitVec 9 := 0
  /-- Tick of each core's last kick. -/
  kicks : Assoc Nat := []
  deriving DecidableEq, Repr

/-- Input pins as driven, and status outputs (R488–R497); true = asserted for the outputs. -/
structure Pins where
  pwrOk : Bool := false
  resetIn : Bool := true
  capLow : Bool := false
  bootFail : Bool := false
  devFatal : Bool := false
  replaceReq : Bool := false
  thermTrip : Bool := false
  deriving DecidableEq, Repr

/-- Power, temperatures, TAP (R501–R510). -/
structure Power where
  gp : Nat := 0
  gt : List Nat := [0, 0, 0, 0]
  ocWarn : Bool := false
  limit : Nat := 4200
  limitUsed : Nat := 4200
  now : Nat := 0
  tempAshlar : List Int := [0, 0, 0, 0]
  tempClay : List Int := [0, 0, 0, 0]
  tempKsN : Int := 0
  tempKsS : Int := 0
  vid : Nat := 700
  tapIr : Byte := 0x01
  deriving DecidableEq, Repr

/-! ### What the device sends -/

/-- What an observer outside the device, or a Mason core, sees it do, in order. -/
inductive Output where
  /-- A Mason core takes an access fault: a store fault where the flag is set (R32). -/
  | trap (core : Nat) (store : Bool)
  /-- A flit leaves a Hethes port (R394). -/
  | flit (port : Nat) (bytes : Bytes)
  /-- A Hethes message handed in for this device (R399). -/
  | delivered (port : Nat) (source : Nat) (bytes : Bytes)
  /-- A value handed to Mortar (R50, R224). -/
  | mortar (kind : Nat) (value : Nat)
  /-- A MORTAR message handed to this device's Mortar (R399). -/
  | mortarMsg (source kind : Nat) (body : Bytes)
  /-- A service frame that passed the checks of R365 and R366: source address, source UDP port, payload. -/
  | service (port addr udp : Nat) (payload : Bytes)
  /-- A PMBus write to a regulator: address, page, command code, value (R493, R503). -/
  | pmbus (addr page cmd value : Nat)
  /-- A datagram leaves a service port: destination address, UDP port, payload (R365). -/
  | datagram (port addr udp : Nat) (payload : Bytes)
  /-- A Neighbor Advertisement for the port's own address. -/
  | advert (port dest : Nat)
  /-- A Cirid response or notice on a connection (R460). -/
  | cirid (conn : Nat) (bytes : Bytes)
  /-- The data register of a TAP instruction is read out (R508). -/
  | tapData (value : Word)
  /-- A mapped-out unit is switched off: a channel's PMIC outputs, a CXL port's link (R278). -/
  | unitOff (unit : Nat)
  /-- A Delay_Req of IEEE 1588 on the management port (R40). -/
  | ptpDelayReq (seq : Nat)
  /-- A TCP connection reset, or closed with a TLS alert (R459). -/
  | tcpReset (conn : Nat)
  | tcpClosed (conn : Nat)
  deriving DecidableEq, Repr

/-! ### The whole block -/

structure State where
  /-- The device is held in reset (R496). -/
  inReset : Bool := true
  /-- Every clock is stopped by a thermal trip (R506). -/
  stopped : Bool := false
  tb : TimeBase := {}
  census : Census := {}
  dies : Dies := {}
  net : Net := {}
  bricks : Assoc Brick := []
  bays : Assoc Bay := []
  validator : Validator := {}
  tier : TierMover := {}
  objs : Assoc (Option Obj) := []
  units : Assoc MemUnit := []
  /-- Stored sectors as the memory holds them: byte (unit × 2^40 + sector) × 64 + offset. -/
  sectors : Memory := []
  ckpt : Ckpt := {}
  turn : Turn := {}
  relays : Assoc Relay := []
  ports : Assoc HxPort := []
  system : System := {}
  serving : Serving := {}
  cs : Cornerstone := {}
  footing : Footing := {}
  boot : Boot := {}
  /-- Boot flash; an unlisted byte reads 0xFF. -/
  flash : Memory := []
  journal : Journal := {}
  mgmt : Mgmt := {}
  fetch : Option Fetch := none
  rel : Reliability := {}
  pins : Pins := {}
  power : Power := {}
  /-- Live and snapshot statistics counters by the live register's control address (R53, R54). -/
  live : Assoc Word := []
  snap : Assoc Word := []
  ctlFaultAddr : DWord := 0
  /-- Mason shared SRAM of Keystone N and of Keystone S, 32 MiB each (R2, R19). -/
  sramN : Memory := []
  sramS : Memory := []
  /-- Held low words and read shadows of 64-bit pairs, by agent × 2^40 + low address (R6, R33). -/
  pairHold : Assoc (Option Word) := []
  pairShadow : Assoc Word := []
  out : List Output := []
  /-- The model's own counter of free values drawn (log entry 14). -/
  freeCtr : Nat := 0
  pending : List Instr := []
  deriving DecidableEq, Repr

/-- Why a command faults. No meaning of this model faults: every command of the table that the spec gives no
effect in the present state leaves the state unchanged (log entry 1). -/
inductive Fault where
  /-- Raised by no command; kept so that the outcome type is inhabited. Safe. -/
  | none
  deriving DecidableEq, Repr

/-- Why a command is refused. -/
inductive Refusal where
  /-- Raised by an arm of exec whose command has no meaning yet. Safe: no next state is given. -/
  | notModelled (mnemonic : String)
  deriving DecidableEq, Repr

/-- The outcome of a command. -/
abbrev Out := Host.Outcome State Fault Refusal

/-- The machine right after reset (R6, R44, R52, R90, R341, R468, R496): held in reset, every register at its
reset value, no queue, no memory listed. -/
def State.reset : State := {}

end Sys2Proof.Machine
end

