-- ==== Sys2Proof/Machine/Ops.lean ====
section
/-!
DEFINITION. The named operations every command is built from: sparse maps and byte memories in canonical form,
bytes of fields (R5), accessors, statistics counters (R53), the error log (R470–R472), alarms (R466), degraded flags
(R431), the fatal state (R474) and free values.
-/
namespace Sys2Proof.Machine

/-! ### Sparse maps -/

/-- The value at a key, the default where none is listed. -/
def aget {α : Type} (d : α) : Assoc α → Nat → α
  | [], _ => d
  | c :: m, i => if c.1 = i then c.2 else aget d m i

/-- The entries of a run of values from key a on that differ from the default. -/
def arun {α : Type} [DecidableEq α] (d : α) : Nat → List α → Assoc α
  | _, [] => []
  | a, v :: vs => if v = d then arun d (a + 1) vs else (a, v) :: arun d (a + 1) vs

/-- Write a run of values from key a on, keeping the canonical form. -/
def awrite {α : Type} [DecidableEq α] (d : α) (m : Assoc α) (a : Nat) (vs : List α) : Assoc α :=
  m.filter (fun c => c.1 < a) ++ arun d a vs ++ m.filter (fun c => a + vs.length ≤ c.1)

/-- Write one value. -/
def aput {α : Type} [DecidableEq α] (d : α) (m : Assoc α) (i : Nat) (v : α) : Assoc α := awrite d m i [v]

/-- Read n values from key a on. -/
def aread {α : Type} (d : α) (m : Assoc α) (a n : Nat) : List α := (List.range n).map fun i => aget d m (a + i)

/-- The canonical form: keys strictly rising, no entry at the default. -/
abbrev awf {α : Type} [DecidableEq α] (d : α) (m : Assoc α) : Prop :=
  m.Pairwise (fun a b => a.1 < b.1) ∧ ∀ c ∈ m, c.2 ≠ d

/-- The canonical form of a memory whose unlisted bytes read d. -/
abbrev Memory.wf (d : Byte) (m : Memory) : Prop := awf d m

/-! ### Bytes (R5) -/

/-- n bytes of a number, least significant first. -/
def leBytes (n v : Nat) : Bytes := (List.range n).map fun i => BitVec.ofNat 8 (v >>> (8 * i))

/-- The number of bytes, least significant first. -/
def leNat : Bytes → Nat
  | [] => 0
  | b :: bs => b.toNat + 256 * leNat bs

/-- n bytes of a number, most significant first (headers of published standards). -/
def beBytes (n v : Nat) : Bytes := (leBytes n v).reverse
def beNat (bs : Bytes) : Nat := leNat bs.reverse

/-- n bytes of a byte string at an offset; bytes beyond its end read 0. -/
def slice (bs : Bytes) (at_ n : Nat) : Bytes := ((bs.drop at_).take n) ++ List.replicate (n - (bs.length - at_)) 0

/-- A field of n bytes at an offset (R5). -/
def fieldLE (bs : Bytes) (at_ n : Nat) : Nat := leNat ((bs.drop at_).take n)

def zeros (n : Nat) : Bytes := List.replicate n 0

/-- The 32 bytes of a byte string as eight words, byte 0 in bits [7:0] of word 0. -/
def wordOf (bs : Bytes) (i : Nat) : Word := BitVec.ofNat 32 (fieldLE bs (4 * i) 4)

/-- Replace the element at an index of a list. -/
def lset {α : Type} (l : List α) (i : Nat) (v : α) : List α := l.set i v

namespace State

/-! ### Accessors -/

def brick (s : State) (n : Nat) : Brick := aget {} s.bricks n
def setBrick (s : State) (n : Nat) (b : Brick) : State := { s with bricks := aput {} s.bricks n b }
def bay (s : State) (b : Nat) : Bay := aget {} s.bays b
def setBay (s : State) (b : Nat) (v : Bay) : State := { s with bays := aput {} s.bays b v }
def unit (s : State) (u : Nat) : MemUnit := aget {} s.units u
def setUnit (s : State) (u : Nat) (v : MemUnit) : State := { s with units := aput {} s.units u v }
def relay (s : State) (c : Nat) : Relay := aget {} s.relays c
def setRelay (s : State) (c : Nat) (v : Relay) : State := { s with relays := aput {} s.relays c v }
def port (s : State) (p : Nat) : HxPort := aget {} s.ports p
def setPort (s : State) (p : Nat) (v : HxPort) : State := { s with ports := aput {} s.ports p v }
def obj (s : State) (o : Nat) : Option Obj := aget none s.objs o
def setObj (s : State) (o : Nat) (v : Option Obj) : State := { s with objs := aput none s.objs o v }

/-- The device answers events: it is not held in reset (R496), its clocks run (R506) and it is not in the fatal
state (R474). -/
def powered (s : State) : Bool := !s.inReset && !s.stopped
def awake (s : State) : Bool := s.powered && !s.rel.fatal

/-- A Keystone is out of reset: the boot primary from the release of reset, the other once the firmware is verified
(R20, R456). -/
def keystoneUp (s : State) (south : Bool) : Bool := south == s.boot.primaryS || s.boot.fwVerified

/-- A Mason core runs: its Keystone is out of reset, and boot has not stopped (R20, R35, R458). -/
def coreUp (s : State) (core : Nat) : Bool :=
  s.awake && core < 32 && s.keystoneUp (coreSouth core) && s.boot.stage != .failed && s.boot.stage != .recovery

/-- Mortar runs: it starts with the chosen Footing, and never on a device that stopped in recovery (R35, R456). -/
def mortarUp (s : State) : Bool := s.awake && s.boot.mortar && s.boot.stage != .failed && s.boot.stage != .recovery

/-- The tick now (R37). -/
def now (s : State) : Nat := s.tb.tick
def nowWord (s : State) : DWord := BitVec.ofNat 64 s.tb.tick

/-! ### Outputs and free values -/

def emit (s : State) (o : Output) : State := { s with out := s.out ++ [o] }

/-- n bytes of the DRBG (R427): free values, one index each. -/
def drawBytes (s : State) (n : Nat) : Bytes := (List.range n).map fun i => Config.entropy (s.freeCtr + i)
def drew (s : State) (n : Nat) : State := { s with freeCtr := s.freeCtr + n }

/-- A Cornerstone's entropy source as CS_STATUS codes it: Keystone N, or S. -/
def entropyOf (s : State) (south : Bool) : Nat := if south then s.cs.entropyS else s.cs.entropyN

/-- The DRBG of a Keystone serves (R427). -/
def drbgServes (s : State) (south : Bool) : Bool := s.entropyOf south == 1

/-! ### Statistics counters (R53, R54, R474) -/

/-- The live counter at a control address. -/
def stat (s : State) (a : Nat) : Word := aget 0 s.live a

/-- Add n to a live counter, saturating at 0xFFFF_FFFF; in the fatal state counters stand still (R474). Of TB_REF_FAULT
and TB_SCHED_REJECT R48 does not say what follows 2^32 − 1: they saturate as the others do (log entry 106). -/
def count (s : State) (a n : Nat) : State :=
  if s.rel.fatal then s
  else { s with live := aput 0 s.live a (BitVec.ofNat 32 (min (((s.stat a).toNat + n)) 0xFFFFFFFF)) }

/-! ### The error log (R470–R472) -/

/-- Write an entry into the ring. -/
def logEntry (s : State) (cls source : Nat) (code : Code) (arg : Word) : State :=
  { s with rel := { s.rel with
      log := aput none s.rel.log (s.rel.total % 1024)
        (some { tick := s.tb.tick, cls := cls, source := source, code := code, arg := arg })
      total := s.rel.total + 1 } }

/-- An error of classes 2–5: counted and logged (R471, R472). -/
def error (s : State) (cls source : Nat) (code : Code) (arg : Word) : State :=
  (s.count (errCount cls) 1).logEntry cls source code arg

/-- A corrected error (class 0): counted, never logged; n units at a block counter. -/
def corrected (s : State) (counter n : Nat) : State := (s.count counter n).count (errCount 0) n

/-- A partner violation (class 1) at a block counter: logged the first time the counter records one in the
period. -/
def partner (s : State) (counter source : Nat) (code : Code) (arg : Word) : State :=
  let t := (s.count counter 1).count (errCount 1) 1
  if t.rel.firstSeen.contains counter || t.rel.fatal then t
  else { t with rel := { t.rel with firstSeen := t.rel.firstSeen ++ [counter] } }.logEntry 1 source code arg

/-! ### Alarms (R466) -/

/-- The alarm log as the bytes READ and NOTICE carry. -/
def alarmBytes (s : State) : Bytes :=
  s.mgmt.log.flatMap fun e =>
    leBytes 8 e.tick ++ leBytes 1 e.bit ++ [0] ++ leBytes 2 e.code.toNat ++ leBytes 4 e.arg.toNat

/-- A Cirid message (R460). -/
def ciridMsg (op : Nat) (flags : Half) (tag : Word) (code : Code) (body : Bytes) : Bytes :=
  leBytes 4 (16 + body.length) ++ leBytes 2 op ++ leBytes 2 flags.toNat ++ leBytes 4 tag.toNat
    ++ leBytes 2 code.toNat ++ [0, 0] ++ body

/-- Send an ALARMS notice on every open connection. -/
def notice (s : State) : State :=
  { s with out := s.out ++ s.mgmt.conns.map fun c => .cirid c.id (ciridMsg 0x0007 0x0002 0 sOk s.alarmBytes) }

/-- A management alarm: its bit, a log entry (the oldest of 256 dropped), and the notice. -/
def alarm (s : State) (bit : Nat) (code : Code) (arg : Word) : State :=
  let entry : AlarmEntry := { tick := s.tb.tick, bit := bit, code := code, arg := arg }
  let kept := if s.mgmt.log.length < 256 then s.mgmt.log else s.mgmt.log.drop 1
  State.notice { s with mgmt := { s.mgmt with alarm := s.mgmt.alarm ||| (1 <<< bit), log := kept ++ [entry] } }

/-! ### Degraded operation (R431, R470, R477) -/

/-- A cause of a degraded flag (class 3): the flag, REPLACE_REQ_N, a log entry and the degraded alarm, with a code
and the number of the part (log entry 21). -/
def degrade (s : State) (flag source : Nat) (code : Code) (arg : Nat) : State :=
  let t := { s with rel := { s.rel with degraded := s.rel.degraded ||| (1 <<< flag) },
                    pins := { s.pins with replaceReq := true } }
  (t.error 3 source code (BitVec.ofNat 32 arg)).alarm 0 code (BitVec.ofNat 32 arg)

/-! ### Fatal device errors (R473, R474) -/

/-- Clear every key of R423 that is not fused. -/
def clearKeys (s : State) : State :=
  { s with
    cs := { s.cs with akPriv := [], akReady := false, unitKeys := [], keysCleared := true }
    ports := s.ports.map fun c => (c.1, { c.2 with tx := none, txNext := none, rx := none, rxNext := none,
                                                   ownPriv := [], keyed := false })
    serving := { s.serving with sessions := s.serving.sessions.map fun x => { x with rxKey := [], txKey := [] } } }

/-- A fatal device error. The first cause is kept, the device enters the fatal state, its ports stop and its status
lands are asserted; a later cause is counted and logged. -/
def fatalError (s : State) (code : Code) (source : Nat) (arg : Word) : State :=
  if s.rel.fatal then
    { s with rel := { s.rel with later := BitVec.ofNat 32 (min (s.rel.later.toNat + 1) 0xFFFFFFFF) } }.logEntry
      5 source code arg
  else
    let t := (s.error 5 source code arg).alarm 0 code arg
    let k := if t.footing.confidential || code = eTamper then t.clearKeys else t
    { k with
      rel := { k.rel with fatal := true, fatalCode := code, fatalSource := source, fatalArg := arg,
                          fatalTick := s.tb.tick }
      pins := { k.pins with devFatal := true, replaceReq := true } }

/-- An INTERNAL error (class 4): logged and alarmed (R470). -/
def internalError (s : State) (source : Nat) (arg : Word) : State :=
  (s.error 4 source eInternal arg).alarm 0 eInternal arg

end State

/-- The source of an error met on an Ashlar die, by brick (R471). -/
def dieOf (brick : Nat) : Nat := brick / 1024
/-- The source of an error of a Keystone (R471). -/
def ksSource (south : Bool) : Nat := if south then 5 else 4

end Sys2Proof.Machine
end

