-- ==== Sys2Proof/Machine/Crypto.lean ====
section
/-!
DEFINITION. The published algorithms the spec names: SHAKE256 (FIPS 202), AES-256 with CTR, GCM and XTS (FIPS 197,
SP 800-38A and 38D, IEEE 1619), Ed448 (RFC 8032) and X448 (RFC 7748), and the CRCs of R39, R243 and R394. The spec
names them without restating them: PRESUMED (log entry 10).
-/
namespace Sys2Proof.Machine

/-- Cut a list into pieces of n, at most fuel of them. -/
def chunks {α : Type} (n : Nat) : Nat → List α → List (List α)
  | 0, _ => []
  | _ + 1, [] => []
  | fuel + 1, l => l.take n :: chunks n fuel (l.drop n)

def xorBytes (a b : Bytes) : Bytes := List.zipWith (· ^^^ ·) a b

/-- The bytes of an ASCII string. -/
def ascii (s : String) : Bytes := s.toList.map fun c => BitVec.ofNat 8 c.toNat

/-! ### SHAKE256 -/

def keccakRC : List Nat :=
  [
   0x1, 0x8082, 0x800000000000808A, 0x8000000080008000, 0x808B, 0x80000001,
   0x8000000080008081, 0x8000000000008009, 0x8A, 0x88, 0x80008009, 0x8000000A,
   0x8000808B, 0x800000000000008B, 0x8000000000008089, 0x8000000000008003, 0x8000000000008002, 0x8000000000000080,
   0x800A, 0x800000008000000A, 0x8000000080008081, 0x8000000000008080, 0x80000001, 0x8000000080008008]

/-- Rotation of lane x + 5y. -/
def keccakRho : List Nat := [0, 1, 62, 28, 27, 36, 44, 6, 55, 20, 3, 10, 43, 25, 39, 41, 45, 15, 21, 8, 18, 2, 61, 56, 14]

/-- Rotate a 64-bit lane left. -/
def rotl64 (v n : Nat) : Nat := ((v <<< n) ||| (v >>> (64 - n))) % 2 ^ 64

/-- One round of Keccak-f[1600] on 25 lanes. -/
def keccakRound (a : List Nat) (rc : Nat) : List Nat :=
  let ln (l : List Nat) (x y : Nat) : Nat := l.getD (x % 5 + 5 * (y % 5)) 0
  let c := (List.range 5).map fun x => ln a x 0 ^^^ ln a x 1 ^^^ ln a x 2 ^^^ ln a x 3 ^^^ ln a x 4
  let d := (List.range 5).map fun x => c.getD ((x + 4) % 5) 0 ^^^ rotl64 (c.getD ((x + 1) % 5) 0) 1
  let t := (List.range 25).map fun i => a.getD i 0 ^^^ d.getD (i % 5) 0
  -- B[y, 2x + 3y] = rot(A[x, y]): the lane at (u, v) comes from x = u + 3v, y = u
  let b := (List.range 25).map fun i =>
    let u := i % 5
    let v := i / 5
    let x := (u + 3 * v) % 5
    rotl64 (t.getD (x + 5 * u) 0) (keccakRho.getD (x + 5 * u) 0)
  (List.range 25).map fun i =>
    let r := ln b i (i / 5) ^^^ ((2 ^ 64 - 1 - ln b (i % 5 + 1) (i / 5)) &&& ln b (i % 5 + 2) (i / 5))
    if i = 0 then r ^^^ rc else r

def keccakF (a : List Nat) : List Nat := keccakRC.foldl keccakRound a

/-- The sponge's padded blocks of 136 bytes. -/
def shakePad (m : Bytes) : Bytes :=
  let k := 136 - (m.length + 1) % 136
  let z := if k = 136 then 0 else k
  let p := m ++ [0x1F] ++ zeros z
  p.take (p.length - 1) ++ [p.getLastD 0 ||| 0x80]

def absorb (a : List Nat) (block : Bytes) : List Nat :=
  keccakF ((List.range 25).map fun i => a.getD i 0 ^^^ (if i < 17 then fieldLE block (8 * i) 8 else 0))

/-- Squeeze n bytes, at most fuel blocks. -/
def squeeze : Nat → Nat → List Nat → Bytes
  | 0, _, _ => []
  | fuel + 1, n, a =>
    let out := ((a.take 17).flatMap (leBytes 8)).take n
    if n ≤ 136 then out else out ++ squeeze fuel (n - 136) (keccakF a)

/-- SHAKE256 with n bytes of output. -/
def shake (n : Nat) (m : Bytes) : Bytes :=
  let p := shakePad m
  squeeze (n / 136 + 1) n ((chunks 136 (p.length / 136 + 1) p).foldl absorb (List.replicate 25 0))

/-- The 32-byte digest the spec uses throughout. -/
def digest (m : Bytes) : Bytes := shake 32 m

/-! ### AES-256 -/

/-- The S-box, 16 entries a number, entry 0 in the lowest byte. -/
def aesRows : List Nat :=
  [
   0x76ABD7FE2B670130C56F6BF27B777C63, 0xC072A49CAFA2D4ADF04759FA7DC982CA,
   0x1531D871F1E5A534CCF73F362693FDB7, 0x75B227EBE28012079A059618C323C704,
   0x842FE329B3D63B52A05A6E1B1A2C8309, 0xCF584C4A39BECB6A5BB1FC20ED00D153,
   0xA89F3C507F02F94585334D43FBAAEFD0, 0xD2F3FF1021DAB6BCF5389D928F40A351,
   0x73195D643D7EA7C41744975FEC130CCD, 0xDB0B5EDE14B8EE4688902A22DC4F8160,
   0x79E4959162ACD3C25C2406490A3A32E0, 0x08AE7A65EAF4566CA94ED58D6D37C8E7,
   0x8A8BBD4B1F74DDE8C6B4A61C2E2578BA, 0x9E1DC186B95735610EF6034866B53E70,
   0xDF2855CEE9871E9B948ED9691198F8E1, 0x16BB54B00F2D99416842E6BF0D89A18C]

def sbox (x : Nat) : Nat := aesRows.getD (x / 16) 0 >>> (8 * (x % 16)) % 256

/-- Multiply by x in the field of FIPS 197. -/
def xtime (a : Nat) : Nat := if a < 128 then 2 * a else (2 * a) ^^^ 0x11B

def xorL (a b : List Nat) : List Nat := List.zipWith (· ^^^ ·) a b

/-- The key schedule: 60 words of four bytes, from the last eight on. -/
def aesExpandGo : Nat → Nat → List (List Nat) → List (List Nat)
  | 0, _, ws => ws
  | fuel + 1, i, ws =>
    let prev := ws.getD (i - 1) []
    let t :=
      if i % 8 = 0 then
        xorL ((prev.drop 1 ++ prev.take 1).map sbox) [2 ^ (i / 8 - 1), 0, 0, 0]
      else if i % 8 = 4 then prev.map sbox
      else prev
    aesExpandGo fuel (i + 1) (ws ++ [xorL (ws.getD (i - 8) []) t])

def aesExpand (key : Bytes) : List (List Nat) :=
  aesExpandGo 52 8 (chunks 4 8 (key.map (·.toNat)))

def mixColumn (c : List Nat) : List Nat :=
  let a := c.getD 0 0
  let b := c.getD 1 0
  let d := c.getD 2 0
  let e := c.getD 3 0
  [xtime a ^^^ xtime b ^^^ b ^^^ d ^^^ e, a ^^^ xtime b ^^^ xtime d ^^^ d ^^^ e,
   a ^^^ b ^^^ xtime d ^^^ xtime e ^^^ e, xtime a ^^^ a ^^^ b ^^^ d ^^^ xtime e]

def shiftRows (s : List Nat) : List Nat := (List.range 16).map fun i => s.getD ((i + 4 * (i % 4)) % 16) 0

def roundKey (ws : List (List Nat)) (r : Nat) : List Nat := (ws.drop (4 * r)).take 4 |>.flatten

/-- One block of AES-256 with an expanded key. -/
def aesBlock (ws : List (List Nat)) (block : Bytes) : Bytes :=
  let s0 := xorL (block.map (·.toNat)) (roundKey ws 0)
  let s13 := (List.range 13).foldl (fun s r =>
    xorL ((chunks 4 4 (shiftRows (s.map sbox))).flatMap mixColumn) (roundKey ws (r + 1))) s0
  (xorL (shiftRows (s13.map sbox)) (roundKey ws 14)).map (BitVec.ofNat 8)

def aesInvRows : List Nat :=
  [
   0xFBD7F3819EA340BF38A53630D56A0952, 0xCBE9DEC444438E3487FF2F9B8239E37C,
   0x4EC3FA420B954CEE3D23C2A632947B54, 0x25D18B6D49A25B76B224D92866A12E08,
   0x92B6655DCC5CA4D41698688664F6F872, 0x849D8DA75746155EDAB9EDFD5048706C,
   0x0645B3B80558E4F70AD3BC8C00ABD890, 0x6B8A130103BDAFC1020F3FCA8F1E2CD0,
   0x73E6B4F0CECFF297EADC674F4111913A, 0x6EDF751CE837F9E28535ADE72274AC96,
   0x1BBE18AA0E62B76F89C5291D711AF147, 0xF45ACD78FEC0DB9A2079D2C64B3E56FC,
   0x5FEC8027591012B131C7078833A8DD1F, 0xEF9CC9939F7AE52D0D4AB519A97F5160,
   0x619953833CBBEBC8B0F52AAE4D3BE0A0, 0x7D0C2155631469E126D677BA7E042B17]

def invSbox (x : Nat) : Nat := aesInvRows.getD (x / 16) 0 >>> (8 * (x % 16)) % 256

/-- Multiply two bytes in the field of FIPS 197, by small constants. -/
def gmul (k a : Nat) : Nat :=
  (if k.testBit 0 then a else 0) ^^^ (if k.testBit 1 then xtime a else 0) ^^^ (if k.testBit 2 then xtime (xtime a) else 0)
    ^^^ (if k.testBit 3 then xtime (xtime (xtime a)) else 0)

def invMixColumn (c : List Nat) : List Nat :=
  (List.range 4).map fun i =>
    gmul 14 (c.getD i 0) ^^^ gmul 11 (c.getD ((i + 1) % 4) 0) ^^^ gmul 13 (c.getD ((i + 2) % 4) 0)
      ^^^ gmul 9 (c.getD ((i + 3) % 4) 0)

def invShiftRows (s : List Nat) : List Nat := (List.range 16).map fun i => s.getD ((i + 16 - 4 * (i % 4)) % 16) 0

/-- The inverse cipher of one block. -/
def aesInvBlock (ws : List (List Nat)) (block : Bytes) : Bytes :=
  let s0 := xorL (block.map (·.toNat)) (roundKey ws 14)
  let s13 := (List.range 13).foldl (fun s r =>
    (chunks 4 4 (xorL ((invShiftRows s).map invSbox) (roundKey ws (13 - r)))).flatMap invMixColumn) s0
  (xorL ((invShiftRows s13).map invSbox) (roundKey ws 0)).map (BitVec.ofNat 8)

/-- Encrypt or decrypt with a key stream: block i of the stream is the cipher of the i-th counter block. -/
def aesStream (key : Bytes) (counter : Nat → Bytes) (data : Bytes) : Bytes :=
  let ws := aesExpand key
  xorBytes data ((List.range ((data.length + 15) / 16)).flatMap fun i => aesBlock ws (counter i))

/-- Multiplication in the field of GCM (SP 800-38D), most significant bit first. -/
def gcmMulGo : Nat → Nat → Nat → Nat → Nat
  | 0, _, _, z => z
  | k + 1, x, v, z =>
    gcmMulGo k x (if v % 2 = 1 then (v / 2) ^^^ (0xE1 <<< 120) else v / 2) (if x.testBit k then z ^^^ v else z)

def gcmMul (x y : Nat) : Nat := gcmMulGo 128 x y 0

def padTo16 (b : Bytes) : Bytes := b ++ zeros ((16 - b.length % 16) % 16)

def ghash (h : Nat) (data : Bytes) : Nat :=
  (chunks 16 (data.length / 16 + 1) data).foldl (fun y b => gcmMul (y ^^^ beNat b) h) 0

/-- The GCM tag over additional data and ciphertext, with a 96-bit nonce. -/
def gcmTag (key nonce aad ct : Bytes) : Bytes :=
  let ws := aesExpand key
  let h := beNat (aesBlock ws (zeros 16))
  let g := ghash h (padTo16 aad ++ padTo16 ct ++ beBytes 8 (8 * aad.length) ++ beBytes 8 (8 * ct.length))
  xorBytes (beBytes 16 g) (aesBlock ws (nonce ++ [0, 0, 0, 1]))

/-- The GCM key stream applied to data. -/
def gcmCrypt (key nonce data : Bytes) : Bytes := aesStream key (fun i => nonce ++ beBytes 4 (i + 2)) data

/-- Encrypt: ciphertext and tag. -/
def gcmSeal (key nonce aad pt : Bytes) : Bytes × Bytes :=
  let ct := gcmCrypt key nonce pt
  (ct, gcmTag key nonce aad ct)

/-- Decrypt where the tag verifies. -/
def gcmOpen (key nonce aad ct tag : Bytes) : Option Bytes :=
  if gcmTag key nonce aad ct = tag then some (gcmCrypt key nonce ct) else none

/-- Multiply an XTS tweak by x (IEEE 1619). -/
def xtsDouble (t : Nat) : Nat := if t < 2 ^ 127 then 2 * t else (2 * t) % 2 ^ 128 ^^^ 0x87

/-- XTS encryption of whole blocks: the data key, the tweak key, and the 16-byte tweak value. -/
def xtsGo (ws : List (List Nat)) : Nat → List Bytes → Bytes
  | _, [] => []
  | t, b :: bs =>
    xorBytes (aesBlock ws (xorBytes b (leBytes 16 t))) (leBytes 16 t) ++ xtsGo ws (xtsDouble t) bs

def xtsInvGo (ws : List (List Nat)) : Nat → List Bytes → Bytes
  | _, [] => []
  | t, b :: bs =>
    xorBytes (aesInvBlock ws (xorBytes b (leBytes 16 t))) (leBytes 16 t) ++ xtsInvGo ws (xtsDouble t) bs

def xtsDecrypt (dataKey tweakKey tweak data : Bytes) : Bytes :=
  xtsInvGo (aesExpand dataKey) (leNat (aesBlock (aesExpand tweakKey) tweak)) (chunks 16 (data.length / 16 + 1) data)

def xtsEncrypt (dataKey tweakKey tweak data : Bytes) : Bytes :=
  xtsGo (aesExpand dataKey) (leNat (aesBlock (aesExpand tweakKey) tweak)) (chunks 16 (data.length / 16 + 1) data)

/-! ### The field and curve of Ed448 and X448 -/

def p448 : Nat := 2 ^ 448 - 2 ^ 224 - 1
def order448 : Nat := 2 ^ 446 - 13818066809895115352007386748515426880336692474882178609894547503885
/-- d of Edwards448 is −39,081. -/
def d448 : Nat := p448 - 39081

/-- b ^ e mod m over the low n bits of e, from the top. -/
def powMod (m b e : Nat) : Nat → Nat
  | 0 => 1 % m
  | n + 1 => 
    let r := powMod m b (e / 2) n
    if e % 2 = 1 then r * r % m * b % m else r * r % m

def inv448 (a : Nat) : Nat := powMod p448 a (p448 - 2) 448

/-- A point of Edwards448 in projective coordinates. -/
structure EdPoint where
  x : Nat
  y : Nat
  z : Nat
  deriving DecidableEq, Repr

def edZero : EdPoint := { x := 0, y := 1, z := 1 }
def edBase : EdPoint where
  x := 224580040295924300187604334099896036246789641632564134246125461686950415467406032909029192869357953282578032075146446173674602635247710
  y := 298819210078481492676017930443930673437544040154080242095928241372331506189835876003536878655418784733982303233503462500531545062832660
  z := 1

def subMod (a b : Nat) : Nat := (a + (p448 - b % p448)) % p448

/-- Point addition (RFC 8032, 5.2.4). -/
def edAdd (p q : EdPoint) : EdPoint :=
  let a := p.z * q.z % p448
  let b := a * a % p448
  let c := p.x * q.x % p448
  let d := p.y * q.y % p448
  let e := d448 * c % p448 * d % p448
  let f := subMod b e
  let g := (b + e) % p448
  let h := (p.x + p.y) * (q.x + q.y) % p448
  { x := a * f % p448 * subMod (subMod h c) d % p448
    y := a * g % p448 * subMod d c % p448
    z := f * g % p448 }

/-- k times a point over the low n bits of k. -/
def edMul (k : Nat) (p : EdPoint) : Nat → EdPoint
  | 0 => edZero
  | n + 1 =>
    let r := edMul (k / 2) p n
    let d := edAdd r r
    if k % 2 = 1 then edAdd d p else d

def edEncode (p : EdPoint) : Bytes :=
  let i := inv448 p.z
  let x := p.x * i % p448
  let y := p.y * i % p448
  leBytes 57 (y + (x % 2) * 2 ^ 455)

/-- Decode 57 bytes to a point of the curve (RFC 8032, 5.2.3). -/
def edDecode (b : Bytes) : Option EdPoint :=
  let v := leNat b
  let sign := v >>> 455 % 2
  let y := v % 2 ^ 455
  if b.length ≠ 57 ∨ p448 ≤ y then none
  else
    let u := subMod (y * y) 1
    let w := subMod (d448 * (y * y % p448)) 1
    let u3 := u * u % p448 * u % p448
    let u5 := u3 * u % p448 * u % p448
    let w3 := w * w % p448 * w % p448
    let x := u3 * w % p448 * powMod p448 (u5 * w3 % p448) ((p448 - 3) / 4) 448 % p448
    if w * (x * x % p448) % p448 ≠ u % p448 then none
    else if x = 0 ∧ sign = 1 then none
    else some { x := if x % 2 = sign then x else p448 - x, y := y, z := 1 }

def edEq (p q : EdPoint) : Bool :=
  p.x * q.z % p448 == q.x * p.z % p448 && p.y * q.z % p448 == q.y * p.z % p448

/-- The prefix dom4 for pure Ed448 with a context. -/
def dom4 (context : Bytes) : Bytes :=
  ascii "SigEd448" ++ [0, BitVec.ofNat 8 context.length] ++ context

/-- The secret scalar and prefix of a private key. -/
def edSecret (priv : Bytes) : Nat × Bytes :=
  let h := shake 114 priv
  (leNat (h.take 57) % 2 ^ 447 / 4 * 4 ||| 2 ^ 447, h.drop 57)

def edPublic (priv : Bytes) : Bytes := edEncode (edMul (edSecret priv).1 edBase 448)

/-- Sign a message under a context string. -/
def edSign (priv : Bytes) (context : String) (m : Bytes) : Bytes :=
  let s := edSecret priv
  let dom := dom4 (ascii context)
  let r := leNat (shake 114 (dom ++ s.2 ++ m)) % order448
  let rb := edEncode (edMul r edBase 448)
  let k := leNat (shake 114 (dom ++ rb ++ edPublic priv ++ m)) % order448
  rb ++ leBytes 57 ((r + k * s.1) % order448)

/-- Verify a 114-byte signature under a public key and context string. -/
def edVerify (pub : Bytes) (context : String) (m sig : Bytes) : Bool :=
  let rb := sig.take 57
  let sc := leNat (sig.drop 57)
  match edDecode pub, edDecode rb with
  | some a, some r =>
    let k := leNat (shake 114 (dom4 (ascii context) ++ rb ++ pub ++ m)) % order448
    sig.length == 114 && sc < order448
      && edEq (edMul (4 * sc) edBase 450) (edAdd (edMul 4 r 3) (edMul (4 * k) a 450))
  | _, _ => false

/-- The Montgomery ladder of X448 from bit n − 1 down: (x2, z2, x3, z3, swapped). -/
def x448Go (k u : Nat) : Nat → Nat × Nat × Nat × Nat × Bool → Nat × Nat
  | 0, (x2, z2, x3, z3, sw) => if sw then (x3, z3) else (x2, z2)
  | n + 1, (x2, z2, x3, z3, sw) =>
    let bit := k.testBit n
    let c := if bit = sw then (x2, z2, x3, z3) else (x3, z3, x2, z2)
    let a := (c.1 + c.2.1) % p448
    let b := subMod c.1 c.2.1
    let aa := a * a % p448
    let bb := b * b % p448
    let e := subMod aa bb
    let da := subMod c.2.2.1 c.2.2.2 * a % p448
    let cb := (c.2.2.1 + c.2.2.2) * b % p448
    let s := (da + cb) % p448
    let d := subMod da cb
    x448Go k u n (aa * bb % p448, e * (aa + 39081 * e) % p448, s * s % p448, u * (d * d % p448) % p448, bit)

/-- X448 (RFC 7748) of a 56-byte private key and u-coordinate. -/
def x448 (priv pub : Bytes) : Bytes :=
  let k := leNat priv % 2 ^ 448 / 4 * 4 ||| 2 ^ 447
  let u := leNat pub % p448
  let r := x448Go k u 448 (1, 0, u, 1, false)
  leBytes 56 (r.1 * inv448 r.2 % p448)

def x448Public (priv : Bytes) : Bytes := x448 priv (leBytes 56 5)

/-! ### CRCs -/

/-- A reflected 32-bit CRC, bit by bit. -/
def crcStep (poly : Nat) : Nat → Nat → Nat
  | 0, c => c
  | n + 1, c => crcStep poly n (if c % 2 = 1 then (c / 2) ^^^ poly else c / 2)

def crc32With (poly : Nat) (data : Bytes) : Nat :=
  data.foldl (fun c b => crcStep poly 8 (c ^^^ b.toNat)) 0xFFFFFFFF ^^^ 0xFFFFFFFF

/-- The CRC-32 of IEEE 802.3 and CRC-32C. -/
def crc32 (data : Bytes) : Nat := crc32With 0xEDB88320 data
def crc32c (data : Bytes) : Nat := crc32With 0x82F63B78 data

def crc8Step : Nat → Nat → Nat
  | 0, c => c
  | n + 1, c => crc8Step n (if c < 128 then 2 * c else (2 * c) % 256 ^^^ 0x07)

/-- CRC-8, polynomial 0x07, initial value 0 (R39). -/
def crc8 (data : Bytes) : Nat := data.foldl (fun c b => crc8Step 8 (c ^^^ b.toNat)) 0

end Sys2Proof.Machine
end

