-- ==== Sys2Proof/Machine/Bricks.lean ====
section
/-!
DEFINITION. Bricks, sites and bays as places (R18, R26, R71–R79, R236), and a brick's own memories: column, hopper,
their error record
(R260–R266), and the statistics latch (R53, R440).
-/
namespace Sys2Proof.Machine

/-! ### Places (R26, R77, R78) -/

def brickDie (n : Nat) : Nat := n / 1024
def brickRow (n : Nat) : Nat := n % 1024 / 32
def brickCol (n : Nat) : Nat := n % 32
def brickId (die row col : Nat) : Nat := die * 1024 + row * 32 + col

/-- A brick's row and column over the 2 × 2 dies (R16), and the brick at such a place. -/
def globalRow (n : Nat) : Nat := 32 * (brickDie n / 2) + brickRow n
def globalCol (n : Nat) : Nat := 32 * (brickDie n % 2) + brickCol n
def brickAt (r c : Nat) : Nat := brickId (2 * (r / 32) + c / 32) (r % 32) (c % 32)

/-- The bricks of a rectangle, row by row. -/
def rectBricks (r : Rect) : List Nat :=
  (List.range r.rows).flatMap fun i => (List.range r.cols).map fun j => brickId r.die (r.row + i) (r.col + j)

/-- The bricks of a bay in rank order (R78). -/
def planBricks (p : BayPlan) : List Nat := p.rects.flatMap rectBricks

def inRect (n : Nat) (r : Rect) : Bool :=
  brickDie n == r.die && r.row ≤ brickRow n && brickRow n < r.row + r.rows && r.col ≤ brickCol n
    && brickCol n < r.col + r.cols

def inPlan (n : Nat) (p : BayPlan) : Bool := p.rects.any (inRect n)

/-- The shape of a bay (R78). -/
def shapeOf (p : BayPlan) : List (Nat × Nat) := p.rects.map fun r => (r.rows, r.cols)

/-- Two rectangles share a brick. -/
def rectsOverlap (a b : Rect) : Bool :=
  a.die == b.die && a.row < b.row + b.rows && b.row < a.row + a.rows && a.col < b.col + b.cols
    && b.col < a.col + a.cols

namespace State

def bricksOf (s : State) (b : Nat) : List Nat := planBricks (s.bay b).plan
def brickCount (s : State) (b : Nat) : Nat := ((s.bay b).plan.rects.map fun r => r.rows * r.cols).sum
/-- The anchor, the brick of rank 0 (R78); 0 for a bay without bricks. -/
def anchor (s : State) (b : Nat) : Nat := (s.bricksOf b).headD 0
def rankOf (s : State) (b n : Nat) : Option Nat := (s.bricksOf b).findIdx? (· == n)

/-! ### Sites (R71–R75) -/

def colIndex (die col : Nat) : Nat := die * 32 + col
def siteIndex (die row col : Nat) : Nat := (die * 33 + row) * 32 + col

/-- fault_row of a column, 0x3F where it has no entry. -/
def faultRow (s : State) (die col : Nat) : Nat := aget 0x3F s.dies.faultRow (colIndex die col)

/-- The site row of an active position (R71). -/
def siteRow (s : State) (die row col : Nat) : Nat :=
  let f := s.faultRow die col
  if f = 0x3F ∨ row < f then row else row + 1

/-- The active row a site serves, if any. -/
def rowOfSite (s : State) (die row col : Nat) : Option Nat :=
  let f := s.faultRow die col
  if row = f then none
  else if f = 0x3F ∨ row < f then (if row < 32 then some row else none)
  else some (row - 1)

def siteFaulty (s : State) (die row col : Nat) : Bool :=
  aget false s.dies.faulty (siteIndex die row col) || aget false s.dies.failed (siteIndex die row col)

/-- An active position is vacant if its site is faulty or has failed (R74). -/
def vacant (s : State) (n : Nat) : Bool :=
  s.siteFaulty (brickDie n) (s.siteRow (brickDie n) (brickRow n) (brickCol n)) (brickCol n)

/-- The bay whose plan holds a position. -/
def planOf (s : State) (n : Nat) : Option Nat := (List.range 64).find? fun b => inPlan n (s.bay b).plan

/-- The bay that holds a brick; a vacant position belongs to none (R74). -/
def bayOf (s : State) (n : Nat) : Option Nat := if s.vacant n then none else s.planOf n

/-- A bay whose plan names a vacant position (R74). -/
def namesVacant (s : State) (b : Nat) : Bool := (s.bricksOf b).any s.vacant

/-- The bricks a bay has (R97). -/
def livePositions (s : State) (b : Nat) : Nat := ((s.bricksOf b).filter fun n => !s.vacant n).length

/-- The site statistics block of a brick's site (R98). -/
def siteOf (s : State) (n : Nat) : Nat := s.siteRow (brickDie n) (brickRow n) (brickCol n)

/-- Count the cycles up to one that the bricks of a load in progress have spent LOADING (R98). -/
def countLoading (s : State) (b cycle : Nat) : State :=
  let v := s.bay b
  if v.loading.isNone then s
  else
    let t := ((s.bricksOf b).filter fun n => !v.loadedBy.contains n).foldl (fun (t : State) n =>
      t.count (siteLoadCycles (brickDie n) (t.siteOf n) (brickCol n)) (cycle - v.loadCycle)) s
    t.setBay b { t.bay b with loadCycle := max v.loadCycle cycle }

/-! ### The error record (R260–R266) -/

/-- Record the most recent uncorrectable error (R266): source 0 Clay, 1 hopper, 2 Loam, 3 Marl. -/
def recordErr (s : State) (source place : Nat) (patrol : Bool) (addr : Nat) (obj : Option Nat) : State :=
  { s with tier := { s.tier with
      errInfo := BitVec.ofNat 32 (fieldAt 0 2 source + fieldAt 2 12 place + fieldAt 14 1 (bit01 patrol)
        + fieldAt 15 1 (bit01 obj.isSome) + fieldAt 16 1 1)
      errAddr := BitVec.ofNat 64 addr
      errObj := BitVec.ofNat 32 (obj.getD 0) } }

/-- The second uncorrectable error in a granule retires it; more than 4,096 retired degrade the device (R263). -/
def noteGranule (s : State) (n granule : Nat) : State :=
  let k := n * 4096 + granule
  let e := aget 0 s.tier.granErrs k + 1
  let t := { s with tier := { s.tier with
      granErrs := aput 0 s.tier.granErrs k e
      retired := if 2 ≤ e then aput false s.tier.retired k true else s.tier.retired } }
  if 4096 < t.tier.retired.length ∧ ¬ t.rel.degraded.getLsbD 7 then t.degrade 7 (dieOf n) sOk n else t

/-! ### Latches (R53, R440) -/

/-- Add one period's snapshots to the running turn aggregate: saturating, flag words by OR (R440). -/
def addAgg (agg snap : Assoc Word) : Assoc Word :=
  snap.foldl (fun m c =>
    let old := aget 0 m c.1
    aput 0 m c.1 (if 0x3000 ≤ c.1 ∧ c.1 < 0x3100 then old ||| c.2
      else BitVec.ofNat 32 (min (old.toNat + c.2.toNat) 0xFFFFFFFF))) agg

/-- The latch ends a turn aggregate: a turn boundary, or with turn_enable 0 a census tick with bits [27:0] 0
(R440). -/
def aggEnds (s : State) (turn census : Bool) : Bool :=
  if s.footing.turn.enable then turn else census && s.tb.tick % 2 ^ 28 == 0

/-- The cycles bays have spent in FENCED up to this one, added to their counters before a latch (R97). -/
def countFenced (s : State) : State :=
  (List.range 64).foldl (fun t b =>
    let v := t.bay b
    if v.state = .fenced then
      (t.setBay b { v with waitFrom := t.tb.cycle }).count (baySwapWait b) (t.tb.cycle - v.waitFrom)
    else t) s

/-- The cycles shadow loaders have been busy up to this one, added before a latch (R98). -/
def countLoads (s : State) : State := (List.range 64).foldl (fun t b => t.countLoading b t.tb.cycle) s

/-- A statistics latch: every snapshot takes its live counter and every live counter restarts from 0; none occurs
in the fatal state (R474). -/
def latch (s0 : State) (turn census : Bool) : State :=
  if s0.rel.fatal then s0
  else
    let s := s0.countFenced.countLoads
    { s with
      snap := s.live
      live := []
      rel := { s.rel with firstSeen := [] }
      mgmt := { s.mgmt with
        aggRun := if s.aggEnds turn census then [] else addAgg s.mgmt.aggRun s.live
        aggDone := if s.aggEnds turn census then addAgg s.mgmt.aggRun s.live else s.mgmt.aggDone
        tlsFails := [] }
      serving := { s.serving with
        port0 := { s.serving.port0 with hellos := [] }
        port1 := { s.serving.port1 with hellos := [] }
        sessions := s.serving.sessions.map fun x => { x with tagFails := 0 } }
      tb := { s.tb with latchTick := s.tb.tick, latchSeq := s.tb.latchSeq + 1, latchTurn := turn,
                        latchCensus := census, lastLatch := some s.tb.tick } }

end State

/-! ### A brick's column and hopper (R61, R236) -/

/-- The column unit of an offset in units from the working base (R236). -/
def columnUnit (base o : Nat) : Nat := (16 * base + o) % 65536

/-- n bytes of a column from a unit on, wrapping at the column's end. -/
def readUnits (m : Memory) (unit n : Nat) : Bytes :=
  (List.range n).map fun i => aget 0 m ((unit * 256 + i) % 16777216)

/-- Write bytes to a column from a byte on, wrapping at the column's end. -/
def putBytes (m : Memory) (at_ : Nat) (bs : Bytes) : Memory :=
  let room := 16777216 - at_
  if bs.length ≤ room then awrite 0 m at_ bs
  else awrite 0 (awrite 0 m at_ (bs.take room)) 0 (bs.drop room)

/-- Write bytes to a column from a unit on. -/
def writeUnits (m : Memory) (unit : Nat) (bs : Bytes) : Memory := putBytes m (unit * 256) bs

end Sys2Proof.Machine
end

