-- ==== Sys2Proof/Machine/Objects.lean ====
section
/-!
DEFINITION. Tier objects (10_memory_tiers.md): tile sizes, placements in Clay (R237, R238), the guard of validated
objects (R239), sectors of Loam and Marl with their encryption (R241, R258), the Sieve format (R243–R247), and
reading an object's bytes from its residence (R235).
-/
namespace Sys2Proof.Machine

/-- Bytes of a tile (R234): by format code, or 4 KiB of a byte object. -/
def tileSize (bytesKind : Bool) (fmt : Nat) : Nat :=
  if bytesKind then 4096
  else if fmt = 0 then 8192
  else if fmt = 1 then 4096
  else if fmt = 2 ∨ fmt = 3 then 2048
  else if fmt = 7 then 512
  else 1024

/-- The element width of the Sieve format (R234). -/
def elemWidth (bytesKind : Bool) (fmt : Nat) : Nat :=
  if bytesKind then 1 else if fmt = 0 then 8 else if fmt = 1 then 4 else if fmt = 2 ∨ fmt = 3 then 2 else 1

/-! ### The Sieve tile format (R243–R247) -/

/-- Append an n-bit field, least significant bit first, to a bit stream held as (bits, value). -/
def emitBits (st : Nat × Nat) (n v : Nat) : Nat × Nat := (st.1 + n, st.2 + (v % 2 ^ n) <<< st.1)

/-- The least span of a block and its base (R245): a tie goes to the lower value. -/
def spanOf (v : List Nat) (c : Nat) : Nat := (v.map fun x => (x + 256 - c) % 256).foldl max 0

def baseOf (v : List Nat) : Nat × Nat :=
  v.foldl (fun best c =>
    let sp := spanOf v c
    if sp < best.2 ∨ (sp = best.2 ∧ c < best.1) then (c, sp) else best) (v.headD 0, spanOf v (v.headD 0))

def bitLength (r : Nat) : Nat := if r = 0 then 0 else Nat.log2 r + 1

/-- One block of 32 bytes of a plane. -/
def packBlock (st : Nat × Nat) (v : List Nat) : Nat × Nat :=
  let b := baseOf v
  let k := bitLength b.2
  let base := if k = 8 then 0 else b.1
  v.foldl (fun x e => emitBits x k ((e + 256 - base) % 256)) (emitBits (emitBits st 4 k) 8 base)

/-- The blocks of a tile, plane by plane. -/
def packBlocks (w : Nat) (tile : List Nat) : List (List Nat) :=
  (List.range w).flatMap fun p =>
    chunks 32 (tile.length / w / 32) ((List.range (tile.length / w)).map fun e => tile.getD (e * w + p) 0)

/-- The PACKED payload (R245). -/
def packPayload (w : Nat) (tile : Bytes) : Bytes :=
  let st := (packBlocks w (tile.map (·.toNat))).foldl packBlock (0, 0)
  leBytes ((st.1 + 7) / 8) st.2

/-- Sectors of a payload (R246). -/
def sectorsFor (payload : Nat) : Nat := (16 + payload + 63) / 64

/-- Compress a tile (R243–R246): its sectors' bytes. -/
def sieveEncode (bytesKind : Bool) (fmt obj : Nat) (tile : Bytes) : Bytes :=
  let fc := if bytesKind then 0xF else fmt
  let packed := packPayload (elemWidth bytesKind fmt) tile
  let zero := tile.all (· == 0)
  let raw := sectorsFor tile.length ≤ sectorsFor packed.length
  let mode := if zero then 1 else if raw then 0 else 2
  let payload := if zero then [] else if raw then tile else packed
  let n := sectorsFor payload.length
  let front := leBytes 1 (mode + 16 * fc) ++ [0] ++ leBytes 2 n ++ leBytes 2 payload.length ++ [0, 0]
    ++ leBytes 4 (crc32c tile) ++ leBytes 4 obj ++ payload
  front ++ zeros (n * 64 - front.length)

/-- Unpack one block at bit position pos: the values and the next position, none where k or base breaks R247. -/
def unpackBlock (v pos : Nat) : Option (List Nat × Nat) :=
  let k := nbits v pos 4
  let base := nbits v (pos + 4) 8
  if 8 < k ∨ (k = 8 ∧ base ≠ 0) then none
  else some ((List.range 32).map (fun e => (nbits v (pos + 12 + e * k) k + base) % 256), pos + 12 + 32 * k)

/-- Unpack n blocks. -/
def unpackBlocks (v : Nat) : Nat → Nat → Option (List (List Nat) × Nat)
  | 0, pos => some ([], pos)
  | n + 1, pos =>
    (unpackBlock v pos).bind fun r => (unpackBlocks v n r.2).map fun q => (r.1 :: q.1, q.2)

/-- Decompress a PACKED payload of a tile of size z: none where R247 refuses it. -/
def unpackPayload (w z : Nat) (payload : Bytes) : Option Bytes :=
  let v := leNat payload
  (unpackBlocks v (z / 32) 0).bind fun r =>
    if payload.length ≠ (r.2 + 7) / 8 ∨ v >>> r.2 ≠ 0 then none
    else
      let planes := r.1.flatten
      some ((List.range z).map fun i => BitVec.ofNat 8 (planes.getD (i % w * (z / w) + i / w) 0))

/-- Decompress a tile (R247): none where it is uncorrectable. -/
def sieveDecode (bytesKind : Bool) (fmt obj : Nat) (count : Nat) (b : Bytes) : Option Bytes :=
  let z := tileSize bytesKind fmt
  let mode := fieldLE b 0 1 % 16
  let fc := fieldLE b 0 1 / 16
  let pn := fieldLE b 4 2
  let payload := slice b 16 pn
  let tile := if mode = 0 then (if pn = z then some payload else none)
    else if mode = 1 then (if pn = 0 then some (zeros z) else none)
    else if mode = 2 then unpackPayload (elemWidth bytesKind fmt) z payload
    else none
  if fc ≠ (if bytesKind then 0xF else fmt) ∨ !allZero' (slice b 1 1) ∨ !allZero' (slice b 6 2)
      ∨ fieldLE b 12 4 ≠ obj ∨ fieldLE b 2 2 ≠ count ∨ count ≠ sectorsFor pn ∨ b.length ≠ count * 64
      ∨ !allZero' (b.drop (16 + pn)) then none
  else tile.filter fun t => crc32c t == fieldLE b 8 4
where
  allZero' (x : Bytes) : Bool := x.all (· == 0)

/-! ### Sectors of the units (R241, R258) -/

/-- Byte address of a sector of a unit in the model's store. -/
def sectorAddr (unit sector : Nat) : Nat := (unit * 2 ^ 40 + sector) * 64

/-- The tweak of a sector (R258). -/
def sectorTweak (unit sector : Nat) : Bytes := leBytes 16 (unit * 2 ^ 40 + sector)

namespace State

/-- The unit's key where sectors are encrypted: confidential mode (R258). -/
def unitKey (s : State) (u : Nat) : Option Bytes :=
  if s.footing.confidential then some (aget [] s.cs.unitKeys u) else none

/-- Store sectors of a unit. -/
def writeSectors (s : State) (u first : Nat) (data : Bytes) : State :=
  let bytes := match s.unitKey u with
    | none => data
    | some k => ((List.range (data.length / 64)).flatMap fun i =>
        xtsEncrypt (k.take 32) (k.drop 32) (sectorTweak u (first + i)) (slice data (i * 64) 64))
  { s with sectors := awrite 0 s.sectors (sectorAddr u first) bytes }

/-- Read n sectors of a unit. -/
def readSectors (s : State) (u first n : Nat) : Bytes :=
  let raw := aread 0 s.sectors (sectorAddr u first) (n * 64)
  match s.unitKey u with
  | none => raw
  | some k => (List.range n).flatMap fun i =>
      xtsDecrypt (k.take 32) (k.drop 32) (sectorTweak u (first + i)) (slice raw (i * 64) 64)

/-! ### Placements (R237, R238) -/

end State

/-- Header geometry of a bond image (R100): section map, section count and offsets. -/
structure BondGeom where
  bricks : Nat
  sections : Nat
  fences : Nat
  deriving DecidableEq, Repr

def ceil64 (x : Nat) : Nat := (x + 63) / 64 * 64
def ceil256 (x : Nat) : Nat := (x + 255) / 256 * 256
def BondGeom.digestOffset (g : BondGeom) : Nat := 256 + ceil64 (2 * g.bricks)
def BondGeom.fenceOffset (g : BondGeom) : Nat := g.digestOffset + 32 * g.sections
def BondGeom.sectionsOffset (g : BondGeom) : Nat := ceil256 (g.fenceOffset + 8 * g.fences)
def BondGeom.signatureOffset (g : BondGeom) : Nat := g.sectionsOffset + 8192 * g.sections
def BondGeom.imageSize (g : BondGeom) : Nat := g.signatureOffset + 128
/-- Granules of rank 0 that hold the bytes outside the sections (R238). -/
def BondGeom.headGranules (g : BondGeom) : Nat := (g.sectionsOffset + 128 + 4095) / 4096

/-- The geometry a header names. -/
def bondGeom (h : Bytes) : BondGeom := { bricks := fieldLE h 26 2, sections := fieldLE h 28 2, fences := fieldLE h 30 2 }

/-- Section of a rank, from the bytes of the section map (R102). -/
def mapEntry (image : Bytes) (rank : Nat) : Nat := fieldLE image (256 + 2 * rank) 2

/-- Tiles per rank at most, and granules each rank receives (R237). -/
def perRank (count ranks : Nat) : Nat := (count + ranks - 1) / ranks
def perGranules (count ranks z : Nat) : Nat := (perRank count ranks * z + 4095) / 4096

/-- The brick and column unit of tile k of a blocked or striped placement (R237). -/
def tilePlace (p : Placement) (count z k : Nat) : Nat × Nat :=
  let per := perRank count p.ranks
  let r := if p.order = 0 then k / per else k % p.ranks
  let j := if p.order = 0 then k % per else k / p.ranks
  (p.bricks.getD r 0, columnUnit p.base (16 * p.offset + j * z / 256))

/-- A placement takes a granule of a brick's column. -/
def takesGranule (p : Placement) (n granule : Nat) : Bool :=
  let d := (granule + 8192 - (p.base + p.offset) % 4096) % 4096
  if p.order = 2 then
    let h := p.granules - 2 * p.ranks
    (p.bricks.contains n && h ≤ d && d < h + 2) || (p.bricks.headD 0 == n && d < h)
  else p.bricks.contains n && d < p.granules / p.ranks

/-- The granules a placement takes, as (brick, granule). -/
def placeGranules (p : Placement) : List (Nat × Nat) :=
  let at_ (i : Nat) : Nat := (p.base + p.offset + i) % 4096
  if p.order = 2 then
    let h := p.granules - 2 * p.ranks
    (List.range h).map (fun i => (p.bricks.headD 0, at_ i)) ++ p.bricks.flatMap fun b => [(b, at_ h), (b, at_ (h + 1))]
  else p.bricks.flatMap fun b => (List.range (p.granules / p.ranks)).map fun i => (b, at_ i)

namespace State

/-- Every placement in force or being filled. -/
def placements (s : State) : List Placement :=
  (s.objs.filterMap fun c => c.2.bind (·.place)) ++ s.tier.cmds.filterMap (·.place)

/-- Every granule a placement takes is free and not retired (R240). -/
def placeFree (s : State) (p : Placement) : Bool :=
  let all := s.placements
  (placeGranules p).all fun g =>
    !(all.any fun q => takesGranule q g.1 g.2) && !(aget false s.tier.retired (g.1 * 4096 + g.2))

def readColumn (s : State) (n unit len : Nat) : Bytes := readUnits (s.brick n).clay unit len

/-! ### Reading an object (R235, R238) -/

/-- Byte j of the run of rank 0 of a bond-order placement lies at this unit. -/
def bondHeadUnit (p : Placement) (j : Nat) : Nat := columnUnit p.base (16 * p.offset + j / 256)

/-- Byte address in a column of a byte offset from granule g of a placement, wrapping at the column's end (R236). -/
def granuleByte (p : Placement) (g off : Nat) : Nat := ((p.base + p.offset + g) * 4096 + off) % 16777216

/-- A byte from granule g of a placement in the column of a rank. -/
def rankByte (s : State) (p : Placement) (rank g off : Nat) : Byte :=
  (aread 0 (s.brick (p.bricks.getD rank 0)).clay (granuleByte p g off) 1).headD 0

/-- n bytes at an image offset of a bond-order object; sections are read from the lowest rank that names them, and the
last tile's padding is zero (R233, R238). -/
def readBond (s : State) (p : Placement) (at_ n : Nat) : Bytes :=
  let run (len : Nat) : Bytes := (List.range len).map (s.rankByte p 0 0)
  let g := bondGeom (run 256)
  let map := run (256 + 2 * g.bricks)
  let h := g.headGranules
  (List.range n).map fun i =>
    let j := at_ + i
    if g.imageSize ≤ j then 0
    else if j < g.sectionsOffset then s.rankByte p 0 0 j
    else if g.signatureOffset ≤ j then s.rankByte p 0 0 (j - 8192 * g.sections)
    else
      let sec := (j - g.sectionsOffset) / 8192
      let off := (j - g.sectionsOffset) % 8192
      s.rankByte p (((List.range g.bricks).find? fun r => mapEntry map r == sec).getD 0) h off

/-- The section image of one rank of a bond-order placement (R238). -/
def readSection (s : State) (p : Placement) (rank : Nat) : Bytes :=
  let h := p.granules - 2 * p.ranks
  readUnits (s.brick (p.bricks.getD rank 0)).clay (columnUnit p.base (16 * (p.offset + h))) 8192

/-- Tile k of an object from its residence; none where it fails R247. -/
def readTile (s : State) (id : Nat) (o : Obj) (k : Nat) : Option Bytes :=
  let z := tileSize o.bytesKind o.fmt
  match o.residence, o.place with
  | .clay, some p =>
    if p.order = 2 then some (s.readBond p (k * 4096) 4096)
    else
      let w := tilePlace p o.tiles z k
      some (s.readColumn w.1 w.2 z)
  | .clay, none => none
  | _, _ =>
    let l := o.map.getD k { unit := 0, count := 0, first := 0 }
    sieveDecode o.bytesKind o.fmt id l.count (s.readSectors l.unit l.first l.count)

/-- The bytes of an object, n from an offset, padding and unreadable tiles as zero. -/
def objBytes (s : State) (id : Nat) (o : Obj) (at_ n : Nat) : Bytes :=
  match o.residence, o.place with
  | .clay, some p =>
    if p.order = 2 then s.readBond p at_ n
    else
      let z := tileSize o.bytesKind o.fmt
      slice (((List.range (n / z + 2)).flatMap fun i => (s.readTile id o (at_ / z + i)).getD (zeros z))) (at_ % z) n
  | _, _ =>
    let z := tileSize o.bytesKind o.fmt
    slice (((List.range (n / z + 2)).flatMap fun i =>
      if at_ / z + i < o.tiles then (s.readTile id o (at_ / z + i)).getD (zeros z) else zeros z)) (at_ % z) n

/-- All the bytes of a byte object. -/
def wholeObj (s : State) (id : Nat) (o : Obj) : Bytes := s.objBytes id o 0 o.size

/-! ### Where a tile lands (R237, R238) -/

/-- Where the 128 bytes of a bond image at an offset land: (brick, column byte). -/
def bondTargets (g : BondGeom) (map : Bytes) (p : Placement) (j : Nat) : List (Nat × Nat) :=
  if j < g.sectionsOffset then [(p.bricks.headD 0, granuleByte p 0 j)]
  else if j < g.signatureOffset then
    ((List.range g.bricks).filter fun r => mapEntry map r == (j - g.sectionsOffset) / 8192).map fun r =>
      (p.bricks.getD r 0, granuleByte p g.headGranules ((j - g.sectionsOffset) % 8192))
  else if j < g.imageSize then [(p.bricks.headD 0, granuleByte p 0 (j - 8192 * g.sections))]
  else []

/-- The pieces of tile k of an object under a placement: brick, column byte, offset in the tile, length. -/
def tileTargets (s : State) (id : Nat) (o : Obj) (p : Placement) (k : Nat) : List (Nat × Nat × Nat × Nat) :=
  let z := tileSize o.bytesKind o.fmt
  if p.order = 2 then
    let g := bondGeom (s.objBytes id o 0 256)
    let map := s.objBytes id o 0 (256 + 2 * g.bricks)
    (List.range 32).flatMap fun i => (bondTargets g map p (k * 4096 + i * 128)).map fun w => (w.1, w.2, i * 128, 128)
  else
    let w := tilePlace p o.tiles z k
    [(w.1, w.2 * 256, 0, z)]

/-- Write a tile's pieces into the columns. -/
def putTile (s : State) (tile : Bytes) (targets : List (Nat × Nat × Nat × Nat)) : State :=
  targets.foldl (fun t w =>
    let b := t.brick w.1
    t.setBrick w.1 { b with clay := putBytes b.clay w.2.1 (slice tile w.2.2.1 w.2.2.2) }) s

/-! ### Writes to a column and the guard (R239) -/

/-- The granules of a column that a write of units takes in. -/
def granulesOf (unit count : Nat) : List Nat :=
  (List.range ((unit % 16 + count + 15) / 16)).map fun i => (unit / 16 + i) % 4096

/-- An object holds one of the granules of a brick: by its residence, or by tiles a movement has put there. -/
def holdsGranule (s : State) (n : Nat) (gs : List Nat) (id : Nat) (o : Obj) : Bool :=
  (match o.place with
   | none => false
   | some p => gs.any (takesGranule p n)) ||
  s.tier.cmds.any fun c => c.obj == id && (match c.place with
    | none => false
    | some p => gs.any (takesGranule p n) && (List.range c.next).any fun k =>
        (s.tileTargets id o p k).any fun w => w.1 == n && gs.contains (w.2.1 / 4096))

/-- A write of units of a column clears the validated mark of an object there, and disturbs its validation
(R108, R239). -/
def touchObjects (s : State) (n unit count : Nat) : State :=
  let gs := granulesOf unit count
  { s with
    objs := s.objs.map fun c => match c.2 with
      | some o => if o.validated.isSome && s.holdsGranule n gs c.1 o then (c.1, some { o with validated := none }) else c
      | none => c
    validator := match s.validator.running.bind fun i => (s.obj i).map fun o => (i, o) with
      | some (i, o) => if s.holdsGranule n gs i o then { s.validator with disturbed := true } else s.validator
      | none => s.validator }

/-- A brick's function writes bytes to its column from a unit on. -/
def writeColumn (s : State) (n unit : Nat) (bs : Bytes) : State :=
  let t := s.touchObjects n unit ((bs.length + 255) / 256)
  let b := t.brick n
  t.setBrick n { b with clay := writeUnits b.clay unit bs }

/-! ### Allocation in units (R241) -/

/-- The in-service list of a tier, ascending. -/
def inService (s : State) (t : Tier) : List Nat :=
  let cand := match t with
    | .loam => List.range 20
    | .marl => [32, 33, 34, 35]
    | .clay => []
  cand.filter fun u => (s.unit u).state == .inService

/-- The runs of a unit in use: tile maps, tiles and the checkpoint region's share (R331), by first sector. -/
def usedRuns (s : State) (u : Nat) : List (Nat × Nat) :=
  let locs := (s.objs.flatMap fun c => match c.2 with
      | some o => o.map ++ o.mapLoc.toList
      | none => []) ++ s.tier.cmds.flatMap fun c => c.map ++ c.mapLoc.toList
  let share := if s.ckpt.shares.contains u then s.ckpt.kept.map fun i => (i * s.ckpt.slotSize, s.ckpt.slotSize) else []
  (share ++ (locs.filter fun l => l.unit == u).map fun l => (l.first, l.count)).mergeSort fun a b => a.1 ≤ b.1

/-- The lowest run of n free sectors among rising used runs, from a start on. -/
def firstGap (n cap : Nat) : Nat → List (Nat × Nat) → Option Nat
  | start, [] => if start + n ≤ cap then some start else none
  | start, r :: rs => if start + n ≤ r.1 then some start else firstGap n cap (max start (r.1 + r.2)) rs

/-- Place tile k of n sectors of an object with a given index in a list of units (R241); a unit of the list that has been
mapped out since has no room (log entry 124). -/
def allocate (s : State) (u : List Nat) (index k n : Nat) : Option TileLoc :=
  let h := index % u.length
  (List.range u.length).findSome? fun i =>
    let un := u.getD ((h + k + i) % u.length) 0
    if (s.unit un).state ≠ .inService then none
    else (firstGap n (s.unit un).capacity 0 (s.usedRuns un)).map fun f => { unit := un, count := n, first := f }

/-! ### Charges (R248, R249) -/

def ownerOf (id : Nat) : Nat := id / 2 ^ 26

def chargeClay (s : State) (b n : Nat) : State :=
  let v := s.bay b
  s.setBay b { v with clayUsed := v.clayUsed + n }

def releaseClay (s : State) (b n : Nat) : State :=
  let v := s.bay b
  s.setBay b { v with clayUsed := v.clayUsed - n }

def tierUsed (v : Bay) (t : Tier) : Nat := match t with
  | .clay => v.clayUsed
  | .loam => v.loamUsed
  | .marl => v.marlUsed

def tierQuota (v : Bay) (t : Tier) : Nat := match t with
  | .clay => v.plan.clayQuota
  | .loam => v.plan.loamQuota
  | .marl => v.plan.marlQuota

def chargeSectors (s : State) (t : Tier) (b n : Nat) : State :=
  let v := s.bay b
  match t with
  | .clay => s
  | .loam => s.setBay b { v with loamUsed := v.loamUsed + n }
  | .marl => s.setBay b { v with marlUsed := v.marlUsed + n }

def releaseSectors (s : State) (t : Tier) (b n : Nat) : State :=
  let v := s.bay b
  match t with
  | .clay => s
  | .loam => s.setBay b { v with loamUsed := v.loamUsed - n }
  | .marl => s.setBay b { v with marlUsed := v.marlUsed - n }

/-- A charge of sectors would exceed the bay's quota (R250). -/
def beyondQuota (s : State) (t : Tier) (b n : Nat) : Bool := tierQuota (s.bay b) t < tierUsed (s.bay b) t + n

/-- Add or release a device pin (R254). -/
def pinObj (s : State) (id : Nat) : State :=
  match s.obj id with
  | some o => s.setObj id (some { o with devPins := o.devPins + 1 })
  | none => s

def unpinObj (s : State) (id : Nat) : State :=
  match s.obj id with
  | some o => s.setObj id (some { o with devPins := o.devPins - 1 })
  | none => s

/-- The object may be read by LOAD, VALIDATE, OPEN_OUT and the weight-open commands: it exists and its CREATE has
completed (R235). -/
def readable (s : State) (id : Nat) : Option Obj := (s.obj id).filter fun o => !o.creating

end State
end Sys2Proof.Machine
end

