-- ==== Sys2Proof/Machine/Operands.lean ====
section
/-!
DEFINITION. The words of a configuration plane (R112–R119, R185–R197): their fields, and what a brick's running
program, epilogue chain, streams and layout entries read from them.
-/
namespace Sys2Proof.Machine

/-- A 32-bit word of a plane (R112). -/
def mword (m : Memory) (off : Nat) : Word := BitVec.ofNat 32 (leNat (aread 0 m off 4))

/-- A run of plane bytes is all zero. -/
def mzero (m : Memory) (off n : Nat) : Bool := (aread 0 m off n).all (· == 0)

/-- A field of an unsigned number as a flag. -/
def flagOf (w : Word) (lo : Nat) : Bool := bits w lo 1 == 1

/-! ### Mode and random words (R113, R115) -/

def modeWord (m : Memory) : Word := mword m 0
def functionOf (m : Memory) : Nat := bits (modeWord m) 0 4
def clearBank (m : Memory) (b : Bool) : Bool := flagOf (modeWord m) (if b then 5 else 4)
def firstBank (m : Memory) : Bool := flagOf (modeWord m) 6
def reductionOf (m : Memory) : Nat := bits (modeWord m) 7 2
def weightTranspose (m : Memory) : Bool := flagOf (modeWord m) 9
def weightTile (m : Memory) : Nat := bits (modeWord m) 10 2
def epilogueCount (m : Memory) : Nat := bits (modeWord m) 12 4
def roundingOf (m : Memory) : Nat := bits (modeWord m) 16 3
def traceOf (m : Memory) : Bool := flagOf (modeWord m) 19

def randomWord (m : Memory) : Word := mword m 4
def streamBase (m : Memory) : Nat := bits (randomWord m) 0 16
def streamCount (m : Memory) : Nat := bits (randomWord m) 16 8
def freeMode (m : Memory) : Bool := flagOf (randomWord m) 24

/-! ### Epilogue words (R185–R197) -/

def epi (m : Memory) (k : Nat) : Word := mword m (0x10 + 4 * k)
def epiOp (w : Word) : Nat := bits w 0 6
def accPasses (w : Word) : Nat := bits w 6 16 + 1
def accJoin (w : Word) : Nat := bits w 22 2
def accLink (w : Word) : Nat := bits w 24 4
def accMerges (w : Word) : Nat := bits w 28 3
def accRaw (w : Word) : Bool := flagOf w 31
def epiSrc (w : Word) : Nat := bits w 6 3
def epiImm (w : Word) : Nat := bits w 16 16
def randKind (w : Word) : Nat := bits w 6 2
def randStream (w : Word) : Nat := bits w 8 7
def scalebImm (w : Word) : Int := signed 8 (bits w 16 8)
def rowMode (w : Word) : Nat := bits w 6 2
def rowStream (w : Word) : Nat := bits w 8 4
def rowBanks (w : Word) : Nat := bits w 12 8 + 1
def amaxReg (w : Word) : Nat := bits w 6 4
def amaxFmt (w : Word) : Nat := bits w 10 4
def shareMask (w : Word) : Nat := bits w 6 16
def cvtFmt (w : Word) : Nat := bits w 6 4
def cvtRnd (w : Word) : Nat := bits w 10 3
def cvtStream (w : Word) : Nat := bits w 13 3
def flagsStream (w : Word) : Nat := bits w 6 4
def sortK (w : Word) : Nat := bits w 6 10 + 1
def sortStream (w : Word) : Nat := bits w 16 4
def sortAsc (w : Word) : Bool := flagOf w 20
def sortTiles (p : Word) : Nat := bits p 0 20 + 1
def sortBase (p : Word) : Nat := bits p 20 10

/-- ADD, MUL, MAX, MIN, SUBR, COPYSIGN take an operand by src (R188). -/
def isBinary (op : Nat) : Bool := op == 2 || op == 3 || op == 4 || op == 5 || op == 0x21 || op == 0x23

/-- The bits an op code gives a meaning to; none where it is reserved (R187). -/
def epiMask (op : Nat) : Option Nat :=
  if op = 1 ∨ op = 0x30 then some 0xFFFFFFFF
  else if isBinary op then some 0xFFFF01FF
  else if 0x10 ≤ op ∧ op ≤ 0x1B then some 0x3F
  else if op = 0x20 then some 0xFFFF7FFF
  else if op = 0x22 then some 0x00FF003F
  else if op = 0x28 then some 0x000FFFFF
  else if op = 0x29 then some 0x00003FFF
  else if op = 0x2A then some 0x003FFFFF
  else if op = 0x31 then some 0x000003FF
  else if op = 0x38 then some 0x001FFFFF
  else none

/-- A word followed by a parameter word (R186). -/
def needsParam (w : Word) : Bool := epiOp w == 0x38 || (epiOp w == 0x20 && randKind w == 3)

/-- The indices of the epilogue words that are not parameter words. -/
def wordsFrom (m : Memory) : Nat → Nat → List Nat
  | 0, _ => []
  | n + 1, i => if min (epilogueCount m) 8 ≤ i then []
    else i :: wordsFrom m n (if needsParam (epi m i) then i + 2 else i + 1)

def chainWords (m : Memory) : List Nat := wordsFrom m 8 0

/-- Word k is an operation of the chain with this op code. -/
def chainHas (m : Memory) (k op : Nat) : Bool := (chainWords m).contains k && epiOp (epi m k) == op

/-- The chain uses a side tile (R188). -/
def usesSide (m : Memory) : Bool := (chainWords m).any fun k =>
  isBinary (epiOp (epi m k)) && epiSrc (epi m k) ≠ 0

/-! ### Route, format and stream words (R114, R116, R118) -/

structure RouteWord where
  dest : Nat
  network : Nat
  perpendFirst : Bool
  destStream : Nat
  valid : Bool
  deriving DecidableEq, Repr

def routeWord (m : Memory) (e : Nat) : RouteWord :=
  let w := mword m (0x30 + 8 * e)
  { dest := bits w 0 12, network := bits w 12 2, perpendFirst := flagOf w 14, destStream := bits w 15 4,
    valid := flagOf w 19 }

/-- The resolved segments of a route (R114): stops, perpend line, decreasing. -/
def routeSegs (m : Memory) (e : Nat) : List (Nat × Bool × Bool) :=
  ((aread 0 m (0x34 + 8 * e) 4).takeWhile (· ≠ 0)).map fun b =>
    (b.toNat % 64, b.toNat.testBit 6, b.toNat.testBit 7)

structure FormatWord where
  stored : Nat
  compute : Nat
  group : Nat
  rowBase : Bool
  round : Nat
  delayed : Bool
  amax : Bool
  scaleReg : Nat
  scale : Word
  sidecar : Nat
  sidecarSpace : Nat
  deriving DecidableEq, Repr

def formatWord (m : Memory) (i : Nat) : FormatWord :=
  let w := mword m (0xB0 + 16 * i)
  let w2 := mword m (0xB8 + 16 * i)
  { stored := bits w 0 4, compute := bits w 4 4, group := bits w 8 2, rowBase := flagOf w 10, round := bits w 11 2,
    delayed := flagOf w 13, amax := flagOf w 14, scaleReg := bits w 15 4, scale := mword m (0xB4 + 16 * i),
    sidecar := bits w2 0 16, sidecarSpace := bits w2 16 2 }

/-- Elements of a group, along the reduction axis: the whole row where group is 0 (R116). -/
def groupSize (f : FormatWord) : Nat := if f.group = 0 then 32 else 32 * 2 ^ (f.group - 1)

/-- Data stored through the word carry records (R131). -/
def hasRecords (f : FormatWord) : Bool :=
  f.stored == 8 || ((f.stored == 6 || f.stored == 7) && (f.group != 0 || f.rowBase))

def recordSize (f : FormatWord) : Nat := if f.stored = 8 then 32 else 64

structure StreamWord where
  valid : Bool
  out : Bool
  swap : Bool
  slots : Nat
  route : Nat
  hodOffset : Nat
  tagBits : Nat
  external : Bool
  base : Nat
  space : Nat
  slotUnits : Nat
  deriving DecidableEq, Repr

def streamWord (m : Memory) (i : Nat) : StreamWord :=
  let w := mword m (0x130 + 16 * i)
  let w1 := mword m (0x134 + 16 * i)
  let w2 := mword m (0x138 + 16 * i)
  { valid := flagOf w 0, out := flagOf w 1, swap := flagOf w 2, slots := bits w 3 5, route := bits w 8 4,
    hodOffset := bits w 12 6, tagBits := bits w 18 3, external := flagOf w 21, base := bits w1 0 16,
    space := bits w1 16 2, slotUnits := bits w2 0 16 + 1 }

/-- Stream i is a valid stream of a direction. -/
def streamOk (m : Memory) (i : Nat) (out : Bool) : Bool := (streamWord m i).valid && (streamWord m i).out == out

/-! ### Program words (R119) -/

def progWord (m : Memory) (p k : Nat) : DWord := BitVec.ofNat 64 (leNat (aread 0 m (0x230 + 512 * p + 8 * k) 8))
def dbits (w : DWord) (lo n : Nat) : Nat := w.toNat >>> lo % 2 ^ n
def progOp (w : DWord) : Nat := dbits w 60 4
def baseOffset (w : DWord) : Nat := dbits w 0 16
def baseSpace (w : DWord) : Nat := dbits w 16 2
def loopCount (w : DWord) : Nat := dbits w 0 16 + 1
def loopStride (w : DWord) : Int := signed 24 (dbits w 16 24)
def loopBody (w : DWord) : Nat := dbits w 40 4
def moveTiles (w : DWord) : Nat := dbits w 0 16 + 1
def moveFormat (w : DWord) : Nat := dbits w 16 3
def moveTranspose (w : DWord) : Bool := dbits w 19 1 == 1
def moveWrite (w : DWord) : Bool := dbits w 20 1 == 1
def moveTarget (w : DWord) : Nat := dbits w 21 5
def fenceIdOf (w : DWord) : Nat := dbits w 0 16
def streamOf (w : DWord) : Nat := dbits w 0 4

/-- The bits below the opcode that an opcode gives a meaning to; none where it is reserved. -/
def progMask (op : Nat) : Option Nat :=
  if op = 0 ∨ op = 7 then some 0
  else if op = 1 then some (2 ^ 18 - 1)
  else if op = 2 then some (2 ^ 44 - 1)
  else if op = 3 then some (2 ^ 26 - 1)
  else if op = 4 then some 0xFFFF
  else if op = 5 ∨ op = 6 then some 0xF
  else none

/-- The first END or JUMP of a program. -/
def progEnd (m : Memory) (p : Nat) : Option Nat :=
  (List.range 64).find? fun k => progOp (progWord m p k) == 0 || progOp (progWord m p k) == 7

/-- The words before the program's END or JUMP. -/
def progBody (m : Memory) (p : Nat) : List Nat := List.range ((progEnd m p).getD 64)

/-- A program has a MOVE of a direction and target. -/
def hasMove (m : Memory) (p : Nat) (write : Bool) (target : Nat) : Bool := (progBody m p).any fun k =>
  let w := progWord m p k
  progOp w == 3 && moveWrite w == write && moveTarget w == target

/-! ### Layout entries (R351, R352) -/

structure LayoutEntry where
  tensor : Nat
  firstRank : Nat
  rankRows : Nat
  rankCols : Nat
  fmtWord : Nat
  colMajor : Bool
  batch : Bool
  reduction : Nat
  partRows : Nat
  partCols : Nat
  row0 : Nat
  col0 : Nat
  ld : Nat
  elemBase : Nat
  deriving DecidableEq, Repr

def layoutEntry (b : Bytes) : LayoutEntry :=
  let fl := fieldLE b 11 1
  { tensor := fieldLE b 0 4, firstRank := fieldLE b 4 2, rankRows := fieldLE b 6 2 + 1, rankCols := fieldLE b 8 2 + 1,
    fmtWord := fieldLE b 10 1, colMajor := fl.testBit 0, batch := fl.testBit 1, reduction := nbits fl 2 2,
    partRows := fieldLE b 12 4, partCols := fieldLE b 16 4, row0 := fieldLE b 24 8, col0 := fieldLE b 32 8,
    ld := fieldLE b 40 8, elemBase := fieldLE b 48 8 }

/-- The entry covers a rank. -/
def covers (e : LayoutEntry) (rank : Nat) : Bool := e.firstRank ≤ rank && rank < e.firstRank + e.rankRows * e.rankCols

/-- Logical row and column of element (0, 0) of the n-th tile through an entry, for a brick of a rank (R352). -/
def layoutPlace (e : LayoutEntry) (rank n origin : Nat) : Nat × Nat :=
  let q := rank - e.firstRank
  let nn := n % (e.partRows * e.partCols)
  let ab := if e.colMajor then (nn % e.partRows, nn / e.partRows) else (nn / e.partCols, nn % e.partCols)
  (e.row0 + (q / e.rankCols * e.partRows + ab.1) * 32 + (if e.batch then origin else 0),
   e.col0 + (q % e.rankCols * e.partCols + ab.2) * 32)

/-- The element index of a logical place (R352). -/
def elementIndex (e : LayoutEntry) (row col : Nat) : Nat := (e.elemBase + row * e.ld + col) % 2 ^ 64

end Sys2Proof.Machine
end

