-- ==== Sys2Proof/Machine/BondCheck.lean ====
section
/-!
DEFINITION. The checks a bond's sections must pass: steps 9–11 of R105, from R103, R112–R121, R135, R139, R143–R146,
R150, R160, R175, R181, R185–R199, R207, R212, R287 and R325.
-/
namespace Sys2Proof.Machine

/-- A fault found: image byte offset, step of R105, code. -/
structure Flaw where
  at_ : Nat
  step : Nat
  code : Code
  deriving DecidableEq, Repr

/-- One fault where the condition holds. -/
def flaw (bad : Bool) (at_ step : Nat) (code : Code) : List Flaw := if bad then [{ at_ := at_, step := step, code := code }] else []
def f9 (bad : Bool) (at_ : Nat) : List Flaw := flaw bad at_ 9 eBadField
def f10 (bad : Bool) (at_ : Nat) : List Flaw := flaw bad at_ 10 eBondFormat
def f11 (bad : Bool) (at_ : Nat) : List Flaw := flaw bad at_ 11 eBondShape

/-- The first fault of a list: lowest offset, then lowest step. -/
def firstFlaw (l : List Flaw) : Option Flaw :=
  l.foldl (fun best f => match best with
    | none => some f
    | some b => if f.at_ < b.at_ ∨ (f.at_ = b.at_ ∧ f.step < b.step) then some f else some b) none

/-- The (stored, compute) pairs with a conversion path (R143). -/
def pairPath (stored compute : Nat) : Bool :=
  let row := if stored = 0 then [0, 1] else if stored = 1 then [0, 1, 2, 3, 4, 5] else if stored = 2 then [1, 2, 4, 5]
    else if stored = 3 then [1, 3, 4, 5] else if stored = 4 then [1, 2, 3, 4] else if stored = 5 then [1, 2, 3, 5]
    else if stored = 6 then [1, 2, 3, 6] else if stored = 7 then [1, 2, 3, 7] else if stored = 8 then [1] else []
  row.contains compute

abbrev epiAt (k : Nat) : Nat := 0x10 + 4 * k
abbrev routeAt (e : Nat) : Nat := 0x30 + 8 * e
abbrev fmtAt (i : Nat) : Nat := 0xB0 + 16 * i
abbrev streamAt (i : Nat) : Nat := 0x130 + 16 * i
abbrev progAt (p k : Nat) : Nat := 0x230 + 512 * p + 8 * k

/-! ### Step 9 of a section -/

/-- Reserved values of one chain word (R185–R197). -/
def epiReserved (w : Word) : Bool :=
  match epiMask (epiOp w) with
  | none => true
  | some mask =>
    w.toNat &&& (0xFFFFFFFF - mask) != 0
      || (epiOp w == 1 && accJoin w == 3)
      || (isBinary (epiOp w) && (4 ≤ epiSrc w || (epiSrc w == 1 && epiImm w != 0) || (2 ≤ epiSrc w && 32 ≤ epiImm w)))
      || (epiOp w == 0x20 && epiImm w < 8)
      || (epiOp w == 0x28 && 2 ≤ rowMode w)
      || (epiOp w == 0x29 && 9 ≤ amaxFmt w)
      || (epiOp w == 0x30 && (9 ≤ cvtFmt w || cvtRnd w == 7
          || (cvtRnd w != 5 && (cvtStream w != 0 || epiImm w != 0)) || (cvtRnd w == 5 && epiImm w < 8)))

def epiFlaws9 (m : Memory) : List Flaw :=
  ((List.range 8).flatMap fun k => f9 (min (epilogueCount m) 8 ≤ k && epi m k != 0) (epiAt k))
    ++ (chainWords m).flatMap fun k => f9 (epiReserved (epi m k)) (epiAt k)
      ++ f9 (epiOp (epi m k) == 0x38 && bits (epi m (k + 1)) 30 2 != 0) (epiAt (k + 1))

def routeFlaws9 (m : Memory) : List Flaw :=
  (List.range 16).flatMap fun e =>
    let w := mword m (routeAt e)
    let w1 := mword m (routeAt e + 4)
    if (routeWord m e).valid then f9 (bits w 12 2 == 3 || bits w 20 12 != 0) (routeAt e) ++ f9 (w1 != 0) (routeAt e + 4)
    else f9 (w != 0) (routeAt e) ++ f9 (w1 != 0) (routeAt e + 4)

def streamFlaws9 (m : Memory) : List Flaw :=
  (List.range 16).flatMap fun i =>
    let a := streamAt i
    if (streamWord m i).valid then
      f9 (5 ≤ (streamWord m i).tagBits || bits (mword m a) 22 10 != 0) a
        ++ f9 (2 ≤ (streamWord m i).space || bits (mword m (a + 4)) 18 14 != 0) (a + 4)
        ++ f9 (bits (mword m (a + 8)) 16 16 != 0) (a + 8) ++ f9 (mword m (a + 12) != 0) (a + 12)
    else f9 (!mzero m a 16) a

def wordFlaws9 (p k : Nat) (w : DWord) : List Flaw :=
  match progMask (progOp w) with
  | none => f9 true (progAt p k)
  | some mask => f9 (dbits w 0 60 &&& (2 ^ 60 - 1 - mask) != 0 || (progOp w == 1 && 2 ≤ baseSpace w)
      || (progOp w == 3 && 19 ≤ moveTarget w)) (progAt p k)

def progFlaws9 (m : Memory) (p : Nat) : List Flaw :=
  let t := (progEnd m p).getD 63
  (List.range 64).flatMap fun k => if t < k then f9 (progWord m p k != 0) (progAt p k) else wordFlaws9 p k (progWord m p k)

/-- A format word is in use where it holds any bit or a MOVE names it. -/
def fmtUsed (m : Memory) (i : Nat) : Bool :=
  !mzero m (fmtAt i) 16 || (List.range 4).any fun p => (progBody m p).any fun k =>
    progOp (progWord m p k) == 3 && moveFormat (progWord m p k) == i

/-- A positive finite binary32 code. -/
def positiveFinite (w : Word) : Bool := 0 < w.toNat && w.toNat < 0x7F800000

def fmtFlaws9 (m : Memory) (i : Nat) : List Flaw :=
  let f := formatWord m i
  let a := fmtAt i
  f9 (9 ≤ f.stored || 9 ≤ f.compute || f.round == 3 || bits (mword m a) 19 13 != 0) a
    ++ f9 (if f.delayed then f.scale != 0 else !positiveFinite f.scale) (a + 4)
    ++ f9 (2 ≤ f.sidecarSpace || bits (mword m (a + 8)) 18 14 != 0
        || (f.group == 0 && !f.rowBase && f.stored != 8 && f.sidecar != 0)) (a + 8)
    ++ f9 (mword m (a + 12) != 0) (a + 12)

/-- Every word's reserved values and bits (step 9). -/
def sectionFlaws9 (m : Memory) : List Flaw :=
  f9 (8 ≤ functionOf m || reductionOf m == 3 || 2 ≤ weightTile m || 9 ≤ epilogueCount m || 5 ≤ roundingOf m
      || bits (modeWord m) 20 12 != 0) 0
    ++ f9 (129 ≤ streamCount m || bits (randomWord m) 25 7 != 0) 4 ++ f9 (!mzero m 8 8) 8
    ++ epiFlaws9 m ++ routeFlaws9 m ++ ((List.range 8).flatMap fun i => if fmtUsed m i then fmtFlaws9 m i else [])
    ++ streamFlaws9 m ++ (List.range 4).flatMap (progFlaws9 m)

/-! ### Step 10 of a section -/

/-- One format word (R117, R135, R139, R143). -/
def fmtFlaws10 (m : Memory) (i : Nat) : List Flaw :=
  let f := formatWord m i
  if 9 ≤ f.stored ∨ 9 ≤ f.compute then []
  else f10 (!pairPath f.stored f.compute
      || (f.stored == 8 && (functionOf m != 4 || !(i == 2 || i == 3) || f.group != 0 || f.rowBase || f.delayed || f.amax))
      || (f.group != 0 && !(f.stored == 6 || f.stored == 7 || f.compute == 6 || f.compute == 7))
      || (f.round == 1 && streamCount m == 0)) (fmtAt i)

/-- The raw drain of a matrix slice's accumulate word. -/
def rawDrain (m : Memory) : Bool :=
  functionOf m == 1 && 1 ≤ epilogueCount m && epiOp (epi m 0) == 1 && accRaw (epi m 0)

/-- The chain runs in binary64 (R186). -/
def chain64 (m : Memory) : Bool := (functionOf m == 2 || functionOf m == 5) && (formatWord m 0).compute == 0

/-- The formats of one MOVE (R144, R185, R188). -/
def moveFlaws10 (m : Memory) (p k : Nat) : List Flaw :=
  let w := progWord m p k
  let f := formatWord m (moveFormat w)
  f10 (progOp w == 3
    && ((moveTranspose w && (f.group != 0 || f.rowBase))
      || (p == 3 && !moveWrite w && moveTarget w == 18 && f.compute != (if chain64 m then 0 else 1))
      || (rawDrain m && reductionOf m != 0 && p == 2 && moveWrite w && moveTarget w == 18
          && !(f.stored == 1 && f.compute == 1)))) (progAt p k)

/-- The operand combinations of R117. -/
def matrixRow (a w red tile : Nat) : Bool :=
  (a == 6 && w == 7 && red == 0 && tile == 1) || (a == 6 && w == 6 && red == 0 && tile == 0)
    || (floatRow a w && (red == 1 || red == 2) && tile == 0)
where
  floatRow (a w : Nat) : Bool :=
    ((a == 4 || a == 5) && (w == 4 || w == 5)) || (a == 3 && w == 3) || (a == 2 && w == 2)

/-- The format words a function requires (R121). -/
def requiredFormats (fn : Nat) : List Nat :=
  if fn = 1 ∨ fn = 3 then [0, 1, 2] else if fn = 2 then [0] else if fn = 4 then [0, 1, 2, 3] else if fn = 7 then [0, 1] else []

/-- A required format word the section lacks: step 11 names it (R121), and step 10 has no combination to test. -/
def lacksFormat (m : Memory) (is : List Nat) : Bool :=
  is.any fun i => (requiredFormats (functionOf m)).contains i && mzero m (fmtAt i) 16

/-- What a function asks of its formats (R117, R150, R160, R181, R198, R199, R287, R325). -/
def functionFlaws10 (m : Memory) : List Flaw :=
  let c (i : Nat) : Nat := (formatWord m i).compute
  let st (i : Nat) : Nat := (formatWord m i).stored
  let fn := functionOf m
  let red := reductionOf m
  let copy (i : Nat) : Bool := (st i == 3 || st i == 4 || st i == 7) && c i == 1
  let given (is : List Nat) (l : List Flaw) : List Flaw := if lacksFormat m is then [] else l
  f10 (red == 2 && streamCount m == 0) 0 ++
  (if fn = 1 then
    f10 ((red == 2 && c 0 == 6 && (c 1 == 6 || c 1 == 7)) || (weightTile m == 1 && weightTranspose m)) 0
      ++ given [0, 1] (f10 (!matrixRow (c 0) (c 1) red (weightTile m)) (fmtAt 0))
      ++ f10 (red == 0 && (formatWord m 0).group != 0 && (formatWord m 1).group != 0) (fmtAt 1)
      ++ given [2] (f10 (c 2 != 1) (fmtAt 2))
  else if fn = 3 then
    f10 (red != 1) 0 ++ given [0, 1] (f10 (!matrixRow.floatRow (c 0) (c 1)) (fmtAt 0))
      ++ given [1] (f10 (!(st 1 == 4 || st 1 == 3 || st 1 == 2) || (formatWord m 1).group != 0 || (formatWord m 1).rowBase
          || (formatWord m 1).delayed) (fmtAt 1))
      ++ given [2] (f10 (c 2 != 1) (fmtAt 2))
  else if fn = 4 then
    ((List.range 2).flatMap fun i => given [i] (f10 (!(st i == 1 && c i == 1)) (fmtAt i)))
      ++ ([2, 3].flatMap fun i => given [i] (f10 (st i != 8) (fmtAt i))) ++ f10 (!copy 4) (fmtAt 4)
      ++ f10 (!mzero m (fmtAt 5) 16 && !copy 5) (fmtAt 5)
      ++ [6, 7].flatMap fun i => f10 (!mzero m (fmtAt i) 16) (fmtAt i)
  else if fn = 2 ∨ fn = 5 then f10 (!(c 0 == 0 || c 0 == 1)) (fmtAt 0)
  else [])

/-- Format combinations (step 10). -/
def sectionFlaws10 (m : Memory) : List Flaw :=
  ((List.range 8).flatMap fun i => if fmtUsed m i then fmtFlaws10 m i else [])
    ++ ((chainWords m).flatMap fun k =>
        f10 ((epiOp (epi m k) == 0x29 && amaxFmt (epi m k) == 8) || (epiOp (epi m k) == 0x30 && cvtFmt (epi m k) == 8)) (epiAt k))
    ++ ((List.range 4).flatMap fun p => (progBody m p).flatMap (moveFlaws10 m p)) ++ functionFlaws10 m

/-! ### Step 11: programs (R120, R145, R146, R198, R199, R287) -/

/-- The LOOPs that enclose word k. -/
def enclosing (m : Memory) (p k : Nat) : List Nat := (List.range k).filter fun j =>
  progOp (progWord m p j) == 2 && k ≤ j + loopBody (progWord m p j)

/-- A LOOP's body lies inside every enclosing body and before the end, at most 4 deep. R119 gives a body length of 1–15
and no step or code for 0: the model fails it here, in step 11 (DESIGN CHOICE, log entry 114). -/
def loopFlawed (m : Memory) (p t k : Nat) : Bool :=
  let w := progWord m p k
  progOp w == 2 && (loopBody w == 0 || t ≤ k + loopBody w || 4 ≤ (enclosing m p k).length
    || (enclosing m p k).any fun j => j + loopBody (progWord m p j) < k + loopBody w)

/-- Units of a space (R120). -/
def spaceUnits (space : Nat) : Int := if space = 0 then 65536 else 1024

/-- Where a program's address stands: space, and the lowest and highest unit it may have there. After a WAIT it is the
start of some slot of the stream (R119, R204). -/
abbrev Place := Option (Nat × Int × Int)

def Place.moved (x : Place) (d : Int) : Place := x.map fun y => (y.1, y.2.1 + d, y.2.2 + d)

/-- The slots a WAIT may take the address to. -/
def slotPlace (w : StreamWord) : Place :=
  if 2 ≤ w.space then none else some (w.space, (w.base : Int), ((w.base + (w.slots - 1) * w.slotUnits : Nat) : Int))

/-- The start of a pass, or a BASE, lies outside its space (R120). -/
def placeOut (x : Place) : Bool :=
  match x with
  | some (sp, lo, hi) => sp < 2 && (lo < 0 || spaceUnits sp ≤ hi)
  | none => false

/-- An integer-path raw drain's write MOVE, which moves 12 KiB tiles whatever its format word (R185). -/
def rawMove (m : Memory) (p : Nat) (w : DWord) : Bool :=
  rawDrain m && reductionOf m == 0 && p == 2 && moveWrite w && (moveTarget w == 18 || moveTarget w < 16)

/-- A MOVE's reach: the place after it, and whether a tile or its record leaves its space (R120, R146). -/
def moveReach (m : Memory) (p : Nat) (w : DWord) (pl : Place) : Place × Bool :=
  let f := formatWord m (moveFormat w)
  let tiles : Int := moveTiles w
  match pl with
  | none => (none, false)
  | some (sp, lo, hi) =>
    if 2 ≤ sp ∨ (moveWrite w ∧ moveTarget w < 16) then (pl, false)
    else if rawMove m p w then (pl.moved (tiles * 48), lo < 0 || spaceUnits sp < hi + tiles * 48)
    else if 9 ≤ f.stored then (pl, false)
    else
      let z : Int := (tileSize false f.stored / 256 : Nat)
      let last : Int := f.sidecar * 256 + (hi / z + tiles) * recordSize f
      (pl.moved (tiles * z),
        lo < 0 || spaceUnits sp < hi + tiles * z
          || (hasRecords f && f.sidecarSpace < 2 && spaceUnits f.sidecarSpace * 256 < last))

/-- A visit of the walk: a word of the program, the place it is met at, and whether it leaves its space there. -/
abbrev Visit := Nat × Place × Bool

/-- The places of a LOOP's first and last pass. A body that sets its own address starts its last pass where a pass ends,
the stride added; another starts it the pass's length and the stride further on for each pass before it. -/
def lastPass (sets : Bool) (count : Nat) (stride : Int) (first done : Place) : Place :=
  if sets then done.moved stride
  else match first, done with
    | some a, some b => first.moved (((count : Int) - 1) * (b.2.1 - a.2.1 + stride))
    | _, _ => none

/-- Follow a program from word k to hi, each LOOP on its first and last pass: the place reached, and every BASE, LOOP
and MOVE met. A BASE is out where its address is, a LOOP where its stride starts the last pass outside (log entry
114). -/
def walkMoves (m : Memory) (p : Nat) : Nat → Nat → Nat → Place → Place × List Visit
  | 0, _, _, pl => (pl, [])
  | n + 1, k, hi, pl =>
    if hi ≤ k then (pl, [])
    else
      let w := progWord m p k
      let op := progOp w
      if op = 1 then
        let at_ : Place := some (baseSpace w, (baseOffset w : Int), (baseOffset w : Int))
        let rest := walkMoves m p n (k + 1) hi at_
        (rest.1, (k, at_, placeOut at_) :: rest.2)
      else if op = 5 then walkMoves m p n (k + 1) hi (slotPlace (streamWord m (streamOf w)))
      else if op = 3 then
        let r := moveReach m p w pl
        let rest := walkMoves m p n (k + 1) hi r.1
        (rest.1, (k, pl, r.2) :: rest.2)
      else if op = 2 then
        let fin := k + 1 + loopBody w
        let sets := (List.range (loopBody w)).any fun j =>
          progOp (progWord m p (k + 1 + j)) == 1 || progOp (progWord m p (k + 1 + j)) == 5
        let one := walkMoves m p n (k + 1) fin pl
        let entry := lastPass sets (loopCount w) (loopStride w) pl one.1
        let last := if loopCount w = 1 then one
          else
            let l := walkMoves m p n (k + 1) fin entry
            (l.1, one.2 ++ (k, entry, loopStride w != 0 && placeOut entry) :: l.2)
        let rest := walkMoves m p n fin hi (last.1.moved (loopStride w))
        (rest.1, last.2 ++ rest.2)
      else walkMoves m p n (k + 1) hi pl

/-- The words of a walk that leave their space. -/
def walk (m : Memory) (p n k hi : Nat) (pl : Place) : Place × List Nat :=
  let r := walkMoves m p n k hi pl
  (r.1, r.2.filterMap fun x => if x.2.2 then some x.1 else none)

/-- Bytes sent to out stream s since its last POST, and their peak, from word k to hi. -/
def fill (m : Memory) (p s : Nat) : Nat → Nat → Nat → Nat × Nat → Nat × Nat
  | 0, _, _, x => x
  | n + 1, k, hi, x =>
    if hi ≤ k then x
    else
      let w := progWord m p k
      if progOp w = 3 ∧ moveWrite w ∧ moveTarget w = s then
        let z := if rawMove m p w then 12288 else tileSize false (formatWord m (moveFormat w)).stored
        let a := x.1 + moveTiles w * z
        fill m p s n (k + 1) hi (a, max x.2 a)
      else if progOp w = 6 ∧ streamOf w = s then fill m p s n (k + 1) hi (0, x.2)
      else if progOp w = 2 then
        let fin := k + 1 + loopBody w
        let one := fill m p s n (k + 1) fin x
        let two := fill m p s n (k + 1) fin one
        let posts := (List.range (loopBody w)).any fun j =>
          progOp (progWord m p (k + 1 + j)) == 6 && streamOf (progWord m p (k + 1 + j)) == s
        let sum := x.1 + loopCount w * (one.1 - x.1)
        let r := if loopCount w = 1 then one else if posts then two else (sum, max one.2 sum)
        fill m p s n fin hi r
      else fill m p s n (k + 1) hi x

/-- The write tiles to a slot between two POSTs overrun it (R212). -/
def overfills (m : Memory) (p t s : Nat) : Bool :=
  let one := fill m p s 65 0 t (0, 0)
  let two := fill m p s 65 0 t one
  let jump := progOp (progWord m p t) == 7
  let room := (streamWord m s).slotUnits * 256
  room < one.2 || (jump && (room < two.2 || one.1 < two.1))

/-- One word before the end of its program. -/
def wordFlawed (m : Memory) (fenceIds : List Nat) (p k : Nat) : Bool :=
  let w := progWord m p k
  let op := progOp w
  let fn := functionOf m
  let f := formatWord m (moveFormat w)
  (op == 4 && (p != 0 || !fenceIds.contains (fenceIdOf w) || (List.range k).any fun j =>
      progOp (progWord m p j) == 4 && fenceIdOf w ≤ fenceIdOf (progWord m p j)))
  || (op == 5 && !streamOk m (streamOf w) false) || (op == 6 && !streamOk m (streamOf w) true)
  || (op == 3 && ((moveTranspose w && moveWrite w) || 9 ≤ f.stored
      || (moveTarget w < 16 && !streamOk m (moveTarget w) (moveWrite w))
      || (moveWrite w && 2 ≤ f.group && moveTiles w % 2 ^ (f.group - 1) != 0)
      || ((fn == 2 || fn == 5) && moveTarget w == 18 && (p == 1 || (moveWrite w && (p == 0 || p == 3))))
      || (fn == 1 && p == 1 && moveTarget w == 17 && moveTranspose w != weightTranspose m)))
  || (fn == 3 && (p != 0 || !(op == 2 || op == 4 || (op == 5 && streamOf w == 0))))

/-- One program (R120). -/
def progFlaws11 (m : Memory) (fenceIds : List Nat) (p : Nat) : List Flaw :=
  match progEnd m p with
  | none => f11 true (progAt p 63)
  | some t =>
    let ids := ((List.range t).filter fun k => progOp (progWord m p k) == 4).map fun k => fenceIdOf (progWord m p k)
    let loops := (List.range t).flatMap fun k => f11 (loopFlawed m p t k) (progAt p k)
    loops ++ ((List.range t).flatMap fun k => f11 (wordFlawed m fenceIds p k) (progAt p k))
      ++ f11 ((p == 0 && !fenceIds.all ids.contains) || (functionOf m == 3 && p != 0 && progOp (progWord m p t) != 0)) (progAt p t)
      ++ (if loops.isEmpty then
          ((walk m p 65 0 t (some (0, 0, 0))).2.flatMap fun k => f11 true (progAt p k))
            ++ (List.range 16).flatMap fun s => f11 (streamOk m s true && overfills m p t s) (streamAt s)
        else [])

/-! ### Step 11: chain, streams and function (R118, R121, R175, R185–R197, R207, R212) -/

/-- The accumulate word of a matrix slice (R185). -/
def accFlawed (m : Memory) : Bool :=
  let w := epi m 0
  epilogueCount m == 0 || epiOp w != 1
    || ((accJoin w == 1 || accJoin w == 2) && !streamOk m (accLink w) false)
    || (accJoin w == 0 && accLink w != 0) || (accJoin w != 2 && accMerges w != 0) || (accRaw w && epilogueCount m != 1)

/-- One word of the chain. -/
def chainFlawed (m : Memory) (k : Nat) : Bool :=
  let w := epi m k
  let op := epiOp w
  let slot (s : Nat) : Nat := (streamWord m s).slotUnits * 256
  (op == 1 && !(functionOf m == 1 && k == 0))
    || (op == 0x2A && (chainWords m).any fun j => j < k && epiOp (epi m j) == 0x2A)
    || (op == 0x20 && streamCount m ≤ randStream w)
    || (op == 0x28 && !streamOk m (rowStream w) true)
    || (op == 0x31 && (!streamOk m (flagsStream w) true || (routeWord m (streamWord m (flagsStream w)).route).network != 2))
    || (op == 0x38 && (262144 < sortBase (epi m (k + 1)) * 256 + 256 * sortK w || !streamOk m (sortStream w) true
        || slot (sortStream w) < 8 * sortK w))
    || (functionOf m == 3 && (op == 0x28 || op == 0x38 || op == 0x29 || op == 0x2A || op == 0x20
        || (isBinary op && epiSrc w != 0)))
    || (needsParam w && epilogueCount m ≤ k + 1)

def streamFlawed (m : Memory) (i : Nat) : Bool :=
  let w := streamWord m i
  let space := if w.space = 0 then 65536 else 1024
  w.valid && (functionOf m == 0 || (if w.swap then w.slots != 2 else w.slots < 3 || 16 < w.slots)
    || (if w.out then !(routeWord m w.route).valid || w.external else w.route != 0)
    || (!w.out && (List.range i).any fun j => streamOk m j false && (streamWord m j).hodOffset == w.hodOffset)
    || (w.space < 2 && space < w.base + w.slots * w.slotUnits)
    || (functionOf m == 6 && w.out && (List.range 16).any fun j =>
        streamOk m j false && (streamWord m j).slotUnits != w.slotUnits)
    || 1 < ((List.range 4).filter fun p => namesStream m p i).length)
where
  namesStream (m : Memory) (p i : Nat) : Bool := (progBody m p).any fun k =>
    let w := progWord m p k
    ((progOp w == 5 || progOp w == 6) && streamOf w == i) || (progOp w == 3 && moveTarget w == i)

def functionFlaws11 (m : Memory) : List Flaw :=
  let fn := functionOf m
  ((requiredFormats fn).flatMap fun i => f11 (mzero m (fmtAt i) 16) (fmtAt i))
    ++ f11 (((fn == 2 || fn == 3) && weightTile m != 0) || (fn == 2 && weightTranspose m)
        || ((fn == 0 || fn == 6 || fn == 7) && epilogueCount m != 0)) 0
    ++ f11 ((freeMode m && streamCount m != 1) || (fn == 0 && streamCount m != 0) || (fn == 5 && streamCount m == 0)) 4
    ++ f11 (fn == 6 && !((List.range 16).any fun i => streamOk m i false) || fn == 6 && !((List.range 16).any fun i => streamOk m i true)) (streamAt 0)
    ++ f11 ((fn == 3 || fn == 4) && (!streamOk m 0 false || (streamWord m 0).swap)) (streamAt 0)

/-- The structure of one section (step 11). -/
def sectionFlaws11 (m : Memory) (bricks : Nat) (fenceIds : List Nat) : List Flaw :=
  functionFlaws11 m
    ++ ((List.range 16).flatMap fun i => f11 (streamFlawed m i) (streamAt i))
    ++ ((List.range 16).flatMap fun e => f11 ((routeWord m e).valid && bricks ≤ (routeWord m e).dest) (routeAt e))
    ++ f11 (functionOf m == 1 && accFlawed m) (epiAt 0)
    ++ ((chainWords m).flatMap fun k => f11 (chainFlawed m k) (epiAt k))
    ++ f11 (usesSide m != hasMove m 3 false 18) (epiAt 0)
    ++ (List.range 4).flatMap (progFlaws11 m fenceIds)

/-- Steps 9–11 of one section, offsets within it. -/
def sectionFlaws (m : Memory) (bricks : Nat) (fenceIds : List Nat) : List Flaw :=
  sectionFlaws9 m ++ sectionFlaws10 m ++ sectionFlaws11 m bricks fenceIds

/-! ### Step 11 across sections (R102, R103, R114, R121, R185, R207, R212) -/

/-- What the rules across sections read: brick count, section of each rank, and the sections. -/
structure BondParts where
  bricks : Nat
  map : List Nat
  secs : List Memory
  deriving DecidableEq, Repr

def BondParts.sec (b : BondParts) (i : Nat) : Memory := b.secs.getD i []
def BondParts.ofRank (b : BondParts) (r : Nat) : Memory := b.sec (b.map.getD r 0)

/-- The producer endpoints of an in stream, counted by brick: rank and out stream, by rank then stream (R207). -/
def producers (b : BondParts) (rank stream : Nat) : List (Nat × Nat) :=
  (List.range b.bricks).flatMap fun r =>
    let m := b.ofRank r
    ((List.range 16).filter fun o => streamOk m o true &&
      (let e := routeWord m (streamWord m o).route
       e.valid && e.dest == rank && e.destStream == stream)).map fun o => (r, o)

/-- Out stream o of a section keeps the rules of R212 at its destination. -/
def outAgrees (b : BondParts) (m : Memory) (o : Nat) : Bool :=
  let w := streamWord m o
  let e := routeWord m w.route
  if !e.valid || b.bricks ≤ e.dest then true
  else
    let d := streamWord (b.ofRank e.dest) e.destStream
    d.valid && !d.out && !d.external && d.swap == w.swap && d.slots == w.slots && d.hodOffset == w.hodOffset
      && d.tagBits == w.tagBits && d.base == w.base && d.space == w.space && d.slotUnits == w.slotUnits

/-- In stream i of a rank has the producers its word allows. -/
def inFed (b : BondParts) (rank i : Nat) : Bool :=
  let w := streamWord (b.ofRank rank) i
  let n := (producers b rank i).length
  if w.external then n == 0 && !w.swap else if w.swap then n == 1 else n != 0 && w.slots % n == 0

/-- A float-path merge-in has exactly one producer (R185). -/
def mergeFed (b : BondParts) (rank : Nat) : Bool :=
  let m := b.ofRank rank
  let w := epi m 0
  if functionOf m == 1 && reductionOf m != 0 && epiOp w == 1 && accJoin w == 2 then
    (streamWord m (accLink w)).external || (producers b rank (accLink w)).length == 1
  else true

/-- The rules that relate sections, with the header's geometry and demands: offsets in the image. -/
def bondFlaws (g : BondGeom) (h : Bytes) (b : BondParts) (fences : List Nat) : List Flaw :=
  let base (i : Nat) : Nat := g.sectionsOffset + 8192 * i
  let all (q : Memory → Bool) : Bool := b.secs.any q
  let hods := b.secs.flatMap fun m => ((List.range 16).filter fun i => (streamWord m i).valid).map fun i => (streamWord m i).hodOffset + 1
  ((List.range (fences.length - 1)).flatMap fun i => f11 (fences.getD (i + 1) 0 ≤ fences.getD i 0) (g.fenceOffset + 8 * (i + 1)))
    ++ ((List.range b.bricks).flatMap fun r => f11 (g.sections ≤ b.map.getD r 0) (256 + 2 * r))
    ++ ((List.range g.sections).flatMap fun i => f11 (!b.map.contains i) (base i))
    ++ f11 (fieldLE h 96 2 != hods.foldl max 0) 96
    ++ f11 (fieldLE h 98 2 != (b.secs.map fun m => streamBase m + streamCount m).foldl max 0) 98
    ++ f11 (fieldLE h 12 4 % 4 != bit01 (all traceOf) + 2 * bit01 (all freeMode)) 12
    ++ ((List.range b.bricks).flatMap fun r =>
        let m := b.ofRank r
        let at_ := base (b.map.getD r 0)
        ((List.range 16).flatMap fun e => f11 ((routeWord m e).valid && (routeWord m e).dest == r) (at_ + routeAt e))
          ++ ((List.range 16).flatMap fun i =>
              f11 (streamOk m i true && !outAgrees b m i) (at_ + streamAt i)
                ++ f11 (streamOk m i false && !inFed b r i) (at_ + streamAt i))
          ++ f11 (!mergeFed b r) (at_ + epiAt 0))

end Sys2Proof.Machine
end

