-- ==== Sys2Proof/Machine/Formats.lean ====
section
/-!
DEFINITION. Number formats and their conversions (05_number_formats.md): the codes of every format as exact rational
values, the single rounding of R137–R140 with the special inputs of R141 and the flags of R142, the scales of R130 and
the MB8 blocks of R136.
-/
namespace Sys2Proof.Machine

/-! ### Exact values -/

/-- What a code stands for: a number, negative zero, an infinity or a NaN with its sign, whether it is quiet, its
fraction field and that field's width; shortNan is the NaN of G8 and G8W. -/
inductive FVal where
  | fin (q : Rat)
  | negZero
  | inf (neg : Bool)
  | nan (neg quiet : Bool) (frac width : Nat)
  | shortNan
  deriving DecidableEq, Repr

def FVal.isNan (v : FVal) : Bool := match v with
  | .nan _ _ _ _ | .shortNan => true
  | _ => false

/-- A signalling NaN. -/
def FVal.isSnan (v : FVal) : Bool := match v with
  | .nan _ quiet _ _ => !quiet
  | _ => false

def FVal.isInf (v : FVal) : Bool := match v with
  | .inf _ => true
  | _ => false

/-- The number a finite value is. -/
def FVal.num (v : FVal) : Rat := match v with
  | .fin q => q
  | _ => 0

/-- Sign bit. -/
def FVal.isNeg (v : FVal) : Bool := match v with
  | .fin q => q < 0
  | .negZero => true
  | .inf n => n
  | .nan n _ _ _ => n
  | .shortNan => false

/-- A number with the sign of a zero taken from a flag. -/
def ofSigned (q : Rat) (neg : Bool) : FVal := if q = 0 ∧ neg then .negZero else .fin q

/-- 2^e. -/
def pow2 (e : Int) : Rat := if 0 ≤ e then ((2 ^ e.toNat : Nat) : Rat) else 1 / ((2 ^ (-e).toNat : Nat) : Rat)

def rabs (q : Rat) : Rat := if q < 0 then -q else q

/-- The largest e with 2^e at most a positive number. -/
def floorLog2 (q : Rat) : Int :=
  let e : Int := (Nat.log2 q.num.natAbs : Int) - (Nat.log2 q.den : Int)
  if pow2 e ≤ q then e else e - 1

/-- The least e with a positive number at most 2^e. -/
def ceilLog2 (q : Rat) : Int := let e := floorLog2 q; if q = pow2 e then e else e + 1

/-! ### The float formats (R123–R127) -/

/-- Exponent bits, fraction bits, bias, and whether the format has infinities and the IEEE NaNs. -/
structure FloatFmt where
  ebits : Nat
  fbits : Nat
  bias : Nat
  ieee : Bool
  deriving DecidableEq, Repr

/-- The float formats by format code; none for I8, G4 and MB8. -/
def floatFmt (code : Nat) : Option FloatFmt :=
  if code = 0 then some { ebits := 11, fbits := 52, bias := 1023, ieee := true }
  else if code = 1 then some { ebits := 8, fbits := 23, bias := 127, ieee := true }
  else if code = 2 then some { ebits := 5, fbits := 10, bias := 15, ieee := true }
  else if code = 3 then some { ebits := 8, fbits := 7, bias := 127, ieee := true }
  else if code = 4 then some { ebits := 4, fbits := 3, bias := 7, ieee := false }
  else if code = 5 then some { ebits := 5, fbits := 2, bias := 15, ieee := false }
  else none

namespace FloatFmt

def width (f : FloatFmt) : Nat := 1 + f.ebits + f.fbits
/-- Exponent of the smallest normal magnitude. -/
def emin (f : FloatFmt) : Int := 1 - (f.bias : Int)
/-- The largest finite exponent field. -/
def emaxField (f : FloatFmt) : Nat := if f.ieee then 2 ^ f.ebits - 2 else 2 ^ f.ebits - 1
def maxFinite (f : FloatFmt) : Rat :=
  ((2 ^ (f.fbits + 1) - 1 : Nat) : Rat) * pow2 ((f.emaxField : Int) - f.bias - f.fbits)
def minNormal (f : FloatFmt) : Rat := pow2 f.emin

/-- What a code stands for. -/
def decode (f : FloatFmt) (c : Nat) : FVal :=
  let neg := c.testBit (f.ebits + f.fbits)
  let e := nbits c f.fbits f.ebits
  let m := nbits c 0 f.fbits
  if f.ieee ∧ e = 2 ^ f.ebits - 1 then
    if m = 0 then .inf neg else .nan neg (m.testBit (f.fbits - 1)) m f.fbits
  else if !f.ieee ∧ neg ∧ e = 0 ∧ m = 0 then .shortNan
  else
    let mag : Rat := if e = 0 then (m : Rat) * pow2 (f.emin - f.fbits)
      else ((2 ^ f.fbits + m : Nat) : Rat) * pow2 ((e : Int) - f.bias - f.fbits)
    ofSigned (if neg then -mag else mag) neg

/-- Sign bit in place. -/
def signBit (f : FloatFmt) (neg : Bool) : Nat := bit01 neg <<< (f.ebits + f.fbits)
def canonicalNan (f : FloatFmt) : Nat := if f.ieee then (2 ^ (f.ebits + 1) - 1) <<< (f.fbits - 1) else 0x80
def infinity (f : FloatFmt) (neg : Bool) : Nat := f.signBit neg + (2 ^ f.ebits - 1) <<< f.fbits
def largest (f : FloatFmt) (neg : Bool) : Nat :=
  f.signBit neg + (f.emaxField <<< f.fbits) + (2 ^ f.fbits - 1)
def zero (f : FloatFmt) (neg : Bool) : Nat := if f.ieee then f.signBit neg else 0

/-- The unit of the grid at a magnitude. -/
def ulpExp (f : FloatFmt) (mag : Rat) : Int := max (floorLog2 mag) f.emin - f.fbits

/-- The code of a grid magnitude no larger than the largest finite one. -/
def encodeMag (f : FloatFmt) (neg : Bool) (mag : Rat) : Nat :=
  if mag = 0 then f.zero neg
  else
    let u := f.ulpExp mag
    let m := (mag / pow2 u).num.natAbs
    let e := if m < 2 ^ f.fbits then 0 else (u + f.fbits + f.bias).toNat
    f.signBit neg + (e <<< f.fbits) + m % 2 ^ f.fbits

end FloatFmt

/-! ### Rounding (R137–R139) -/

/-- The rounding in force; a stochastic one with its draw. -/
inductive Rnd where
  | nearestEven | nearestAway | up | down | zero
  | stochastic (r : Word)
  deriving DecidableEq, Repr

/-- The attribute of the mode word's rounding field (R113). -/
def rndOf (n : Nat) : Rnd := if n = 1 then .nearestAway else if n = 2 then .up else if n = 3 then .down
  else if n = 4 then .zero else .nearestEven

/-- Choose between adjacent grid values a < x < c; evenLow says which of them a tie goes to under ties-to-even, and
awayHigh which under ties-to-away. -/
def choose (rnd : Rnd) (a c x : Rat) (evenLow : Bool) : Rat :=
  match rnd with
  | .up => c
  | .down => a
  | .zero => if 0 ≤ x then a else c
  | .nearestEven => if x - a < c - x then a else if c - x < x - a then c else if evenLow then a else c
  | .nearestAway => if x - a < c - x then a else if c - x < x - a then c else if 0 ≤ x then c else a
  | .stochastic r =>
    let f := ((x - a) / (c - a) * 4294967296).floor
    if (r.toNat : Int) < f then c else a

abbrev flInvalid : Nat := 1
abbrev flDivZero : Nat := 2
abbrev flOverflow : Nat := 4
abbrev flUnderflow : Nat := 8
abbrev flInexact : Nat := 16
abbrev flSaturate : Nat := 32

/-- A code and the flags its forming raises, as bits in the order of R163. -/
structure Rounded where
  code : Nat
  flags : Nat
  deriving DecidableEq, Repr

namespace FloatFmt

/-- Round a nonzero number on the grid of exponent e: the chosen value. -/
def roundAt (rnd : Rnd) (u : Int) (x : Rat) : Rat :=
  let y := x / pow2 u
  let lo := y.floor
  if (lo : Rat) = y then x
  else choose rnd (lo * pow2 u) ((lo + 1) * pow2 u) x (lo % 2 == 0)

/-- The value that decides tininess (R124). -/
def tinyValue (f : FloatFmt) (rnd : Rnd) (x chosen : Rat) : Rat :=
  match rnd with
  | .stochastic _ => chosen
  | _ => roundAt rnd (floorLog2 (rabs x) - f.fbits) x

/-- Overflow gives an infinity under this rounding, for this sign (R140). -/
def overflowsToInf (rnd : Rnd) (neg : Bool) : Bool := match rnd with
  | .nearestEven | .nearestAway | .stochastic _ => true
  | .up => !neg
  | .down => neg
  | .zero => false

/-- Round a nonzero number into the format. -/
def round (f : FloatFmt) (rnd : Rnd) (x : Rat) : Rounded :=
  let neg := decide (x < 0)
  let v := roundAt rnd (f.ulpExp (rabs x)) x
  if f.maxFinite < rabs v then
    if f.ieee then
      { code := if overflowsToInf rnd neg then f.infinity neg else f.largest neg, flags := flOverflow ||| flInexact }
    else { code := f.largest neg, flags := flSaturate ||| flInexact }
  else
    let tiny := rabs (f.tinyValue rnd x v) < f.minNormal
    { code := f.encodeMag neg (rabs v)
      flags := if v = x then 0 else flInexact ||| (if tiny then flUnderflow else 0) }

/-- A NaN carried into an IEEE format (R125). -/
def carryNan (f : FloatFmt) (neg : Bool) (frac width : Nat) : Nat :=
  let top := if f.fbits ≤ width then frac >>> (width - f.fbits) else frac <<< (f.fbits - width)
  f.signBit neg + (2 ^ f.ebits - 1) <<< f.fbits + (top ||| 2 ^ (f.fbits - 1))

/-- Any value into the format (R137–R141). -/
def convert (f : FloatFmt) (rnd : Rnd) (v : FVal) : Rounded :=
  match v with
  | .fin q => if q = 0 then { code := f.zero false, flags := 0 } else f.round rnd q
  | .negZero => { code := f.zero true, flags := 0 }
  | .inf neg => if f.ieee then { code := f.infinity neg, flags := 0 } else { code := 0x80, flags := flInvalid }
  | .nan neg quiet frac width =>
    if f.ieee then { code := f.carryNan neg frac width, flags := if quiet then 0 else flInvalid }
    else { code := 0x80, flags := flInvalid }
  | .shortNan => { code := f.canonicalNan, flags := 0 }

end FloatFmt

/-! ### I8 and G4 (R128, R129) -/

/-- The levels of G4 by code. -/
def g4Level (c : Nat) : Int :=
  ([0, 6, 14, 24, 37, 54, 78, 120, -99, -6, -14, -24, -37, -54, -78, -120] : List Int).getD (c % 16) 0

def g4Code (l : Int) : Nat := ((List.range 16).find? fun c => g4Level c == l).getD 0

/-- The levels in rising order. -/
def g4Grid : List Int := [-120, -99, -78, -54, -37, -24, -14, -6, 0, 6, 14, 24, 37, 54, 78, 120]

def i8Value (c : Nat) : Int := signed 8 c

/-- Round a number to an I8 code (R137, R140). -/
def roundI8 (rnd : Rnd) (x : Rat) : Rounded :=
  let v := FloatFmt.roundAt rnd 0 x
  if 127 < v then { code := 0x7F, flags := flSaturate ||| flInexact }
  else if v < -128 then { code := 0x80, flags := flSaturate ||| flInexact }
  else { code := unsigned 8 v.num, flags := if v = x then 0 else flInexact }

/-- Round a number to a G4 code: a tie goes to the level of smaller magnitude under ties-to-even. -/
def roundG4 (rnd : Rnd) (x : Rat) : Rounded :=
  if 120 < x then { code := 7, flags := flSaturate ||| flInexact }
  else if x < -120 then { code := 15, flags := flSaturate ||| flInexact }
  else
    let a : Int := ((g4Grid.filter fun (l : Int) => (l : Rat) ≤ x).getLast?).getD 0
    let c : Int := ((g4Grid.filter fun (l : Int) => x ≤ (l : Rat)).head?).getD 0
    if a = c then { code := g4Code a, flags := 0 }
    else
      let v := choose rnd a c x (a.natAbs < c.natAbs)
      { code := g4Code v.num, flags := flInexact }

/-- Any value into I8 or G4 (R141). -/
def toGrid (g4 : Bool) (rnd : Rnd) (v : FVal) : Rounded :=
  match v with
  | .fin q => if g4 then roundG4 rnd q else roundI8 rnd q
  | .negZero => { code := 0, flags := 0 }
  | .inf neg => { code := if g4 then (if neg then 15 else 7) else if neg then 0x80 else 0x7F, flags := flInvalid }
  | .nan _ _ _ _ | .shortNan => { code := 0, flags := flInvalid }

/-! ### Every format by its code (R117) -/

/-- What a code of a format stands for, before any scale. -/
def decodeFmt (fmt c : Nat) : FVal :=
  match floatFmt fmt with
  | some f => f.decode c
  | none => .fin (if fmt = 7 then g4Level c else i8Value c)

/-- One conversion: the exact value rounded once into a format. -/
def convertTo (fmt : Nat) (rnd : Rnd) (v : FVal) : Rounded :=
  match floatFmt fmt with
  | some f => f.convert rnd v
  | none => toGrid (fmt == 7) rnd v

/-- The largest finite magnitude F of a format (R123, R134). -/
def largestOf (fmt : Nat) : Rat :=
  match floatFmt fmt with
  | some f => f.maxFinite
  | none => if fmt = 7 then 120 else 127

/-- A value times a positive number. -/
def scaleBy (v : FVal) (s : Rat) : FVal := match v with
  | .fin q => .fin (q * s)
  | _ => v

/-- A binary32 code, and its value. -/
def b32 (w : Word) : FVal := decodeFmt 1 w.toNat
/-- A number into binary32. -/
def toB32 (rnd : Rnd) (v : FVal) : Rounded := convertTo 1 rnd v
def canonical32 : Nat := 0x7FC00000

/-! ### Amax registers (R134) -/

/-- Gather a value into an amax, for a stored format. -/
def gatherAmax (a : Amax) (v : FVal) (fmt : Nat) : Amax :=
  if v.isNan then a
  else
    let m := match v with
      | .inf _ => 0x7F800000
      | .fin q => if q = 0 then 0 else (toB32 .up (.fin (rabs q))).code
      | _ => 0
    { a with amax := BitVec.ofNat 32 (max a.amax.toNat m), maxCode := fmt }

/-- The scale a latch gives a register: the power of two of R134, for a finite nonzero amax. -/
def latchScale (a : Amax) : Word :=
  if a.amax = 0 ∨ 0x7F800000 ≤ a.amax.toNat then a.scale
  else
    let k := max (-149) (min 127 (ceilLog2 ((b32 a.amax).num / largestOf a.maxCode)))
    BitVec.ofNat 32 (toB32 .nearestEven (.fin (pow2 k))).code

/-- The latch of one register. -/
def latchReg (a : Amax) : Amax := { a with scale := latchScale a, amax := 0 }

/-! ### Tiles as codes -/

/-- Bits of one element of a stored format. -/
def elemBits (fmt : Nat) : Nat := if fmt = 0 then 64 else if fmt = 1 then 32 else if fmt = 2 ∨ fmt = 3 then 16
  else if fmt = 7 then 4 else 8

/-- The 1,024 codes of a stored tile, element (0, 0) first. -/
def tileCodes (fmt : Nat) (b : Bytes) : List Nat :=
  if fmt = 7 then b.flatMap fun x => [x.toNat % 16, x.toNat / 16]
  else (chunks (elemBits fmt / 8) 1024 b).map leNat

/-- Pairs of G4 codes as bytes, the even index in the low half. -/
def packNibbles : List Nat → Bytes
  | a :: c :: rest => BitVec.ofNat 8 (a % 16 + 16 * (c % 16)) :: packNibbles rest
  | [a] => [BitVec.ofNat 8 (a % 16)]
  | [] => []

/-- A tile of codes as stored bytes. -/
def tileBytes (fmt : Nat) (codes : List Nat) : Bytes :=
  if fmt = 7 then packNibbles codes else codes.flatMap fun c => leBytes (elemBits fmt / 8) c

/-- The transpose of a 32 × 32 tile. -/
def transposeTile {α : Type} (d : α) (l : List α) : List α :=
  (List.range 1024).map fun e => l.getD (e % 32 * 32 + e / 32) d

/-! ### Loads (R131, R136, R144) -/

/-- What a load delivers: 1,024 codes of the compute format with the flags of each element by stored position, and
the group scales and row bases that came with them. -/
structure Loaded where
  codes : List Nat
  flags : List Nat
  groups : List Int
  bases : List Int
  deriving DecidableEq, Repr

/-- The rounding of a format word's conversion: the draw of an element where it is stochastic (R116). -/
def convertRnd (f : FormatWord) (modeRnd : Nat) (draw : Word) : Rnd :=
  if f.round = 1 then .stochastic draw else if f.round = 2 then rndOf modeRnd else .nearestEven

/-- The decode of an MB8 code under its block scale (R136): second moment where the flag is set. -/
def decodeMb8 (second : Bool) (s : Word) (c : Nat) : Rounded :=
  match b32 s with
  | .fin q => toB32 .nearestEven (.fin (if second then q * (c * c : Nat) / 65025 else q * i8Value c))
  | .negZero => { code := 0, flags := 0 }
  | _ => { code := canonical32, flags := 0 }

/-- A load of one tile through a format word, with its record and tensor scale; draws give each element's draw. -/
def loadTile (f : FormatWord) (second : Bool) (modeRnd : Nat) (t : Rat) (tile record : Bytes) (draws : List Word) : Loaded :=
  let codes := tileCodes f.stored tile
  let quant := f.stored = 6 ∨ f.stored = 7
  let rec_ := decide quant && hasRecords f
  let g (i : Nat) : Int := if rec_ ∧ f.group ≠ 0 then (nbits (fieldLE record i 1) 0 5 : Nat) else 0
  let b (i : Nat) : Int := if rec_ ∧ f.rowBase then signed 8 (fieldLE record (32 + i) 1) else 0
  let badGroup (i : Nat) : Nat := if rec_ ∧ nbits (fieldLE record i 1) 5 3 ≠ 0 then flInvalid else 0
  let rs : List Rounded := codes.zipIdx.map fun x =>
    let i := x.2 / 32
    if f.stored = 8 then decodeMb8 second (wordOf record (i / 4)) x.1
    else if f.stored = f.compute then { code := x.1, flags := badGroup i }
    else
      let r := convertTo f.compute (convertRnd f modeRnd (draws.getD x.2 0)) (scaleBy (decodeFmt f.stored x.1) (pow2 (g i + b i) * t))
      { r with flags := r.flags ||| badGroup i }
  let same := f.stored = f.compute
  { codes := rs.map (·.code), flags := rs.map (·.flags)
    groups := (List.range 32).map fun i => if same then g i else 0
    bases := (List.range 32).map fun i => if same then b i else 0 }

/-! ### Stores (R136, R145) -/

/-- What a store writes for one tile: bytes, record bytes (none where there is none) and the flags of each element. -/
structure Stored where
  tile : Bytes
  record : Bytes
  flags : List Nat
  deriving DecidableEq, Repr

/-- The group shift of a run of values already divided by T (R145). -/
def groupShift (qmax : Rat) (base : Int) (vs : List FVal) : Int :=
  let ms := vs.filterMap fun v => match v with
    | .fin q => some (rabs q)
    | .negZero => some 0
    | _ => none
  let m := ms.foldl max 0
  if m = 0 ∨ vs.any FVal.isInf then 0
  else min 31 (max 0 (ceilLog2 (m / qmax) - base))

/-- The largest magnitude of a block and its scale (R136): a NaN element makes it the canonical NaN. -/
def mb8Scale (second : Bool) (vs : List FVal) : Nat :=
  if vs.any fun v => v.isNan || v.isInf then canonical32
  else
    let m := (vs.map fun v => if second then max v.num 0 else rabs v.num).foldl max 0
    if m = 0 then 0 else (toB32 .up (.fin (if second then m else m / 127))).code

/-- round(255 × √(v / s)) from the exact root (R136): y is 65,025 × v / s. -/
def roundRoot (rnd : Rnd) (y : Rat) : Rounded :=
  let lo := Nat.sqrt y.floor.toNat
  if ((lo * lo : Nat) : Rat) = y then { code := lo, flags := 0 }
  else
    let half : Rat := ((2 * lo + 1) * (2 * lo + 1) : Nat) / 4
    let hi := match rnd with
      | .up => true
      | .down | .zero => false
      | .nearestEven => if y = half then lo % 2 == 1 else decide (half < y)
      | .nearestAway => decide (half ≤ y)
      | .stochastic r => decide (r.toNat + lo * 4294967296 < Nat.sqrt (y * 18446744073709551616).floor.toNat)
    { code := if hi then lo + 1 else lo, flags := flInexact }

/-- One MB8 element under its block's scale code. -/
def encodeMb8 (second : Bool) (rnd : Rnd) (s : Nat) (v : FVal) : Rounded :=
  if v.isNan || v.isInf then { code := 0, flags := flInvalid }
  else
    let neg := if second ∧ v.num < 0 ∧ s ≠ canonical32 then flInvalid else 0
    if s = 0 ∨ s = canonical32 then { code := 0, flags := neg }
    else
      let sv := (b32 (BitVec.ofNat 32 s)).num
      if second then
        if v.num < 0 then { code := 0, flags := neg } else roundRoot rnd (65025 * v.num / sv)
      else roundI8 rnd (v.num / sv)

/-- A store of one tile that holds no group of its own: binary, MB8, or I8 and G4 with shifts given by row. An identity
store of I8 or G4 whose word has group or row_base writes a record of zeros, where the spec gives none (DESIGN CHOICE, log
entry 119). -/
def storeTile (f : FormatWord) (second : Bool) (modeRnd : Nat) (t : Rat) (shifts bases : List Int) (codes : List Nat)
    (draws : List Word) : Stored :=
  let vals := codes.map (decodeFmt f.compute)
  let rnd (e : Nat) : Rnd := convertRnd f modeRnd (draws.getD e 0)
  if f.stored = 8 then
    let scales := (List.range 8).map fun k => mb8Scale second ((vals.drop (128 * k)).take 128)
    let rs := vals.zipIdx.map fun x => encodeMb8 second (rnd x.2) (scales.getD (x.2 / 128) 0) x.1
    { tile := tileBytes 6 (rs.map (·.code)), record := scales.flatMap (leBytes 4), flags := rs.map (·.flags) }
  else
    let quant := f.stored = 6 ∨ f.stored = 7
    let rs : List Rounded := (codes.zip vals).zipIdx.map fun x =>
      if f.stored = f.compute then { code := x.1.1, flags := 0 }
      else
        let i := x.2 / 32
        let e := if quant then shifts.getD i 0 + bases.getD i 0 else 0
        convertTo f.stored (rnd x.2) (scaleBy x.1.2 (1 / (t * pow2 e)))
    { tile := tileBytes f.stored (rs.map (·.code))
      record := if quant ∧ hasRecords f then
          ((List.range 32).flatMap fun i => leBytes 1 (unsigned 8 (if f.group = 0 then 0 else shifts.getD i 0)))
            ++ (List.range 32).flatMap fun i => leBytes 1 (unsigned 8 (if f.rowBase then bases.getD i 0 else 0))
        else []
      flags := rs.map (·.flags) }

/-- The shifts of the rows of a group of tiles stored from a float compute format into I8 or G4 (R145). -/
def rowShifts (f : FormatWord) (t : Rat) (bases : List Int) (tiles : List (List Nat)) : List Int :=
  (List.range 32).map fun i =>
    if f.group = 0 ∨ f.stored = f.compute then 0
    else
      let vs := tiles.flatMap fun codes => ((codes.drop (32 * i)).take 32).map fun c => scaleBy (decodeFmt f.compute c) (1 / t)
      groupShift (if f.stored = 7 then 120 else 127) (bases.getD i 0) vs

/-- Tiles of one group of a format word (R131). -/
def groupTiles (f : FormatWord) : Nat := if f.group = 2 then 2 else if f.group = 3 then 4 else 1

end Sys2Proof.Machine
end

