-- ==== Sys2Proof/Machine/Reals.lean ====
section
/-!
DEFINITION. The functions of R189 that the spec bounds and does not fix: exact approximations of their values, far
closer than any bound, and the choice within the bound, which is a free value (log entry 7); and the draws of R177.
-/
namespace Sys2Proof.Machine

/-! ### Fixed-point approximations -/

/-- Fraction bits of the approximations; an argument of the cosine is reduced with more. -/
abbrev fxBits : Nat := 240
abbrev fxWide : Nat := 1400

def toFx (q : Rat) : Int := (q * ((2 ^ fxBits : Nat) : Rat)).floor
def ofFx (x : Int) : Rat := (x : Rat) / ((2 ^ fxBits : Nat) : Rat)
def fxMul (a b : Int) : Int := a * b / 2 ^ fxBits

/-- e^r for |r| below 1. -/
def expSeries (r : Int) : Int :=
  (List.range 70).foldr (fun n acc => 2 ^ fxBits + fxMul r acc / (n + 1 : Nat)) (2 ^ fxBits)

/-- Twice the area tangent of t, for |t| at most 1/3. -/
def atanhTwice (t : Int) : Int :=
  let t2 := fxMul t t
  fxMul (2 * t) ((List.range 90).foldr (fun n acc => 2 ^ fxBits / (2 * n + 1 : Nat) + fxMul t2 acc) 0)

/-- ln 2. -/
def ln2 : Rat := ofFx (atanhTwice (toFx (1 / 3)))

/-- The arc tangent of 1/k with a number of fraction bits. -/
def atanInv (bits k : Nat) : Int :=
  (List.range (bits / 4 + 2)).foldr (fun n acc =>
    ((2 ^ bits / k : Nat) : Int) / (2 * n + 1 : Nat) - acc / (k * k : Nat)) 0

/-- π. -/
def piWide : Rat := ((16 * atanInv fxWide 5 - 4 * atanInv fxWide 239 : Int) : Rat) / ((2 ^ fxWide : Nat) : Rat)

/-- e^x; far beyond every format's range the argument is limited. -/
def expR (x : Rat) : Rat :=
  let y := max (-1200) (min 1200 x)
  let k := (y / ln2).floor
  ofFx (expSeries (toFx (y - k * ln2))) * pow2 k

/-- ln x of a positive number. -/
def lnR (x : Rat) : Rat :=
  let e := floorLog2 x
  let m := x / pow2 e
  ofFx (atanhTwice (toFx ((m - 1) / (m + 1)))) + e * ln2

/-- The cosine of an angle within one turn, in radians. -/
def cosSeries (r : Rat) : Rat :=
  let x := toFx r
  let x2 := fxMul x x
  ofFx ((List.range 60).foldr (fun n acc => 2 ^ fxBits - fxMul x2 acc / ((2 * n + 1) * (2 * n + 2) : Nat)) (2 ^ fxBits))

/-- cos x. -/
def cosR (x : Rat) : Rat :=
  let turns := (x / (2 * piWide) + 1 / 2).floor
  cosSeries (x - turns * (2 * piWide))

/-- cos 2πu for 0 ≤ u < 1, exact zeros at a quarter and three quarters. -/
def cosTurn (u : Rat) : Rat := if u = 1 / 4 ∨ u = 3 / 4 then 0 else cosSeries ((if u ≤ 1 / 2 then u else u - 1) * (2 * piWide))

/-- √x of a number that is not negative, from below. -/
def sqrtR (x : Rat) : Rat :=
  let k := (if x = 0 then 0 else floorLog2 x) / 2
  ofFx (Nat.sqrt ((x / pow2 (2 * k)) * ((2 ^ (2 * fxBits) : Nat) : Rat)).floor.toNat) * pow2 k

/-- The exact square root, where it is rational. -/
def exactSqrt (x : Rat) : Option Rat :=
  let a := Nat.sqrt x.num.natAbs
  let b := Nat.sqrt x.den
  if a * a = x.num.natAbs ∧ b * b = x.den then some ((a : Rat) / (b : Rat)) else none

def sigmoidR (x : Rat) : Rat := 1 / (1 + expR (-x))

def tanhR (x : Rat) : Rat :=
  if rabs x < 1 / 1048576 then x * (1 - x ^ 2 / 3 + 2 * x ^ 4 / 15 - 17 * x ^ 6 / 315)
  else 2 * sigmoidR (2 * x) - 1

/-- √(2/π). -/
def geluRoot : Rat := sqrtR (2 / piWide)

/-- x × sigmoid(t). Where t lies below −1000 the product is negative and nearer 0 than 2^−1200 for every x of a format, so
a number there stands for it. -/
def gated (x t : Rat) : Rat := if t < -1000 then 0 - pow2 (-1200) else x * sigmoidR t

def geluR (x : Rat) : Rat := gated x (2 * geluRoot * (x + 44715 * x ^ 3 / 1000000))
def siluR (x : Rat) : Rat := gated x x

/-! ### A result within a bound -/

/-- The grid values of a format within n ulp of a number, rising. -/
def withinUlps (f : FloatFmt) (n : Nat) (v : Rat) : List Rat :=
  let u := f.ulpExp (rabs v)
  let lo := (v / pow2 u).floor
  ((List.range (2 * n + 2)).map fun (i : Nat) => (lo - (n : Int) + (i : Int) : Int)).filterMap fun (m : Int) =>
    let g := (m : Rat) * pow2 u
    if rabs (g - v) ≤ (n + pow2 (-100)) * pow2 u ∧ rabs g ≤ f.maxFinite then some g else none

/-- A format by its code, binary32 by default. -/
def fmtOf (p : Nat) : FloatFmt := (floatFmt p).getD { ebits := 8, fbits := 23, bias := 127, ieee := true }

/-- The result of a bounded function of an argument: v is its value to far better than the bound, exact its exact value
where it is rational. The choice within the bound is the function's own at that exact argument, whoever applies it. -/
def bounded (p fn n : Nat) (minusZero : Bool) (arg v : Rat) (exact : Option Rat) : Rounded :=
  let f := fmtOf p
  if f.maxFinite < rabs v then { code := f.infinity (v < 0), flags := flOverflow ||| flInexact }
  else
    let cs := withinUlps f n v
    let g := cs.getD (Config.transcendental fn p minusZero arg % cs.length) v
    let inexact := exact ≠ some g
    { code := f.encodeMag (v < 0) (rabs g)
      flags := if inexact then flInexact ||| (if rabs g < f.minNormal then flUnderflow else 0) else 0 }

/-! ### Exponentials of differences (R189) -/

/-- Function numbers of the free choices: op codes of R187, and the cosine of turns (R177). -/
abbrev fnExp : Nat := 0x15
abbrev fnLog : Nat := 0x16
abbrev fnCos : Nat := 0x17
abbrev fnCosTurn : Nat := 0x42

/-- LOG of a positive number (R189): 0 at 1. -/
def logOf (p : Nat) (x : Rat) : Rounded :=
  if x = 1 then { code := 0, flags := 0 } else bounded p fnLog 1 false x (lnR x) none

/-- EXP of a number. -/
def expOf (p : Nat) (minusZero : Bool) (x : Rat) : Rounded :=
  bounded p fnExp 1 minusZero x (expR x) (if x = 0 then some 1 else none)

/-- COS of a number. -/
def cosOf (p : Nat) (minusZero : Bool) (x : Rat) : Rounded :=
  bounded p fnCos 1 minusZero x (cosR x) (if x = 0 then some 1 else none)

/-- exp(a − b) of two values of a precision. -/
def expDiff (p : Nat) (ca cb : Nat) : Rounded :=
  let a := decodeFmt p ca
  let b := decodeFmt p cb
  let f := fmtOf p
  if a.isNan || b.isNan then { code := f.canonicalNan, flags := if a.isSnan || b.isSnan then flInvalid else 0 }
  else if a = b then { code := f.encodeMag false 1, flags := 0 }
  else match a, b with
  | .inf true, _ => { code := 0, flags := 0 }
  | _, .inf false => { code := 0, flags := 0 }
  | .inf false, _ => { code := f.infinity false, flags := 0 }
  | _, .inf true => { code := f.infinity false, flags := 0 }
  | _, _ =>
    let d := a.num - b.num
    if d = 0 then { code := f.encodeMag false 1, flags := 0 }
    else expOf p false d

/-! ### Draws (R177) -/

/-- r >> 8. -/
def upper24 (r : Word) : Nat := r.toNat / 256

def uniformDraw (r : Word) : Nat := (toB32 .nearestEven (.fin ((upper24 r : Rat) / 16777216))).code

/-- ln of an exact positive number as LOG gives it in binary32. -/
def drawLn (x : Rat) : Rat := (decodeFmt 1 (logOf 1 x).code).num

/-- cos 2πu as COS gives it in binary32 on the exact product, exact at the quarters; no turn but 0 has a rational angle. -/
def drawCos (u : Rat) : Rat :=
  let c := cosTurn u
  let r := if u = 0 then cosOf 1 false 0 else bounded 1 fnCosTurn 1 false u c (if u = 1 / 2 then some (-1) else none)
  if c = 0 then 0 else (decodeFmt 1 r.code).num

/-- A binary32 square root to nearest even of an exact number. -/
def sqrtNearest (p : Nat) (rnd : Rnd) (x : Rat) : Rounded :=
  match exactSqrt x with
  | some r => (fmtOf p).convert rnd (.fin r)
  | none =>
    -- the approximation from below, moved off the grid: it lies strictly between the same grid values and midpoints
    (fmtOf p).round rnd (sqrtR x + pow2 (floorLog2 (sqrtR x) - 200))

def normalDraw (r1 r2 : Word) : Nat :=
  let u1 : Rat := ((upper24 r1 + 1 : Nat) : Rat) / 16777216
  let l := -2 * drawLn u1
  let root := (decodeFmt 1 (if l = 0 then 0 else (sqrtNearest 1 .nearestEven l).code)).num
  let cosv := drawCos ((upper24 r2 : Rat) / 16777216)
  (toB32 .nearestEven (ofSigned (root * cosv) (cosv < 0))).code

def gumbelDraw (r : Word) : Rat :=
  let u : Rat := ((2 * upper24 r + 1 : Nat) : Rat) / 33554432
  0 - drawLn (0 - drawLn u)

end Sys2Proof.Machine
end

