-- ==== Sys2Proof/Machine/Lanes.lean ====
section
/-!
DEFINITION. The element operations of the lanes (R187–R190, R194): each takes the codes of a value and its operand in
the chain's precision (format code 1 or 0) and gives a code and flags.
-/
namespace Sys2Proof.Machine

/-! ### IEEE operations on exact values -/

/-- A NaN result: canonical, invalid where an input signals (R189). -/
def nanResult (p : Nat) (vs : List FVal) : Rounded :=
  { code := (fmtOf p).canonicalNan, flags := if vs.any FVal.isSnan then flInvalid else 0 }

def invalidResult (p : Nat) : Rounded := { code := (fmtOf p).canonicalNan, flags := flInvalid }

/-- The other sign. -/
def negVal (v : FVal) : FVal := match v with
  | .fin q => if q = 0 then .negZero else .fin (-q)
  | .negZero => .fin 0
  | .inf n => .inf (!n)
  | .nan n q f w => .nan (!n) q f w
  | .shortNan => .shortNan

/-- A zero with a sign. -/
def zeroVal (neg : Bool) : FVal := if neg then .negZero else .fin 0

def isZero (v : FVal) : Bool := match v with
  | .fin q => q == 0
  | .negZero => true
  | _ => false

/-- a + b, rounded once. -/
def addOf (p : Nat) (rnd : Rnd) (a b : FVal) : Rounded :=
  if a.isNan || b.isNan then nanResult p [a, b]
  else match a, b with
  | .inf x, .inf y => if x = y then (fmtOf p).convert rnd a else invalidResult p
  | .inf _, _ => (fmtOf p).convert rnd a
  | _, .inf _ => (fmtOf p).convert rnd b
  | _, _ =>
    if isZero a && isZero b then
      (fmtOf p).convert rnd (zeroVal (if a.isNeg = b.isNeg then a.isNeg else rnd = .down))
    else
      let q := a.num + b.num
      (fmtOf p).convert rnd (if q = 0 then zeroVal (rnd = .down) else .fin q)

/-- a × b, rounded once. -/
def mulOf (p : Nat) (rnd : Rnd) (a b : FVal) : Rounded :=
  if a.isNan || b.isNan then nanResult p [a, b]
  else
    let neg := a.isNeg != b.isNeg
    if a.isInf || b.isInf then
      if isZero a || isZero b then invalidResult p else (fmtOf p).convert rnd (.inf neg)
    else (fmtOf p).convert rnd (ofSigned (a.num * b.num) neg)

/-- The maximum or minimum of IEEE 754-2019, −0 below +0. -/
def pickOf (p : Nat) (larger : Bool) (ca cb : Nat) : Rounded :=
  let a := decodeFmt p ca
  let b := decodeFmt p cb
  let below : Bool := match a, b with
    | .inf true, _ => true
    | _, .inf true => false
    | _, .inf false => true
    | .inf false, _ => false
    | _, _ => if isZero a && isZero b then a.isNeg else a.num < b.num
  if a.isNan || b.isNan then nanResult p [a, b] else { code := if below = larger then cb else ca, flags := 0 }

def signMask (p : Nat) : Nat := if p = 0 then 2 ^ 63 else 2 ^ 31

/-- |v| with a sign; a NaN gives the canonical NaN and raises nothing. -/
def withSign (p v : Nat) (neg : Bool) : Rounded :=
  { code := if (decodeFmt p v).isNan then (fmtOf p).canonicalNan else v % signMask p + (if neg then signMask p else 0), flags := 0 }

def recipOf (p : Nat) (rnd : Rnd) (v : FVal) : Rounded :=
  if v.isNan then nanResult p [v]
  else if isZero v then { code := (fmtOf p).infinity v.isNeg, flags := flDivZero }
  else if v.isInf then { code := (fmtOf p).zero v.isNeg, flags := 0 }
  else (fmtOf p).round rnd (1 / v.num)

def sqrtOf (p : Nat) (rnd : Rnd) (v : FVal) : Rounded :=
  if v.isNan then nanResult p [v]
  else if isZero v then { code := (fmtOf p).zero v.isNeg, flags := 0 }
  else if v.isNeg then invalidResult p
  else if v.isInf then { code := (fmtOf p).infinity false, flags := 0 }
  else sqrtNearest p rnd v.num

/-! ### The bounded functions (R189) -/

/-- Infinities and zeros of an operation of the table, and its finite value: what the table or the formula gives. -/
def specialOf (p op : Nat) (v : FVal) : Option Rounded :=
  let f := fmtOf p
  let plain (c : Nat) : Option Rounded := some { code := c, flags := 0 }
  let one := f.encodeMag false 1
  if v.isNan then some (nanResult p [v])
  else if op = 0x14 then
    if isZero v then some { code := f.infinity v.isNeg, flags := flDivZero }
    else if v.isNeg then some (invalidResult p) else if v.isInf then plain (f.zero false) else none
  else if op = 0x15 then if v.isInf then plain (if v.isNeg then f.zero false else f.infinity false) else none
  else if op = 0x16 then
    if isZero v then some { code := f.infinity true, flags := flDivZero }
    else if v.isNeg then some (invalidResult p)
    else if v.isInf then plain (f.infinity false) else if v.num = 1 then plain (f.zero false) else none
  else if op = 0x17 then if v.isInf then some (invalidResult p) else none
  else if op = 0x18 then
    if v.isInf then plain (f.signBit v.isNeg + one) else if isZero v then plain (f.zero v.isNeg) else none
  else if op = 0x19 then if v.isInf then plain (if v.isNeg then f.zero false else one) else none
  else if v.isInf then plain (if v.isNeg then f.zero true else f.infinity false)
  else if isZero v then plain (f.zero v.isNeg) else none

/-- A bounded function at a finite number (R189): EXP, LOG and COS are those of the draws (R177) and of differences. -/
def boundedAt (p op : Nat) (mz : Bool) (x : Rat) : Rounded :=
  if op = 0x14 then bounded p op 1 mz x (1 / sqrtR x) ((exactSqrt x).map fun r => 1 / r)
  else if op = 0x15 then expOf p mz x
  else if op = 0x16 then logOf p x
  else if op = 0x17 then cosOf p mz x
  else if op = 0x18 then bounded p op 2 mz x (tanhR x) none
  else if op = 0x19 then bounded p op 2 mz x (sigmoidR x) (if x = 0 then some (1 / 2) else none)
  else if op = 0x1A then bounded p op 2 mz x (geluR x) none
  else bounded p op 2 mz x (siluR x) none

/-- RSQRT, EXP, LOG, COS, TANH, SIGMOID, GELU and SILU. -/
def boundedOf (p op v : Nat) : Rounded :=
  match specialOf p op (decodeFmt p v) with
  | some r => r
  | none => boundedAt p op (decodeFmt p v == .negZero) (decodeFmt p v).num

/-! ### Conversion on the lanes (R194) -/

/-- Any value, widened exactly into the chain's precision, NaN canonical. -/
def widen (p : Nat) (v : FVal) : Nat :=
  if v.isNan then (fmtOf p).canonicalNan else ((fmtOf p).convert .nearestEven v).code

/-- CVT: one rounding into a format; binary32 converted to binary64 keeps its precision. -/
def cvtOf (p fmt : Nat) (rnd : Rnd) (v : Nat) : Rounded :=
  let r := convertTo fmt rnd (decodeFmt p v)
  { code := if fmt = 0 then widen p (decodeFmt p v) else widen p (decodeFmt fmt r.code), flags := r.flags }

/-- The rounding a CVT word names; a stochastic one with its draw (R194). -/
def cvtRounding (m : Memory) (w draw : Word) : Rnd :=
  if cvtRnd w = 5 then .stochastic draw else if cvtRnd w = 6 then rndOf (roundingOf m) else rndOf (cvtRnd w)

/-! ### One word on one element -/

/-- The immediate of src 0: a G16 code widened exactly, a NaN with its bits (R188). -/
def immOf (p : Nat) (w : Word) : Nat :=
  let v := decodeFmt 3 (epiImm w)
  if v.isNan then (fmtOf p).infinity v.isNeg + (epiImm w % 128) <<< ((fmtOf p).fbits - 7) else widen p v

/-- ADD, MUL, MAX, MIN, SUBR and COPYSIGN of a value and its operand. -/
def binaryOf (p : Nat) (rnd : Rnd) (op v a : Nat) : Rounded :=
  let x := decodeFmt p v
  let y := decodeFmt p a
  if op = 2 then addOf p rnd x y
  else if op = 3 then mulOf p rnd x y
  else if op = 4 then pickOf p true v a
  else if op = 5 then pickOf p false v a
  else if op = 0x21 then addOf p rnd y (negVal x)
  else withSign p v y.isNeg

/-- The operations on one value. -/
def unaryOf (p : Nat) (rnd : Rnd) (w : Word) (v : Nat) : Rounded :=
  let op := epiOp w
  let x := decodeFmt p v
  if op = 0x10 then withSign p v false
  else if op = 0x11 then withSign p v (!x.isNeg)
  else if op = 0x12 then recipOf p rnd x
  else if op = 0x13 then sqrtOf p rnd x
  else if op = 0x22 then
    if x.isNan then nanResult p [x] else (fmtOf p).convert rnd (scaleBy x (pow2 (scalebImm w)))
  else boundedOf p op v

/-- RAND of a value: kinds 0, 1 and 3, and the Gumbel noise of kind 2 (R190). -/
def randOf (p : Nat) (rnd : Rnd) (w : Word) (threshold : Nat) (v : Nat) (r1 r2 : Word) : Rounded :=
  if randKind w = 0 then { code := widen p (decodeFmt 1 (uniformDraw r1)), flags := 0 }
  else if randKind w = 1 then { code := widen p (decodeFmt 1 (normalDraw r1 r2)), flags := 0 }
  else if randKind w = 2 then addOf p rnd (decodeFmt p v) (.fin (gumbelDraw r1))
  else { code := if r1.toNat < threshold then v else 0, flags := 0 }

/-- The chain's precision as a format code (R186). -/
def chainFmt (m : Memory) : Nat := if chain64 m then 0 else 1

end Sys2Proof.Machine
end

