-- ==== Sys2Proof/Machine/Certs.lean ====
section
/-!
DEFINITION. The device's keys and certificates (R423–R426): what both Keystones derive from the fused seed, the
identity certificate's checks, and building and verifying the attestation-key certificate.
-/
namespace Sys2Proof.Machine

/-- DIK and BK of the fused seed (R423). -/
def dikPriv : Bytes := shake 57 (ascii "Gnolis identity" ++ Config.identitySeed)
def bkPriv : Bytes := shake 56 (ascii "Gnolis binding" ++ Config.identitySeed)
def dikPub : Bytes := edPublic dikPriv
def bkPub : Bytes := x448Public bkPriv

/-- The device id of a DIK public key, and the binding tag of a BK public key (R423). -/
def deviceIdOf (dik : Bytes) : Bytes := (digest dik).take 16
def bindingTagOf (bk : Bytes) : Bytes := (digest bk).take 16

/-- MG_DEVICE_ID of stepping A1 (R34). -/
abbrev mgDeviceId : Word := 0x4E475311

def allZero (b : Bytes) : Bool := b.all (· == 0)

/-- The signature and fixed fields of an identity certificate of 280 bytes (R424), the first thing R426 asks. -/
def identityCertOk (c : Bytes) : Bool :=
  c.length == 280 && fieldLE c 0 4 == 0x44494747 && fieldLE c 4 2 == 1 && fieldLE c 6 2 == 0x4E47
    && allZero (slice c 9 7) && allZero (slice c 145 15) && allZero (slice c 274 6)
    && edVerify Config.rootKey "Gnolis identity" (digest (c.take 160)) (slice c 160 114)

/-- The boot check of the device's own identity certificate (R424). -/
def ownIdentityOk (c : Bytes) : Bool := identityCertOk c && slice c 32 57 == dikPub && slice c 89 56 == bkPub

/-- The attestation-key certificate before its signature (R425). -/
def akCertHead (s : State) (akPub : Bytes) : Bytes :=
  leBytes 4 0x4B414747 ++ leBytes 2 1 ++ zeros 2 ++ s.cs.deviceId ++ akPub
    ++ [BitVec.ofNat 8 (bit01 s.footing.confidential), BitVec.ofNat 8 (bit01 s.boot.ftSlot)] ++ zeros 5
    ++ s.footing.digest ++ s.cs.fwDigest ++ s.cs.mortarDigest ++ s.cs.bootNonce ++ leBytes 8 s.cs.bootTick

/-- The attestation-key certificate of 624 bytes (R425), with the identity certificate of the boot flash. -/
def akCert (s : State) (akPub : Bytes) : Bytes :=
  let h := akCertHead s akPub
  h ++ edSign dikPriv "Gnolis attestation key" (digest h) ++ zeros 6 ++ aread 0xFF s.flash 0 280

/-- R426: what a verifier takes from a certificate it accepts, the AK and the BK public keys. -/
def verifyCert (c : Bytes) : Option (Bytes × Bytes) :=
  let id := slice c 344 280
  let dik := slice id 32 57
  if c.length == 624 && fieldLE c 0 4 == 0x4B414747 && fieldLE c 4 2 == 1 && allZero (slice c 6 2)
      && allZero (slice c 83 5) && allZero (slice c 338 6) && identityCertOk id
      && slice c 8 16 == deviceIdOf dik
      && edVerify dik "Gnolis attestation key" (digest (c.take 224)) (slice c 224 114)
  then some (slice c 24 57, slice id 89 56)
  else none

end Sys2Proof.Machine
end

