-- ==== Sys2Proof/Machine/Tiers.lean ====
section
/-!
DEFINITION. The tier mover (10_memory_tiers.md): acceptance, start, tiles and completion of its commands (R251–R257),
pins (R254), data errors of a tile's read (R257, R261, R274), mapping out a unit (R277, R278), and patrol scrub (R260).
-/
namespace Sys2Proof.Machine

/-! ### Arguments (R265) -/

def argTier (a1 : Word) : Nat := bits a1 0 2
def argBay (a1 : Word) : Nat := bits a1 2 6
def argOrder (a3 : Word) : Nat := bits a3 30 2
def tierOf (n : Nat) : Tier := if n = 1 then .loam else if n = 2 then .marl else .clay
def tierNum (t : Tier) : Nat := match t with
  | .clay => 0
  | .loam => 1
  | .marl => 2

/-- The command makes a Clay placement. -/
def placesClay (op : Nat) (a1 : Word) : Bool := op == 2 || ((op == 1 || op == 4) && argTier a1 == 0)

/-- A reserved command, or a nonzero reserved field beside it. -/
def cmdBad (op reserved : Nat) : Bool := reserved != 0 || op == 0 || 9 < op

/-- MG_TIER_ARG1 names a tier or a format the command cannot take. -/
def arg1Bad (op : Nat) (a1 : Word) : Bool :=
  ((op == 1 || op == 3 || op == 4) && argTier a1 == 3) || (op == 3 && argTier a1 == 0)
    || (op == 1 && bits a1 12 1 == 0 && 8 < bits a1 8 4)

/-- A CREATE's count is out of range. -/
def arg2Bad (op : Nat) (a1 a2 : Word) : Bool :=
  op == 1 && (a2.toNat == 0 || (bits a1 12 1 == 0 && 16777216 < a2.toNat))

/-- A placement's order is reserved, or bond order in a CREATE. -/
def arg3Bad (op : Nat) (a1 a3 : Word) : Bool :=
  (placesClay op a1 && argOrder a3 == 3) || (op == 1 && argTier a1 == 0 && argOrder a3 == 2)

/-- The first acceptance check (R252): reserved values and field ranges. -/
def tierArgsBad (op reserved : Nat) (a1 a2 a3 : Word) : Bool :=
  cmdBad op reserved || arg1Bad op a1 || arg2Bad op a1 a2 || arg3Bad op a1 a3

/-- The number QUERY shows for a command that holds the token. -/
def movementNum (op : Nat) : Nat := if op = 7 then 5 else if op = 8 then 6 else op

/-- The placement the arguments of a command name, with its ranks resolved (R237, R238). -/
def argPlacement (s : State) (id : Nat) (o : Obj) (a3 a4 : Word) : Placement :=
  let host := bits a3 0 6
  let first := bits a3 6 12
  let n := bits a3 18 12 + 1
  let z := tileSize o.bytesKind o.fmt
  let h := (bondGeom (s.objBytes id o 0 256)).headGranules
  { host := host, first := first, ranks := n, offset := bits a4 0 12, order := argOrder a3,
    base := (s.bay host).plan.base, bricks := ((s.bricksOf host).drop first).take n,
    granules := if argOrder a3 = 2 then h + 2 * n else n * perGranules o.tiles n z }

/-- The placement checks of R240. -/
def placementCode (s : State) (id : Nat) (o : Obj) (p : Placement) : Code :=
  let g := bondGeom (s.objBytes id o 0 256)
  if s.brickCount p.host < p.first + p.ranks
      ∨ (p.order ≠ 2 ∧ 4096 < perGranules o.tiles p.ranks (tileSize o.bytesKind o.fmt)) then eBadField
  else if p.order = 2 ∧ (p.first ≠ 0 ∨ p.ranks ≠ g.bricks ∨ 4096 < g.headGranules + 2) then eBadField
  else if p.order = 2 ∧ o.validated = none then eBondDigest
  else if !s.placeFree p then ePlaceOverlap
  else sOk

def destTier (c : TierCmd) : Tier := if c.op = 2 then .clay else tierOf (argTier c.arg1)

/-- Sectors of a tile map (R241). -/
def mapSectors (tiles : Nat) : Nat := (8 * tiles + 63) / 64

/-- A tile map entry (R241). -/
def mapEntryBytes (l : TileLoc) : Bytes := leBytes 1 l.unit ++ leBytes 1 l.count ++ leBytes 5 l.first ++ [0]

namespace State

/-! ### Tokens and completion (R252, R253) -/

/-- The command that holds an object's token: a running one, or its CREATE from acceptance. -/
def tokenHolder (s : State) (id : Nat) : Option TierCmd :=
  s.tier.cmds.find? fun c => c.obj == id && (c.running || c.op == 1)

def waiters (s : State) (id : Nat) : Nat := (s.tier.cmds.filter fun c => c.obj == id).length - 1

def setTierCmd (s : State) (c : TierCmd) : State :=
  { s with tier := { s.tier with cmds := s.tier.cmds.map fun x => if x.seq = c.seq then c else x } }

/-- The counters of a completion (R264). -/
def countDone (s : State) (c : TierCmd) (o : Option Obj) (code : Code) : State :=
  let owner := ownerOf c.obj
  let charged := match o with
    | some x => if x.residence = .clay then x.charged else owner
    | none => owner
  if code = sOk ∧ c.op = 2 then s.count (bayPromotes (argBay c.arg1)) 1
  else if code = sOk ∧ c.op = 3 then s.count (bayEvicts charged) 1
  else if code = eQuota then s.count (bayQuotaFail (if destTier c = .clay then argBay c.arg1 else owner)) 1
  else if code = eObjPinned then s.count (bayPinFail charged) 1
  else s

/-- A command ends with a completion entry; the object is as it was before its residence changed, for the
counters. A mark of R278 that waited for the token is made; the id of a failed CREATE stops being live. -/
def endCmd (s : State) (c : TierCmd) (was : Option Obj) (code : Code) : State :=
  let t := { s with tier := { s.tier with cmds := s.tier.cmds.filter fun x => x.seq != c.seq
                                          done := s.tier.done ++ [(c.seq, code)] } }
  let u := t.countDone c was code
  match u.obj c.obj with
  | none => u
  | some o =>
    if c.op = 1 ∧ code ≠ sOk then u.setObj c.obj none
    else if o.lostPending then u.setObj c.obj (some { o with lost := true, lostPending := false })
    else u

/-- A running movement ends with an error: its destination space and charges are released. -/
def abortCmd (s : State) (c : TierCmd) (code : Code) : State :=
  let t := if destTier c = .clay then s.releaseClay (argBay c.arg1) c.clayCharge
    else s.releaseSectors (destTier c) (ownerOf c.obj) c.sectorCharge
  t.endCmd c (t.obj c.obj) code

/-! ### Mapping out a unit (R278) -/

/-- The Keystone of a unit. -/
def unitSouth (u : Nat) : Bool := if u < 32 then 10 ≤ u else 34 ≤ u

def onUnit (u : Nat) (map : List TileLoc) (mapLoc : Option TileLoc) : Bool :=
  (map ++ mapLoc.toList).any fun l => l.unit == u

/-- Mark the objects with a tile or a tile map on a unit lost, at once or when their movement completes. -/
def loseOnUnit (s : State) (u : Nat) : State :=
  { s with objs := s.objs.map fun c => match c.2 with
    | some o =>
      if onUnit u o.map o.mapLoc then
        (c.1, some (if (s.tokenHolder c.1).isSome then { o with lostPending := true } else { o with lost := true }))
      else c
    | none => c }

/-- A unit is mapped out: it leaves its tier's list, movements writing to it end, it is switched off, every other object
on it is lost, and the slots kept on it are invalid (R278, R331). -/
def mapOut (s : State) (u cause : Nat) : State :=
  let v := s.unit u
  if v.state = .mappedOut ∨ v.state = .absent then s
  else
    let down := { v with state := .mappedOut, cause := cause, held := false, found := if v.state = .training then 0 else v.found }
    let t := ((s.setUnit u down).emit (.unitOff u)).degrade 2 (ksSource (unitSouth u)) eUnitDown u
    let writing := t.tier.cmds.filter fun c => c.running && onUnit u c.map c.mapLoc
    let w := writing.foldl (fun x c => x.abortCmd c eUnitDown) t
    (if w.ckpt.shares.contains u then
        { w with ckpt := { w.ckpt with
            shares := w.ckpt.shares.filter (· != u), shrunk := true, slots := w.ckpt.slots.filter (32 ≤ ·.1) } }
      else w).loseOnUnit u

/-! ### Reading a tile (R257, R261, R274) -/

/-- An uncorrectable sector counted on its channel: thresholds of R275. -/
def badSector (s : State) (u : Nat) (parity : Bool) : State :=
  if 32 ≤ u then s
  else
    let v := s.unit u
    let t := s.setUnit u { v with uncorr := v.uncorr + 1, parity := v.parity + bit01 parity }
    let w := if parity then (t.count (chUncorr u) 1).partner (chAddrPar u) (ksSource (unitSouth u)) sOk (BitVec.ofNat 32 u)
      else t.partner (chUncorr u) (ksSource (unitSouth u)) sOk (BitVec.ofNat 32 u)
    if 8 ≤ v.uncorr + 1 then w.mapOut u 2 else if parity ∧ 4 ≤ v.parity + 1 then w.mapOut u 3 else w

/-- The tier of a unit as R266 numbers sources. -/
def unitSource (u : Nat) : Nat := if u < 32 then 2 else 3

/-- An uncorrectable tile of a unit: counted and recorded. -/
def badTile (s : State) (id u sector : Nat) : State := (s.count memUncorr 1).recordErr (unitSource u) u false sector (some id)

/-- The brick and unit of a 256 B offset in tile k of an object in Clay. -/
def clayWhere (s : State) (id : Nat) (o : Obj) (k off : Nat) : Nat × Nat :=
  match o.place with
  | none => (0, 0)
  | some p =>
    let hit := (s.tileTargets id o p k).filter fun w => w.2.2.1 ≤ off * 256 && off * 256 < w.2.2.1 + w.2.2.2
    match hit.head? with
    | some w => (w.1, (w.2.1 + (off * 256 - w.2.2.1)) / 256 % 65536)
    | none => (p.bricks.headD 0, 0)

/-- An uncorrectable word of a brick's column: counted, recorded, its granule noted (R260, R263, R266). -/
def badWord (s : State) (n unit : Nat) (patrol : Bool) (obj : Option Nat) : State :=
  ((s.count memUncorr 1).recordErr 0 n patrol unit obj).noteGranule n (unit / 16)

/-- The 48-bit address of a sector (R258, R274). -/
def sectorNumber (u sector : Nat) : Nat := u * 2 ^ 40 + sector

/-- The 16-bit fold of a 48-bit address: bit i is what the address gives to p[i] of beat i (R274). -/
def addressFold (a : Nat) : Nat := a % 65536 ^^^ (a / 65536 % 65536 ^^^ a / 2 ^ 32 % 65536)

/-- Address parity bit of beat i of a sector (R274). -/
def addressParity (a i data : Nat) : Bool :=
  (addressFold a).testBit i != ((List.range 32).foldl (fun p j => p != data.testBit j) false)

/-- A sector whose check bits make it uncorrectable, and whether by address parity alone: the data being right, some p[i]
mismatches exactly where the two folds differ (R274). A CXL unit keeps no address parity. -/
def sectorBad (u sector : Nat) (r : SectorRead) : Option Bool := match r with
  | .corrected _ => none
  | .uncorrectable => some false
  | .writtenAt a => if u < 32 ∧ addressFold a ≠ addressFold (sectorNumber u sector) then some true else none

/-- Words or beats corrected in a read. -/
def correctedIn (r : TileRead) : Nat := (r.map fun x => match x.2 with
  | .corrected n => n
  | _ => 0).sum

/-- Read tile k of an object in Clay (R260). -/
def fetchClay (s : State) (id : Nat) (o : Obj) (k : Nat) (r : TileRead) : State × Option Bytes :=
  let t := s.corrected memCorr (correctedIn r)
  let bad := r.filter fun x => x.2 == .uncorrectable
  let u := bad.foldl (fun (u : State) x =>
    let w := s.clayWhere id o k x.1
    u.badWord w.1 w.2 false (some id)) t
  (u, if bad.isEmpty then s.readTile id o k else none)

/-- Read tile k of an object in Loam or Marl: its sectors' check bits, then the Sieve's checks (R247, R261, R274). -/
def fetchSectors (s : State) (id : Nat) (o : Obj) (k : Nat) (r : TileRead) : State × Option Bytes :=
  let l := o.map.getD k { unit := 0, count := 0, first := 0 }
  if (s.unit l.unit).state = .mappedOut then (s.badTile id l.unit l.first, none)
  else
    let t := if l.unit < 32 then s.corrected (chCorr l.unit) (correctedIn r) else s
    let bad := r.filterMap fun x => (sectorBad l.unit (l.first + x.1) x.2).map fun p => (x.1, p)
    match bad.head? with
    | some x => (bad.foldl (fun (u : State) y => u.badSector l.unit y.2) (t.badTile id l.unit (l.first + x.1)), none)
    | none => match s.readTile id o k with
      | some b => (t, some b)
      | none => ((t.count sieveBad 1).badTile id l.unit l.first, none)

/-- Read tile k of an object from its residence, with what its check bits showed: the state after, and the tile
where it is not uncorrectable. -/
def fetchTile (s : State) (id : Nat) (o : Obj) (k : Nat) (r : TileRead) : State × Option Bytes :=
  if o.residence = .clay then s.fetchClay id o k r else s.fetchSectors id o k r

/-- What a read of an object showed at a tile. -/
def tileRead (r : ObjRead) (k : Nat) : TileRead := ((r.find? fun x => x.1 == k).map (·.2)).getD []

/-- Read tiles k, k + 1, … of an object, n of them, tile by tile: none from the first uncorrectable one on. -/
def fetchTiles (s : State) (id : Nat) (o : Obj) (r : ObjRead) : Nat → Nat → State × Option (List Bytes)
  | _, 0 => (s, some [])
  | k, n + 1 =>
    let x := s.fetchTile id o k (tileRead r k)
    match x.2 with
    | none => (x.1, none)
    | some b =>
      let y := fetchTiles x.1 id o r (k + 1) n
      (y.1, y.2.map fun bs => b :: bs)

/-- A unit that holds a part of an object holds its requests, and serves none (R271, R282). -/
def objHeld (s : State) (o : Obj) : Bool :=
  o.residence != .clay && (o.map ++ o.mapLoc.toList).any fun l => (s.unit l.unit).held

def heldObj (s : State) (id : Nat) : Bool := ((s.obj id).map s.objHeld).getD false

/-! ### Acceptance (R252–R254) -/

/-- PIN is accepted (R254). -/
def pinOk (s : State) (id : Nat) (o : Obj) : Bool :=
  let held := ((s.tokenHolder id).map (·.op)).getD 0
  (o.residence == .clay && !(held == 3 || held == 4 || held == 7 || held == 8)) || held == 2

/-- QUERY: the MG_TIER_INFO registers (R265). -/
def fillInfo (s : State) (id : Nat) (o : Obj) : State :=
  let held := ((s.tokenHolder id).map (·.op)).getD 0
  { s with tier := { s.tier with
      info0 := BitVec.ofNat 32 (fieldAt 0 2 (tierNum o.residence) + fieldAt 2 3 (movementNum held)
        + fieldAt 5 1 (bit01 o.lost) + fieldAt 6 1 (bit01 o.validated.isSome)
        + fieldAt 7 6 (if o.residence = .clay then o.charged else 0)
        + fieldAt 13 4 (if o.bytesKind then 0xF else o.fmt)
        + fieldAt 17 3 (if held = 0 then 0 else s.waiters id))
      info1 := BitVec.ofNat 32 o.tiles
      infoPins := o.pins
      infoDev := BitVec.ofNat 32 (fieldAt 0 16 o.devPins) } }

/-- An object as its CREATE makes it (R235). -/
def newObj (a1 a2 : Word) : Obj :=
  let bytesKind := bits a1 12 1 == 1
  let fmt := bits a1 8 4
  let n := a2.toNat
  let tiles := if bytesKind then (n + 4095) / 4096 else n
  { bytesKind := bytesKind, fmt := fmt, tiles := tiles, size := if bytesKind then n else tiles * tileSize false fmt,
    residence := tierOf (argTier a1), creating := true, charged := argBay a1 }

/-- Queue an accepted command under the next sequence number. -/
def queueTier (s : State) (op id : Nat) (a1 a2 a3 a4 : Word) : State :=
  let seq := s.tier.seq % 65535 + 1
  let cmd : TierCmd := { seq := seq, op := op, obj := id, arg1 := a1, arg2 := a2, arg3 := a3, arg4 := a4 }
  let t := { s with tier := { s.tier with seq := seq, lastCode := sOk, cmds := s.tier.cmds ++ [cmd] } }
  if op = 1 then t.setObj id (some (newObj a1 a2)) else t

/-- The refusal of a tier command, the first that applies (R252); S_OK where it is accepted. -/
def tierCode (s : State) (op reserved id : Nat) (a1 a2 a3 : Word) : Code :=
  let o := s.obj id
  if tierArgsBad op reserved a1 a2 a3 then eBadField
  else if op = 1 ∧ o.isSome then eObjExists
  else if op ≠ 1 ∧ o.isNone then eNoSuchObject
  else if op = 1 ∧ 65536 ≤ s.objs.length then eTierFull
  else if (o.map (·.lost)).getD false ∧ op ≠ 7 ∧ op ≠ 9 then eObjLost
  else if op = 5 then (if (o.map (s.pinOk id)).getD false then sOk else eObjTier)
  else if op = 6 ∨ op = 9 then sOk
  else if 64 ≤ s.tier.cmds.length + s.tier.done.length then eTierBusy
  else if op ≠ 1 ∧ 4 ≤ s.waiters id then eObjBusy
  else sOk

/-- A write to MG_TIER_CTRL: command op with the reserved bits given (R251, R252). -/
def tierCtrl (s : State) (op reserved : Nat) : State :=
  let arg (i : Nat) : Word := s.tier.args.getD i 0
  let id := (arg 0).toNat
  let code := s.tierCode op reserved id (arg 1) (arg 2) (arg 3)
  let t := { s with tier := { s.tier with lastCode := code } }
  if code ≠ sOk then t
  else match s.obj id with
    | none => t.queueTier op id (arg 1) (arg 2) (arg 3) (arg 4)
    | some o =>
      if op = 5 then t.setObj id (some { o with pins := o.pins ||| (1 <<< argBay (arg 1)) })
      else if op = 6 then t.setObj id (some { o with pins := o.pins &&& ~~~((1 : DWord) <<< argBay (arg 1)) })
      else if op = 9 then t.fillInfo id o
      else t.queueTier op id (arg 1) (arg 2) (arg 3) (arg 4)

/-! ### Start (R240, R250, R252) -/

/-- A movement running needs one of 16 slots; DELETE and MARK_LOST move nothing. -/
def needsSlot (op : Nat) : Bool := op != 7 && op != 8

def running (s : State) : Nat := (s.tier.cmds.filter (·.running)).length

/-- The command may start: it waits, is first of its object, and a slot is free if it needs one. -/
def mayStart (s : State) (c : TierCmd) : Bool :=
  !c.running && (s.tier.cmds.find? fun x => x.obj == c.obj) == some c && (!needsSlot c.op || s.running < 16)

/-- The residence suits the command (R251). -/
def tierSuits (c : TierCmd) (o : Obj) : Bool :=
  if c.op = 2 then o.residence != .clay
  else if c.op = 3 then o.residence == .clay
  else if c.op = 4 then
    if o.residence = .clay then destTier c == .clay else destTier c != .clay && destTier c != o.residence
  else true

/-- The checks at start, but for the placement's: S_OK where none fails. -/
def startCode (s : State) (c : TierCmd) : Code :=
  match s.obj c.obj with
  | none => eNoSuchObject
  | some o =>
    if o.lost ∧ c.op ≠ 7 then eObjLost
    else if !tierSuits c o then eObjTier
    else if (c.op = 3 ∨ c.op = 4 ∨ c.op = 7) ∧ (o.pins ≠ 0 ∨ 0 < o.devPins) then eObjPinned
    else sOk

/-- DELETE (R251): every space and charge is freed, and a context object's parked handles return (R226). -/
def deleteObj (s : State) (id : Nat) (o : Obj) : State :=
  let t := if o.residence = .clay then s.releaseClay o.charged o.clayCharge
    else s.releaseSectors o.residence (ownerOf id) o.sectorCharge
  let u := if o.parked = 0 then t
    else t.setBay o.parkedBay { t.bay o.parkedBay with parked := (t.bay o.parkedBay).parked - o.parked }
  u.setObj id none

/-- A movement into Clay starts: the placement and the quota (R240, R250). -/
def startClay (s : State) (c : TierCmd) (o : Obj) : State :=
  let p := argPlacement s c.obj o c.arg3 c.arg4
  let code := placementCode s c.obj o p
  let b := argBay c.arg1
  if code ≠ sOk then s.endCmd c (some o) code
  else if (s.bay b).plan.clayQuota < (s.bay b).clayUsed + p.granules then s.endCmd c (some o) eQuota
  else (s.chargeClay b p.granules).setTierCmd { c with running := true, place := some p, clayCharge := p.granules }

/-- A movement into Loam or Marl starts: its units and its tile map (R241, R255). -/
def startSectors (s : State) (c : TierCmd) (o : Obj) : State :=
  let t := destTier c
  let owner := ownerOf c.obj
  let n := mapSectors o.tiles
  let units := s.inService t
  if s.beyondQuota t owner n then s.endCmd c (some o) eQuota
  else match s.allocate units (c.obj % 2 ^ 26) 0 n with
    | none => s.endCmd c (some o) eTierFull
    | some l => (s.chargeSectors t owner n).setTierCmd { c with
        running := true, units := units, mapLoc := some l, sectorCharge := n }

/-- A command starts. -/
def startCmd (s : State) (c : TierCmd) : State :=
  match s.obj c.obj, s.startCode c with
  | none, code => s.endCmd c none code
  | some o, code =>
    if code ≠ sOk then s.endCmd c (some o) code
    else if c.op = 7 then (s.deleteObj c.obj o).endCmd c none sOk
    else if c.op = 8 then (s.setObj c.obj (some { o with lost := true })).endCmd c (some o) sOk
    else if destTier c = .clay then s.startClay c o
    else s.startSectors c o

/-! ### Tiles (R235, R250, R255, R257) -/

/-- The last tile is acknowledged: the residence changes and the source space is freed. -/
def finishMove (s : State) (c : TierCmd) (o : Obj) : State :=
  let t := if c.op = 1 then s
    else if o.residence = .clay then s.releaseClay o.charged o.clayCharge
    else s.releaseSectors o.residence (ownerOf c.obj) o.sectorCharge
  let d := destTier c
  (t.setObj c.obj (some { o with
    residence := d, creating := false, place := c.place, map := c.map, mapLoc := c.mapLoc
    charged := if d = .clay then argBay c.arg1 else o.charged
    clayCharge := c.clayCharge, sectorCharge := c.sectorCharge })).endCmd c (some o) sOk

/-- Write the sector of the tile map that holds the newest entry. -/
def writeMapEntry (s : State) (map : List TileLoc) (loc : TileLoc) : State :=
  let k := map.length - 1
  let first := k / 8 * 8
  s.writeSectors loc.unit (loc.first + k / 8) (slice ((map.drop first).flatMap mapEntryBytes) 0 64)

/-- Lay the next tile of an object being made in Loam, as sectors, under the quota of its owner (R241, R250). -/
def layLoam (id : Nat) (data : Bytes) (acc : State × Obj × Code) : State × Obj × Code :=
  let s := acc.1
  let o := acc.2.1
  let owner := ownerOf id
  let n := data.length / 64
  if acc.2.2 ≠ sOk then acc
  else if s.beyondQuota .loam owner n then (s, o, eQuota)
  else match s.allocate (s.inService .loam) (id % 2 ^ 26) o.map.length n with
  | none => (s, o, eTierFull)
  | some l =>
    let o1 := { o with map := o.map ++ [l], sectorCharge := o.sectorCharge + n }
    let t := ((s.chargeSectors .loam owner n).writeSectors l.unit l.first data).writeMapEntry o1.map (o.mapLoc.getD l)
    (t.setObj id (some o1), o1, sOk)

/-- Make an object in Loam of its tiles' sectors: its map first, then tile by tile; where a charge or a place fails,
nothing of it remains (R241, R249, R250). -/
def makeLoam (s : State) (id : Nat) (o : Obj) (sectors : Nat → Bytes) : State × Code :=
  let owner := ownerOf id
  let n := mapSectors o.tiles
  if (s.obj id).isSome then (s, eObjExists)
  else if 65536 ≤ s.objs.length then (s, eTierFull)
  else if s.beyondQuota .loam owner n then (s, eQuota)
  else match s.allocate (s.inService .loam) (id % 2 ^ 26) 0 n with
  | none => (s, eTierFull)
  | some loc =>
    let o0 := { o with residence := .loam, creating := false, charged := owner, mapLoc := some loc, sectorCharge := n }
    let r := (List.range o.tiles).foldl (fun acc k => layLoam id (sectors k) acc)
      ((s.chargeSectors .loam owner n).setObj id (some o0), o0, sOk)
    if r.2.2 = sOk then (r.1, sOk) else (r.1.deleteObj id r.2.1, r.2.2)

/-- Write the sectors of one tile to Loam or Marl: quota, allocation, charge. -/
def storeTile (s : State) (c : TierCmd) (o : Obj) (data : Bytes) : State :=
  let t := destTier c
  let owner := ownerOf c.obj
  let n := data.length / 64
  if s.beyondQuota t owner n then s.abortCmd c eQuota
  else match s.allocate c.units (c.obj % 2 ^ 26) c.next n with
    | none => s.abortCmd c eTierFull
    | some l =>
      let c1 := { c with next := c.next + 1, badReads := 0, map := c.map ++ [l], sectorCharge := c.sectorCharge + n }
      if (l :: c.mapLoc.toList).any fun x => (s.unit x.unit).held then s else
      let w := (((s.chargeSectors t owner n).writeSectors l.unit l.first data).writeMapEntry c1.map
        (c.mapLoc.getD l)).setTierCmd c1
      if c1.next = o.tiles then w.finishMove c1 o else w

/-- Write one tile into the Clay placement. -/
def layTile (s : State) (c : TierCmd) (o : Obj) (p : Placement) (tile : Bytes) : State :=
  let c1 := { c with next := c.next + 1, badReads := 0 }
  let w := (s.putTile tile (s.tileTargets c.obj o p c.next)).setTierCmd c1
  if c1.next = o.tiles then w.finishMove c1 o else w

/-- The sectors a tile is stored as: the compressed tile, or the source's sectors bit for bit (R242). -/
def tileSectors (s : State) (c : TierCmd) (o : Obj) (tile : Bytes) : Bytes :=
  if c.op = 1 ∨ o.residence = .clay then sieveEncode o.bytesKind o.fmt c.obj tile
  else
    let l := o.map.getD c.next { unit := 0, count := 0, first := 0 }
    s.readSectors l.unit l.first l.count

/-- A movement writes one tile. -/
def putMoved (s : State) (c : TierCmd) (o : Obj) (tile : Bytes) : State :=
  match c.place with
  | some p => s.layTile c o p tile
  | none => s.storeTile c o (s.tileSectors c o tile)

/-- A source tile uncorrectable at both reads (R257). -/
def loseMove (s : State) (c : TierCmd) (o : Obj) : State :=
  (s.setObj c.obj (some { o with lost := true })).abortCmd c eObjLost

/-- The movement still runs after a read that may have mapped a unit out; do f with the command and its object. -/
def withMove (s : State) (seq : Nat) (f : State → TierCmd → Obj → State) : State :=
  match s.tier.cmds.find? fun c => c.seq == seq && c.running with
  | none => s
  | some c => match s.obj c.obj with
    | none => s
    | some o => f s c o

/-- A read that a timeout or poison of R282 has spoilt. -/
def spoilt (bad : Bool) (r : TileRead) : TileRead := if bad then [(0, .uncorrectable)] else r

/-- The unit that holds the next tile of a movement's source. -/
def sourceUnit (c : TierCmd) (o : Obj) : Option Nat :=
  if c.op = 1 ∨ o.residence = .clay then none else (o.map[c.next]?).map (·.unit)

/-- One tile of a movement: read, once more if uncorrectable, and written; nothing while its source unit holds its
requests (R271, R282). -/
def moveTile (s : State) (seq : Nat) (first second : TileRead) : State :=
  s.withMove seq fun s c o =>
    if c.op = 1 then s.putMoved c o (zeros (tileSize o.bytesKind o.fmt))
    else if ((sourceUnit c o).map fun u => (s.unit u).held).getD false then s
    else
      let r := s.fetchTile c.obj o c.next (spoilt (1 ≤ c.badReads) first)
      match r.2 with
      | some tile => r.1.withMove seq fun t c o => t.putMoved c o tile
      | none =>
        let q := r.1.fetchTile c.obj o c.next (spoilt (2 ≤ c.badReads) second)
        match q.2 with
        | some tile => q.1.withMove seq fun t c o => t.putMoved c o tile
        | none => q.1.withMove seq loseMove

/-! ### Writes of the management agent into an object's tiles -/

/-- A write to an object clears its validated mark and disturbs a validation of it (R108). -/
def writeToObj (s : State) (id : Nat) : State :=
  let t := if s.validator.running = some id then { s with validator := { s.validator with disturbed := true } } else s
  match t.obj id with
  | some o => t.setObj id (some { o with validated := none })
  | none => t

/-- Write a tile of an object in its place; a tile of Loam or Marl keeps its first sector where its sectors suffice, and
else takes others under the owner's quota (R241, R250; log entry 78). -/
def rewriteTile (s0 : State) (id k : Nat) (tile : Bytes) : State × Code :=
  let s := s0.writeToObj id
  match s.obj id with
  | none => (s, eNoSuchObject)
  | some o =>
    match o.residence, o.place with
    | .clay, some p => (s.putTile tile (s.tileTargets id o p k), sOk)
    | .clay, none => (s, eNoSuchObject)
    | r, _ =>
      let data := sieveEncode o.bytesKind o.fmt id tile
      let n := data.length / 64
      let old := o.map.getD k { unit := 0, count := 0, first := 0 }
      let t := s.releaseSectors r (ownerOf id) old.count
      let place := if n ≤ old.count then some { old with count := n } else t.allocate (t.inService r) (id % 2 ^ 26) k n
      if t.beyondQuota r (ownerOf id) n then (s0, eQuota)
      else match place with
      | none => (s0, eTierFull)
      | some l =>
        let map := lset o.map k l
        let u := (t.chargeSectors r (ownerOf id) n).writeSectors l.unit l.first data
        let w := match o.mapLoc with
          | some m => u.writeSectors m.unit (m.first + k / 8) (slice ((map.drop (k / 8 * 8)).flatMap mapEntryBytes) 0 64)
          | none => u
        (w.setObj id (some { o with map := map, sectorCharge := o.sectorCharge + n - old.count }), sOk)

end State

/-- CREATE (R251). -/
def execCreate (agent reserved : Nat) (s : State) : Out := .next (if s.coreUp agent then s.tierCtrl 1 reserved else s)
/-- PROMOTE (R251). -/
def execPromote (agent reserved : Nat) (s : State) : Out := .next (if s.coreUp agent then s.tierCtrl 2 reserved else s)
/-- EVICT (R251). -/
def execEvict (agent reserved : Nat) (s : State) : Out := .next (if s.coreUp agent then s.tierCtrl 3 reserved else s)
/-- MIGRATE (R251). -/
def execMigrate (agent reserved : Nat) (s : State) : Out := .next (if s.coreUp agent then s.tierCtrl 4 reserved else s)
/-- PIN (R254). -/
def execPin (agent reserved : Nat) (s : State) : Out := .next (if s.coreUp agent then s.tierCtrl 5 reserved else s)
/-- UNPIN (R251). -/
def execUnpin (agent reserved : Nat) (s : State) : Out := .next (if s.coreUp agent then s.tierCtrl 6 reserved else s)
/-- DELETE (R251). -/
def execDelete (agent reserved : Nat) (s : State) : Out := .next (if s.coreUp agent then s.tierCtrl 7 reserved else s)
/-- MARK_LOST (R263). -/
def execMarkLost (agent reserved : Nat) (s : State) : Out := .next (if s.coreUp agent then s.tierCtrl 8 reserved else s)
/-- QUERY (R251). -/
def execQuery (agent reserved : Nat) (s : State) : Out := .next (if s.coreUp agent then s.tierCtrl 9 reserved else s)

/-- MOVEMENT_START (R252, R253): the first command in acceptance order that may start does. -/
def execMovementStart (seq : Nat) (s : State) : Out :=
  .next (if s.awake then
      match s.tier.cmds.find? s.mayStart with
      | some c => if c.seq = seq then s.startCmd c else s
      | none => s
    else s)

/-- MOVEMENT_TILE (R255, R257). -/
def execMovementTile (seq : Nat) (first second : TileRead) (s : State) : Out :=
  .next (if s.awake then s.moveTile seq first second else s)

/-- TIER_DONE_ACK (R265): bit 0 removes the head entry; an empty FIFO ignores it. -/
def execTierDoneAck (agent : Nat) (value : Word) (s : State) : Out :=
  .next (if s.coreUp agent ∧ bits value 0 1 = 1 then { s with tier := { s.tier with done := s.tier.done.drop 1 } } else s)

/-- PATROL_SCRUB (R260): corrects single-bit errors; records an uncorrectable word and aborts nothing. -/
def execPatrolScrub (brick unit : Nat) (found : Ecc) (s : State) : Out :=
  .next (if s.awake ∧ unit < 65536 then
      match found with
      | .clean => s
      | .corrected n => s.corrected memCorr n
      | .uncorrectable off =>
        let holder := (s.objs.find? fun c => match c.2 with
          | some o => s.holdsGranule brick [unit / 16] c.1 o
          | none => false).map (·.1)
        s.badWord brick ((unit + off) % 65536) true holder
    else s)

end Sys2Proof.Machine
end

