-- ==== Sys2Proof/Machine/Bonds.lean ====
section
/-!
DEFINITION. Validation of bond images, layout descriptors and weight-image headers (R100–R108, R350, R351, R434), the
bond-check registers (R105–R111), and resolving routes at LOAD (R114).
-/
namespace Sys2Proof.Machine

/-- How a validation ends (R105, R111). -/
structure CheckResult where
  code : Code
  offset : Nat := 0
  section_ : Option Nat := none
  digest : Bytes := []
  deriving DecidableEq, Repr

abbrev bondMagic : Nat := 0x444E4247
abbrev layoutMagic : Nat := 0x59414C47
abbrev weightMagic : Nat := 0x54475747

/-- The lowest offset of the fields that fail. -/
def lowestBad (l : List (Nat × Bool)) : Option Nat :=
  ((l.filter (·.2)).map (·.1)).foldl (fun best x => match best with
    | none => some x
    | some b => some (min b x)) none

/-- Offsets of nonzero bytes of a reserved run. -/
def nonzeroRun (b : Bytes) (at_ n : Nat) : List (Nat × Bool) :=
  (List.range n).map fun i => (at_ + i, fieldLE b (at_ + i) 1 != 0)

/-- Checks in order: the first step with a failing field ends with its code, at its lowest offset. -/
def firstStep : List (Code × List (Nat × Bool)) → Option CheckResult
  | [] => none
  | (code, l) :: rest => match lowestBad l with
    | some off => some { code := code, offset := off }
    | none => firstStep rest

/-- The key a signer slot names (R101). -/
def signerKey (s : State) (slot : Nat) : Option Bytes :=
  if slot = 0 then some Config.ownerKey else (s.footing.signers.find? fun x => x.1 == slot).map (·.2)

/-- A signature of 114 bytes and its 14 zero bytes over a digest, under a slot's key (R104). -/
def signedBy (s : State) (slot : Nat) (context : String) (dig sig : Bytes) : Bool :=
  match signerKey s slot with
  | none => false
  | some k => edVerify k context dig (sig.take 114) && (sig.drop 114).all (· == 0)

/-! ### Shapes (R101) -/

def shapeRows (h : Bytes) (i : Nat) : Nat := fieldLE h (32 + 2 * i) 1 + 1
def shapeCols (h : Bytes) (i : Nat) : Nat := fieldLE h (33 + 2 * i) 1 + 1
def headerShape (h : Bytes) : List (Nat × Nat) := (List.range (fieldLE h 24 1)).map fun i => (shapeRows h i, shapeCols h i)

/-- Shape entries at and beyond rect_count. -/
def shapeBeyond (h : Bytes) : List (Nat × Bool) :=
  ((List.range 16).filter fun i => fieldLE h 24 1 ≤ i).map fun i => (32 + 2 * i, fieldLE h (32 + 2 * i) 2 != 0)

/-- rect_count, shape counts and brick_count (step 4). -/
def shapeBad (h : Bytes) : List (Nat × Bool) :=
  let rc := fieldLE h 24 1
  let bc := fieldLE h 26 2
  ((List.range (min rc 16)).map fun i => (32 + 2 * i, 32 < shapeRows h i || 32 < shapeCols h i))
    ++ [(24, rc == 0 || 16 < rc),
        (26, bc == 0 || 4096 < bc || bc != ((headerShape h).map fun x => x.1 * x.2).sum)]

/-- part_code and min_step (step 3). -/
def targetBad (h : Bytes) : List (Nat × Bool) := [(8, fieldLE h 8 2 != 0x4E47), (10, fieldLE h 10 1 != 0x11)]

/-! ### Bond images -/

/-- Steps 2–5 of a bond's header, padded with zeros, for an object of a size. -/
def bondHeaderCheck (h : Bytes) (size : Nat) : Option CheckResult :=
  let g := bondGeom h
  let sane := (shapeBad h).all (!·.2) && g.sections != 0 && g.sections ≤ g.bricks && g.fences != 0 && g.fences ≤ 1024
  firstStep [
    (eBadField, [(0, fieldLE h 0 4 != bondMagic), (4, fieldLE h 4 2 != 1), (6, fieldLE h 6 2 != 256),
        (12, 4 ≤ fieldLE h 12 4)]
      ++ nonzeroRun h 25 1 ++ nonzeroRun h 100 28 ++ nonzeroRun h 148 108 ++ shapeBeyond h),
    (eBondTarget, targetBad h),
    (eBadLength, shapeBad h ++ [(16, fieldLE h 16 8 != size || (sane && fieldLE h 16 8 != g.imageSize)),
        (28, g.sections == 0 || g.bricks < g.sections), (30, g.fences == 0 || 1024 < g.fences),
        (128, fieldLE h 128 4 != 256), (132, sane && fieldLE h 132 4 != g.digestOffset),
        (136, sane && fieldLE h 136 4 != g.fenceOffset), (140, sane && fieldLE h 140 4 != g.sectionsOffset),
        (144, sane && fieldLE h 144 4 != g.signatureOffset)]),
    (eBadField, [(11, 5 ≤ fieldLE h 11 1)])]

def sectionBytes (g : BondGeom) (img : Bytes) (i : Nat) : Bytes := slice img (g.sectionsOffset + 8192 * i) 8192

/-- A section as plane memory. -/
def sectionMem (b : Bytes) : Memory := awrite 0 [] 0 b

def fenceEntries (g : BondGeom) (img : Bytes) : List Nat := (List.range g.fences).map fun i => fieldLE img (g.fenceOffset + 8 * i) 8
/-- The fence table: id and step_end (R103). -/
def fenceTable (g : BondGeom) (img : Bytes) : List (Nat × Bool) := (fenceEntries g img).map fun e => (nbits e 0 16, e.testBit 16)

/-- The bond digest (R104). -/
def bondDigest (g : BondGeom) (img : Bytes) : Bytes := digest (img.take g.sectionsOffset)

/-- The bond-wide part of step 9. -/
def paddingBad (g : BondGeom) (img : Bytes) : List (Nat × Bool) :=
  nonzeroRun img (256 + 2 * g.bricks) (g.digestOffset - (256 + 2 * g.bricks))
    ++ ((List.range g.fences).map fun i => (g.fenceOffset + 8 * i + 2, fieldLE img (g.fenceOffset + 8 * i) 8 >>> 17 != 0))
    ++ nonzeroRun img (g.fenceOffset + 8 * g.fences) (g.sectionsOffset - (g.fenceOffset + 8 * g.fences))

/-- The parts the rules across sections read. -/
def bondParts (g : BondGeom) (img : Bytes) : BondParts :=
  { bricks := g.bricks, map := (List.range g.bricks).map (mapEntry img),
    secs := (List.range g.sections).map fun i => sectionMem (sectionBytes g img i) }

/-- The first fault of the sections in turn. -/
def sectionsCheck (g : BondGeom) (ids : List Nat) : Nat → List Memory → Option CheckResult
  | _, [] => none
  | i, m :: rest => match firstFlaw (sectionFlaws m g.bricks ids) with
    | some f => some { code := f.code, offset := g.sectionsOffset + 8192 * i + f.at_, section_ := some i }
    | none => sectionsCheck g ids (i + 1) rest

/-- Steps 6–12 of a bond image. -/
def bondBodyCheck (s : State) (img : Bytes) : CheckResult :=
  let g := bondGeom img
  let slot := fieldLE img 11 1
  let dig := bondDigest g img
  let parts := bondParts g img
  let ids := (fenceTable g img).map (·.1)
  let badSection := (List.range g.sections).find? fun i =>
    digest (sectionBytes g img i) != slice img (g.digestOffset + 32 * i) 32
  if (signerKey s slot).isNone then { code := eSignature }
  else match badSection with
  | some i => { code := eBondDigest, section_ := some i }
  | none =>
    if !signedBy s slot "Gnolis bond" dig (slice img g.signatureOffset 128) then { code := eSignature }
    else match lowestBad (paddingBad g img) with
    | some off => { code := eBadField, offset := off }
    | none => match sectionsCheck g ids 0 parts.secs with
      | some r => r
      | none => match firstFlaw (bondFlaws g img parts ids) with
        | some f => { code := f.code, offset := f.at_, section_ :=
            if g.sectionsOffset ≤ f.at_ then some ((f.at_ - g.sectionsOffset) / 8192) else none }
        | none => if fieldLE img 12 4 % 2 = 1 ∧ s.footing.confidential then { code := eModeRefused }
          else { code := sOk, digest := dig }

/-! ### Layout descriptors (R350, R351) -/

def layoutHeaderCheck (h : Bytes) (size : Nat) : Option CheckResult :=
  let n := fieldLE h 28 4
  firstStep [
    (eBadField, [(0, fieldLE h 0 4 != layoutMagic), (4, fieldLE h 4 2 != 1), (6, fieldLE h 6 2 != 128)]
      ++ nonzeroRun h 12 4 ++ nonzeroRun h 25 1 ++ nonzeroRun h 64 64 ++ shapeBeyond h),
    (eBondTarget, targetBad h),
    (eBadLength, shapeBad h ++ [(16, fieldLE h 16 8 != size || fieldLE h 16 8 != 256 + 64 * n),
        (28, n == 0 || 65536 < n)]),
    (eBadField, [(11, 5 ≤ fieldLE h 11 1)])]

/-- The 64 B entries of a descriptor. -/
def layoutEntries (img : Bytes) : List Bytes := (List.range (fieldLE img 28 4)).map fun i => slice img (128 + 64 * i) 64

/-- The fields of an entry that break R351, offsets within it; the entries before it given. -/
def entryBad (bricks : Nat) (before : List Bytes) (b : Bytes) : List (Nat × Bool) :=
  let e := layoutEntry b
  let fl := fieldLE b 11 1
  let shares (x : LayoutEntry) : Bool := x.fmtWord == e.fmtWord && x.firstRank < e.firstRank + e.rankRows * e.rankCols
    && e.firstRank < x.firstRank + x.rankRows * x.rankCols
  [(4, bricks ≤ e.firstRank || before.any fun x => shares (layoutEntry x)),
   (6, bricks < e.firstRank + e.rankRows * e.rankCols), (10, 8 ≤ e.fmtWord),
   (11, nbits fl 2 2 == 3 || 16 ≤ fl), (12, e.partRows == 0 || 2 ^ 24 < e.partRows),
   (16, e.partCols == 0 || 2 ^ 24 < e.partCols), (20, fieldLE b 20 4 != 0),
   (40, e.ld < e.col0 + 32 * e.rankCols * e.partCols), (56, fieldLE b 56 8 != 0)]

def entriesCheck (bricks : Nat) : Nat → List Bytes → List Bytes → Option CheckResult
  | _, _, [] => none
  | i, before, b :: rest => match lowestBad (entryBad bricks before b) with
    | some off => some { code := eLayoutShape, offset := 128 + 64 * i + off }
    | none => entriesCheck bricks (i + 1) (before ++ [b]) rest

/-- The bytes of a signed descriptor or header before its signature. -/
def layoutSigned (img : Bytes) : Bytes := img.take (128 + 64 * fieldLE img 28 4)

def layoutBodyCheck (s : State) (img : Bytes) : CheckResult :=
  let signed := layoutSigned img
  let slot := fieldLE img 11 1
  if !signedBy s slot "Gnolis layout" (digest signed) (slice img signed.length 128) then { code := eSignature }
  else match entriesCheck (fieldLE img 26 2) 0 [] (layoutEntries img) with
    | some r => r
    | none => { code := sOk, digest := digest signed }

/-! ### Weight-image headers (R434) -/

def weightTensors (h : Bytes) : Nat := fieldLE h 24 4
def weightMembers (h : Bytes) : Nat := fieldLE h 28 4
/-- The header's bytes before its signature; their digest is the header digest (R467). -/
def weightSigned (img : Bytes) : Bytes := img.take (192 + 16 * weightTensors img + 64 * weightMembers img)

def weightHeaderCheck (h : Bytes) (size : Nat) : Option CheckResult :=
  let t := weightTensors h
  let n := weightMembers h
  firstStep [
    (eBadField, [(0, fieldLE h 0 4 != weightMagic), (4, fieldLE h 4 2 != 1), (6, fieldLE h 6 2 != 192)]
      ++ nonzeroRun h 12 4 ++ nonzeroRun h 152 40),
    (eBondTarget, targetBad h),
    (eBadLength, [(16, fieldLE h 16 8 != size || fieldLE h 16 8 != 320 + 16 * t + 64 * n), (24, t == 0 || 65536 < t),
        (28, n == 0 || 16384 < n)]),
    (eBadField, [(11, 5 ≤ fieldLE h 11 1)])]

/-- Tensor table entry t: id, format, tiles. -/
def weightTensor (img : Bytes) (t : Nat) : Nat × Nat × Nat :=
  (fieldLE img (192 + 16 * t) 4, fieldLE img (196 + 16 * t) 1, fieldLE img (200 + 16 * t) 4)

def tensorTableBad (img : Bytes) : List (Nat × Bool) :=
  (List.range (weightTensors img)).flatMap fun t =>
    let a := 192 + 16 * t
    let e := weightTensor img t
    [(a, 2 ^ 26 ≤ e.1 || (List.range t).any fun u => (weightTensor img u).1 == e.1), (a + 4, 9 ≤ e.2.1),
     (a + 5, fieldLE img (a + 5) 3 != 0), (a + 12, fieldLE img (a + 12) 4 != 0)]

def weightBodyCheck (s : State) (img : Bytes) : CheckResult :=
  let signed := weightSigned img
  let slot := fieldLE img 11 1
  if !signedBy s slot "Gnolis weights" (digest signed) (slice img signed.length 128) then { code := eSignature }
  else match lowestBad (tensorTableBad img) with
    | some off => { code := eBadField, offset := off }
    | none => { code := sOk, digest := digest signed }

/-! ### VALIDATE (R105, R107, R108, R111) -/

/-- The checks of an image by its magic; one shorter than its header reads as padded with zeros. -/
def imageCheck (s : State) (img : Bytes) : CheckResult :=
  let magic := fieldLE img 0 4
  let size := img.length
  if magic = layoutMagic then (layoutHeaderCheck (slice img 0 128) size).getD (layoutBodyCheck s img)
  else if magic = weightMagic then (weightHeaderCheck (slice img 0 192) size).getD (weightBodyCheck s img)
  else (bondHeaderCheck (slice img 0 256) size).getD (bondBodyCheck s img)

namespace State

/-- An object's check from its residence (R235), with what reading it showed. An image that cannot be read whole fails the
check of its section digests (log entry 126). -/
def checkObj (s : State) (id : Nat) (read : ObjRead) : State × CheckResult :=
  match s.readable id with
  | none => (s, { code := eNoSuchObject })
  | some o =>
    let r := s.fetchTiles id o read 0 o.tiles
    match r.2 with
    | none => (r.1, { code := eBondDigest })
    | some ts => (r.1, imageCheck s (ts.flatten.take o.size))

/-- A validation ends: the registers, the counters and the validated mark. -/
def recordCheck (s : State) (id : Nat) (r : CheckResult) : State :=
  let t := { s with validator := { s.validator with
      running := none, disturbed := false, lastCode := r.code, offset := r.offset
      section_ := r.section_.getD 0, sectionValid := r.section_.isSome
      digest := if r.code = sOk then r.digest else s.validator.digest } }
  let u := t.count bondCheckCount 1
  if r.code ≠ sOk then u.count bondCheckFail 1
  else match u.obj id with
    | some o => u.setObj id (some { o with validated := some r.digest })
    | none => u

/-- A write to MG_BOND_CHECK_CTRL of VALIDATE with the reserved bits given. -/
def validateCtrl (s : State) (cmd reserved : Nat) : State :=
  let id := s.validator.arg.toNat
  let refuse (c : Code) : State := { s with validator := { s.validator with lastCode := c } }
  if reserved ≠ 0 ∨ cmd ≠ 1 then refuse eBadField
  else if s.validator.running.isSome then { s with validator := { s.validator with refused := true } }
  else match s.obj id with
    | none => s.recordCheck id { code := eNoSuchObject }
    | some o =>
      if o.lost then refuse eObjLost
      else if o.creating then refuse eNoSuchObject
      else { s with validator := { s.validator with running := some id, disturbed := false } }.pinObj id

/-- The running validation completes, unless a unit holds the object's reads. -/
def validateDone (s : State) (read : ObjRead) : State :=
  match s.validator.running with
  | none => s
  | some id =>
    if s.heldObj id then s
    else
      let r := s.checkObj id read
      (r.1.unpinObj id).recordCheck id (if s.validator.disturbed then { code := eBondDigest } else r.2)

end State

/-! ### Routes (R23, R114) -/

def crossLine (x : Nat) : Nat := 32 * (x / 32) + min 28 (4 * ((x % 32 + 2) / 4))

/-- The legs of a route: perpend flag and the row or column it ends at. -/
def routeLegs (src dst : Nat) (perpendFirst : Bool) : List (Bool × Nat) :=
  let sr := globalRow src
  let sc := globalCol src
  let dr := globalRow dst
  let dc := globalCol dst
  let a := brickDie src
  let b := brickDie dst
  if a = b then (if perpendFirst then [(true, dr), (false, dc)] else [(false, dc), (true, dr)])
  else if a / 2 = b / 2 then [(true, crossLine sr), (false, dc), (true, dr)]
  else if a % 2 = b % 2 then [(false, crossLine sc), (true, dr), (false, dc)]
  else [(true, crossLine sr), (false, crossLine dc), (true, dr), (false, dc)]

/-- Walk the legs from a place: the segments (stops, perpend, decreasing) and the bricks where they end. -/
def walkLegs : Nat → Nat → List (Bool × Nat) → List ((Nat × Bool × Bool) × Nat)
  | _, _, [] => []
  | r, c, (perp, t) :: rest =>
    let here := if perp then r else c
    let r1 := if perp then t else r
    let c1 := if perp then c else t
    let stops := (t - here) + (here - t)
    if stops = 0 then walkLegs r c rest
    else ((stops, perp, t < here), brickAt r1 c1) :: walkLegs r1 c1 rest

/-- A segment byte of word 1. -/
def segByte (g : Nat × Bool × Bool) : Nat := fieldAt 0 6 g.1 + fieldAt 6 1 (bit01 g.2.1) + fieldAt 7 1 (bit01 g.2.2)

/-- The bricks beside a brick on its own die: rows −1 and +1, columns −1 and +1. -/
def besides (n : Nat) : List Nat :=
  let d := brickDie n
  let r := brickRow n
  let c := brickCol n
  (if 0 < r then [brickId d (r - 1) c] else []) ++ (if r < 31 then [brickId d (r + 1) c] else [])
    ++ (if 0 < c then [brickId d r (c - 1)] else []) ++ (if c < 31 then [brickId d r (c + 1)] else [])

namespace State

/-- Word 1 of a route entry from a brick to a brick; none where the loader refuses it. -/
def resolveRoute (s : State) (src dst : Nat) (e : RouteWord) : Option Nat :=
  if e.network = 2 then some 0
  else if e.network = 0 then (if (besides src).contains dst then some 0 else none)
  else
    let legs := walkLegs (globalRow src) (globalCol src) (routeLegs src dst e.perpendFirst)
    if (legs.dropLast.map (·.2)).any s.vacant then none else some (leNat ((legs.map fun g => BitVec.ofNat 8 (segByte g.1))))

/-- A section with its routes resolved for the brick of a rank of a bay (R114); none where one is refused. -/
def resolveSection (s : State) (b rank : Nat) (m : Memory) : Option Memory :=
  let bricks := s.bricksOf b
  (List.range 16).foldl (fun acc e => acc.bind fun x =>
    let w := routeWord m e
    if !w.valid then some x
    else (s.resolveRoute (bricks.getD rank 0) (bricks.getD w.dest 0) w).map fun v =>
      awrite 0 x (0x34 + 8 * e) (leBytes 4 v)) (some m)

end State

/-- VALIDATE (R105, R107). -/
def execValidate (agent reserved : Nat) (s : State) : Out := .next (if s.coreUp agent then s.validateCtrl 1 reserved else s)

/-- VALIDATE_COMPLETE (R105, R108). -/
def execValidateComplete (s : State) (read : ObjRead := []) : Out := .next (if s.awake then s.validateDone read else s)

end Sys2Proof.Machine
end

