-- ==== Sys2Proof/Machine/Random.lean ====
section
/-!
DEFINITION. Random numbers (07_random_numbers.md): the mix (R167), stream keys (R170, R171), indexed and free-mode
draws (R172–R176), and the counting of draws (R178).
-/
namespace Sys2Proof.Machine

/-- rotl of R167. -/
def rotl (x : Word) (n : Nat) : Word := x.rotateLeft n

/-- rc(n) of R167. -/
def mixRc (n : Nat) : Word := BitVec.ofNat 32 (n + 1) * 0x9E3779B9#32

/-- The four words of a mix in progress. -/
structure MixState where
  x0 : Word
  x1 : Word
  x2 : Word
  x3 : Word
  deriving DecidableEq, Repr

/-- One round of R167. -/
def mixRound (k : List Word) (m : MixState) (n : Nat) : MixState :=
  let a := m.x0 + (k.getD (n % 4) 0 ^^^ mixRc n)
  let b := rotl (m.x1 ^^^ a) 13
  let c := m.x2 + b
  let d := rotl (m.x3 ^^^ c) 17
  let a2 := a + d
  let b2 := rotl (b ^^^ a2) 5
  let c2 := c + b2
  { x0 := b2, x1 := c2, x2 := rotl (d ^^^ c2) 24, x3 := a2 }

/-- The mix of a key and a counter, word 0 first (R167). -/
def mix (k c : List Word) : Word :=
  let m := (List.range 10).foldl (mixRound k)
    { x0 := c.getD 0 0, x1 := c.getD 1 0, x2 := c.getD 2 0, x3 := c.getD 3 0 }
  (m.x0 + k.getD 0 0) ^^^ (m.x2 + k.getD 2 0)

/-- Word i of a number (R172). -/
def wordAt (v i : Nat) : Word := BitVec.ofNat 32 (v >>> (32 * i))

/-- derive of R171. -/
def deriveKey (seed : DWord) (stream : Nat) (free : Bool) (epoch : Word) : List Word :=
  let kd : List Word := [wordAt seed.toNat 0, wordAt seed.toNat 1, 0x53544E45, 0x47594C53]
  (List.range 4).map fun w => mix kd [wordAt stream 0, BitVec.ofNat 32 w, BitVec.ofNat 32 (bit01 free), if free then epoch else 0]

/-- The keys of a section's streams for a bay (R170, R171). -/
def streamKeys (m : Memory) (seed : DWord) (first : Word) (restoreEpoch : Word) : List (List Word) :=
  (List.range (streamCount m)).map fun t =>
    deriveKey seed ((first.toNat + streamBase m + t) % 2 ^ 32) (freeMode m) restoreEpoch

/-- The key of an indexed draw: the draw epoch folded in (R172). -/
def indexedKey (k : List Word) (epoch : DWord) : List Word :=
  [k.getD 0 0, k.getD 1 0, k.getD 2 0 ^^^ wordAt epoch.toNat 1, k.getD 3 0 ^^^ wordAt epoch.toNat 0]

/-- The bits of an indexed draw: stream key, draw epoch, draw number and element index (R172). -/
def indexedDraw (k : List Word) (epoch : DWord) (num elem : Nat) : Word :=
  mix (indexedKey k epoch) [wordAt num 0, wordAt num 1, wordAt elem 0, wordAt elem 1]

/-- A draw wanted: lane, stream, element index, draw number (R172, R173), chunk draw or not (R175). -/
structure DrawReq where
  lane : Nat
  stream : Nat
  elem : Nat
  num : Nat
  chunk : Bool
  deriving DecidableEq, Repr

/-- One draw of a plane for the brick of a rank: the bits, and the plane with its free-mode position advanced. -/
def drawOne (p : Plane) (epoch : DWord) (rank : Nat) (d : DrawReq) : Word × Plane :=
  if freeMode p.image then
    let key := p.keys.getD 0 []
    let lam := 128 * rank + d.lane
    let pos := aget 0 (if d.chunk then p.posC else p.posO) d.lane
    let hi := if d.chunk then 2 ^ 31 + pos / 2 ^ 32 % 2 ^ 31 else pos / 2 ^ 32 % 2 ^ 31
    let w := mix key [wordAt pos 0, BitVec.ofNat 32 hi, wordAt lam 0, wordAt lam 1]
    (w, if d.chunk then { p with posC := aput 0 p.posC d.lane ((pos + 1) % 2 ^ 63) }
        else { p with posO := aput 0 p.posO d.lane ((pos + 1) % 2 ^ 63) })
  else
    (indexedDraw (p.keys.getD d.stream []) epoch d.num d.elem, p)

/-- Draws in order. -/
def drawAll (p : Plane) (epoch : DWord) (rank : Nat) : List DrawReq → List Word × Plane
  | [] => ([], p)
  | d :: ds =>
    let r := drawOne p epoch rank d
    let q := drawAll r.2 epoch rank ds
    (r.1 :: q.1, q.2)

/-- The plane a brick runs, and its shadow (R81). -/
def Brick.active (b : Brick) : Plane := if b.activePlane then b.plane1 else b.plane0
def Brick.shadow (b : Brick) : Plane := if b.activePlane then b.plane0 else b.plane1
def Brick.setActive (b : Brick) (p : Plane) : Brick := if b.activePlane then { b with plane1 := p } else { b with plane0 := p }
def Brick.setShadow (b : Brick) (p : Plane) : Brick := if b.activePlane then { b with plane0 := p } else { b with plane1 := p }
/-- The configuration words a brick runs. -/
def Brick.conf (b : Brick) : Memory := b.active.image

namespace State

/-- Draws of a brick under its bay's epoch, counted for the bay (R175, R178). -/
def drawsFor (s : State) (n : Nat) (ds : List DrawReq) : List Word × State :=
  match s.bayOf n with
  | none => ([], s)
  | some b =>
    let v := s.bay b
    let k := s.brick n
    let r := drawAll k.active v.epoch ((s.rankOf b n).getD 0) ds
    let t := (s.setBrick n (k.setActive r.2)).setBay b
      { v with drawsIssued := v.drawsIssued + ds.length, drawsServed := v.drawsServed + ds.length }
    (r.1, t.count (bayDraws b) ds.length)

end State
end Sys2Proof.Machine
end

