-- ==== Sys2Proof/Machine/Endpoints.lean ====
section
/-!
DEFINITION. Hod handles (R202) and stream endpoints: their slots and producers (R204, R207), binding and retiring at
a swap (R219), and the count of a bay's live handles (R226).
-/
namespace Sys2Proof.Machine

/-! ### Handles (R202) -/

def handleBay (h : Word) : Nat := bits h 26 6
def handleSpace (h : Word) : Space := if bits h 24 1 = 1 then .hopper else .column
def handleAddr (h : Word) : Nat := bits h 8 16
/-- Generation and tag, under a tag width w. -/
def handleGen (w : Nat) (h : Word) : Nat := bits h 0 (8 - w)
def handleTag (w : Nat) (h : Word) : Nat := bits h (8 - w) w

/-- The handle of a buffer with a tag and a generation. -/
def mkHandle (bay space addr tag gen w : Nat) : Word :=
  BitVec.ofNat 32 (fieldAt 26 6 bay + fieldAt 24 1 space + fieldAt 8 16 addr + fieldAt (8 - w) w tag + fieldAt 0 (8 - w) gen)

/-- The same buffer's handle with another tag and generation. -/
def stampHandle (w : Nat) (h : Word) (tag gen : Nat) : Word :=
  BitVec.ofNat 32 (h.toNat / 256 * 256 + fieldAt (8 - w) w tag + fieldAt 0 (8 - w) gen)

/-- Slot k of a stream's buffers, with generation 0. -/
def slotHandle (bay : Nat) (w : StreamWord) (k : Nat) : Word := mkHandle bay w.space (w.base + k * w.slotUnits) 0 0 w.tagBits

/-- The slot a handle names in a stream; the slot count where it names none. -/
def slotOf (w : StreamWord) (h : Word) : Nat :=
  let d := (handleAddr h + 65536 - w.base) % 65536
  if d % w.slotUnits = 0 ∧ d / w.slotUnits < w.slots then d / w.slotUnits else w.slots

/-! ### Producers (R207) -/

/-- The producer endpoints of an in stream, by bay rank, then stream index; the plane images are in rank order. -/
def producersOf (images : List Memory) (rank stream : Nat) : List (Nat × Nat) :=
  images.zipIdx.flatMap fun x => ((List.range 16).filter fun i =>
    let w := streamWord x.1 i
    let r := routeWord x.1 w.route
    w.valid && w.out && r.valid && r.dest == rank && r.destStream == stream).map fun i => (x.2, i)

/-- The handles a producer endpoint owns at bind: those of its slots, ascending (R204, R207). -/
def ownHandles (bay : Nat) (images : List Memory) (rank stream : Nat) (w : StreamWord) : List Word :=
  let r := routeWord (images.getD rank []) w.route
  let ps := producersOf images r.dest r.destStream
  let p := ps.findIdx (· == (rank, stream))
  ((List.range w.slots).filter fun k => k % ps.length == p).map (slotHandle bay w)

/-- The endpoint of a stream word as bound under R204. -/
def boundEndpoint (bay : Nat) (images : List Memory) (rank i : Nat) : Endpoint :=
  let w := streamWord (images.getD rank []) i
  if ¬ w.valid then {}
  else if w.out then { bound := true, out := true, free := ownHandles bay images rank i w }
  else { bound := true, last := arun 0 0 ((List.range w.slots).map (slotHandle bay w)) }

/-- Every endpoint of a brick. -/
def boundStreams (bay : Nat) (images : List Memory) (rank : Nat) : Assoc Endpoint :=
  arun {} 0 ((List.range 16).map (boundEndpoint bay images rank))

/-- Handles of the in streams of a plane: one per slot (R226). -/
def slotsOf (m : Memory) : Nat :=
  ((List.range 16).map fun i => if streamOk m i false then (streamWord m i).slots else 0).sum

namespace Brick

def stream (b : Brick) (i : Nat) : Endpoint := aget {} b.streams i
def setStream (b : Brick) (i : Nat) (e : Endpoint) : Brick := { b with streams := aput {} b.streams i e }
def gen (b : Brick) (p : Nat) : Gen := b.gens.getD p {}
def setGen (b : Brick) (p : Nat) (g : Gen) : Brick := { b with gens := b.gens.set p g }
/-- Any of its streams is bound. -/
def isBound (b : Brick) : Bool := b.streams.any fun c => c.2.bound

end Brick

namespace State

/-- The images the bricks of a bay run, in rank order. -/
def bayImages (s : State) (b : Nat) : List Memory := (s.bricksOf b).map fun n => (s.brick n).conf

/-- Live handles of a bay: the slots of its bound streams (R226). -/
def liveHandles (s : State) (b : Nat) : Nat :=
  ((s.bricksOf b).map fun n => if (s.brick n).isBound then slotsOf (s.brick n).conf else 0).sum

/-- Unbind every stream of a bay; the handles are retired (R219). -/
def unbindStreams (s : State) (b : Nat) : State :=
  let live := s.liveHandles b
  let t := (s.bricksOf b).foldl (fun t n => t.setBrick n { t.brick n with streams := [] }) s
  t.setBay b { t.bay b with retired := (t.bay b).retired + live }

/-- Bind the streams of the planes a bay's bricks run; the handles are issued (R219). -/
def bindStreams (s : State) (b : Nat) : State :=
  let images := s.bayImages b
  let t := (s.bricksOf b).zipIdx.foldl (fun t x =>
    t.setBrick x.1 { t.brick x.1 with streams := boundStreams b images x.2 }) s
  t.setBay b { t.bay b with issued := (t.bay b).issued + t.liveHandles b }

/-- Issued − retired handles of a bay equal its live handles (R226). -/
def handlesBalance (s : State) (b : Nat) : Bool := (s.bay b).issued == (s.bay b).retired + s.liveHandles b

end State
end Sys2Proof.Machine
end

