-- ==== Sys2Proof/Machine/Grit.lean ====
section
/-!
DEFINITION. The grit path (R23, R24, R70, R213–R215): packets, their links, injection at a brick, and the moves of the
network that an arrival takes. Cycles are not counted (log entry 97): a packet moves only when an arrival asks for it,
and then everything that must go before it moves first.
-/
namespace Sys2Proof.Machine

/-! ### Packets (R213, R214) -/

/-- A packet of a kind, its class as the kind requires. -/
def gritOf (kind dest source stream : Nat) (handle arg : Word) (body : Bytes) : GritPacket :=
  { kind := kind, fence := 4 ≤ kind && kind ≤ 9, post := false, dest := dest, source := source, stream := stream
    length := body.length, handle := handle, arg := arg, body := body }

/-- The 16 header bytes of a packet (R213). -/
def gritHeader (p : GritPacket) : Bytes :=
  leBytes 16 (fieldAt 0 4 p.kind + fieldAt 4 1 (bit01 p.fence) + fieldAt 5 1 (bit01 p.post) + fieldAt 8 13 p.dest
    + fieldAt 21 13 p.source + fieldAt 34 4 p.stream + fieldAt 38 7 p.length + fieldAt 64 32 p.handle.toNat
    + fieldAt 96 32 p.arg.toNat)

/-- A packet of a reserved kind or endpoint, or of a class other than its kind's (R214). -/
def gritMalformed (p : GritPacket) : Bool :=
  p.kind == 0 || 11 ≤ p.kind || 4098 ≤ p.dest || 4098 ≤ p.source || p.fence != (4 ≤ p.kind && p.kind ≤ 9)

/-- The place of a fence-class kind in a brick's order of injection (R215). -/
def fenceOrder (kind : Nat) : Nat := [6, 9, 4, 5, 7, 8].findIdx (· == kind)

/-! ### Links (R23, R24, R70) -/

/-- A die-to-die link as a grit link, by its place in R22's table and its direction. -/
def d2dGrit (link : Nat) (back : Bool) : Nat := 32768 + 2 * link + bit01 back

/-- The grit link from a brick along a row or a column: its own, or the edge's control module. -/
def gritHop (r c : Nat) (perp dec : Bool) : Nat :=
  let x := if perp then r else c
  let n := brickAt r c
  if (if dec then x == 32 else x == 31) then
    let m := if perp then brickAt (63 - r) c else brickAt r (63 - c)
    d2dGrit (d2dBetween (.ashlar (brickDie n)) (.ashlar (brickDie m))) dec
  else n * 8 + 2 * bit01 perp + bit01 dec

/-- The links along a row from a column to another, and along a column from a row to another. -/
def rowRun (r c c2 : Nat) : List Nat :=
  if c ≤ c2 then (List.range (c2 - c)).map fun i => gritHop r (c + i) false false
  else (List.range (c - c2)).map fun i => gritHop r (c - i) false true
def colRun (c r r2 : Nat) : List Nat :=
  if r ≤ r2 then (List.range (r2 - r)).map fun i => gritHop (r + i) c true false
  else (List.range (r - r2)).map fun i => gritHop (r - i) c true true

/-- The row at which a Keystone joins the dies, and the grit link between it and a column. -/
def ksRow (south : Bool) : Nat := if south then 63 else 0
def ksLink (south : Bool) (c : Nat) (back : Bool) : Nat :=
  d2dGrit (d2dBetween (.keystone south) (.ashlar (brickDie (brickAt (ksRow south) c)))) back

/-- The links of a packet: along the row first and then along the column; a Keystone is reached along the brick's own
column (R24, R70; log entry 107). -/
def gritPath (src dst : Nat) : List Nat :=
  if src < 4096 ∧ dst < 4096 then
    rowRun (globalRow src) (globalCol src) (globalCol dst) ++ colRun (globalCol dst) (globalRow src) (globalRow dst)
  else if src < 4096 then
    let k := dst == 4097
    colRun (globalCol src) (globalRow src) (ksRow k) ++ [ksLink k (globalCol src) true]
  else if dst < 4096 then
    let k := src == 4097
    ksLink k (globalCol dst) false :: colRun (globalCol dst) (ksRow k) (globalRow dst)
  else if src = dst then [] else [d2dGrit (d2dBetween (.keystone false) (.keystone true)) (src == 4097)]

/-- Credits of a grit link for a class (R70). -/
abbrev gritCredits : Nat := 2

/-! ### Injection (R215) -/

/-- Requesters 0–3 are the programs, 4 the function's own outputs; fence-class packets have no requester. -/
abbrev reqFunction : Nat := 4

/-- The packet an injector sends next, of those given: fence class first, in R215's order; else the oldest of the first
requester at or after the rotating pointer. -/
def injectNext (ptr : Nat) (ms : List GritMsg) : Option GritMsg :=
  match (List.range 6).findSome? fun k => ms.find? fun m => m.p.fence && fenceOrder m.p.kind == k with
  | some m => some m
  | none => (List.range 5).findSome? fun i => ms.find? fun m => !m.p.fence && m.requester == (ptr + i) % 5

/-! ### The network (R70) -/

/-- Messages up to and with the first copy of one. -/
def upTo (m : GritMsg) : List GritMsg → List GritMsg
  | [] => []
  | x :: xs => if x = m then [x] else x :: upTo m xs

/-- The packets in a link's buffers of a class, oldest first. -/
def gritBuffer (ms : List GritMsg) (link : Nat) (fence : Bool) : List GritMsg :=
  ms.filter fun m => m.place == some link && m.p.fence == fence

/-- The packet that must move before another does: at its source what the injector sends first of those no younger; in a
buffer the one ahead of it; on its link a fence-class packet, and where no credit is left the oldest in that buffer. -/
def gritBlocker (net : Net) (m : GritMsg) : Option GritMsg :=
  let first := match m.place with
    | none => injectNext (aget 0 net.gritPtr m.p.source)
        ((upTo m net.grit).filter fun x => x.place == none && x.p.source == m.p.source && !x.hold)
    | some l => (gritBuffer net.grit l m.p.fence).head?
  if first ≠ some m then first
  else match m.path with
  | [] => none
  | l :: _ =>
    match (if m.p.fence then none else net.grit.find? fun x => x.p.fence && x.place.isSome && x.path.head? == some l) with
    | some x => some x
    | none =>
      let there := gritBuffer net.grit l m.p.fence
      if gritCredits ≤ there.length then there.head? else none

/-- One packet moves over its next link; an injected ordinary packet moves the pointer past its requester. -/
def gritMove (net : Net) (m : GritMsg) : Net :=
  match m.path with
  | [] => net
  | l :: rest =>
    { net with
      grit := net.grit.erase m ++ [{ m with place := some l, path := rest }]
      gritPtr := if m.place.isNone ∧ ¬ m.p.fence then aput 0 net.gritPtr m.p.source ((m.requester + 1) % 5) else net.gritPtr }

/-- The move the network makes for a packet: its own, or that of what blocks it; none where it cannot go on. -/
def gritPush : Nat → Net → GritMsg → Option Net
  | 0, _, _ => none
  | n + 1, net, m =>
    if m.hold then none
    else match gritBlocker net m with
    | some x => if x.path.isEmpty then none else gritPush n net x
    | none => if m.path.isEmpty then none else some (gritMove net m)

/-- Hops still to make, with one for each packet. -/
def hopsLeft (net : Net) : Nat := (net.grit.map fun m => m.path.length + 1).sum

/-- The network runs until a packet stands at its endpoint, first of its class there; none where it cannot. -/
def gritRun : Nat → Net → GritPacket → Option Net
  | 0, _, _ => none
  | n + 1, net, p =>
    match net.grit.find? fun x => x.p == p && !x.hold with
    | none => none
    | some m =>
      if m.path.isEmpty ∧ (gritBlocker net m).isNone then some { net with grit := net.grit.erase m }
      else match gritPush (net.grit.length + 1) net m with
        | some net2 => gritRun n net2 p
        | none => none

namespace State

def setGrit (s : State) (ms : List GritMsg) : State := { s with net := { s.net with grit := ms } }

/-- A packet enters its brick's injection queue (R215). -/
def sendGrit (s : State) (requester : Nat) (p : GritPacket) : State :=
  s.setGrit (s.net.grit ++ [{ p := p, requester := requester, path := gritPath p.source p.dest, place := none, hold := false }])

/-- The network with a packet taken at its endpoint, where it can arrive. -/
def gritArrival (s : State) (p : GritPacket) : Option Net := gritRun (hopsLeft s.net + 1) s.net p

/-- The packet can be the next to arrive at its endpoint. -/
def gritDue (s : State) (p : GritPacket) : Bool := (s.gritArrival p).isSome

/-- The packet has arrived and left the network. -/
def tookGrit (s : State) (p : GritPacket) : State := { s with net := (s.gritArrival p).getD s.net }

/-- A discarded packet: counted, and an internal error (R214). -/
def badGrit (s : State) (p : GritPacket) : State :=
  (s.count gritBad 1).internalError (if p.source < 4096 then dieOf p.source else ksSource (p.source == 4097))
    (BitVec.ofNat 32 p.source)

/-- Run an operation for the oldest packet of a fence-class kind from a brick (to a brick, where the flag is set), once
it arrives. -/
def onFencePacket (s : State) (kind n : Nat) (toBrick : Bool) (f : State → GritPacket → State) : State :=
  match s.net.grit.find? fun m => m.p.kind == kind && (if toBrick then m.p.dest else m.p.source) == n with
  | none => s
  | some m => if s.gritDue m.p then f (s.tookGrit m.p) m.p else s

/-- The argument of a SWAP packet: the swap cycle within its tick, and bits [19:0] of the tick (R214). -/
def swapArg (s : State) (cycle : Nat) : Word :=
  let c := cycle - s.tb.cycle
  let late := s.tb.len ≤ c
  BitVec.ofNat 32 (fieldAt 0 12 (if late then c - s.tb.len else c) + fieldAt 12 20 (s.tb.tick + bit01 late))

end State
end Sys2Proof.Machine
end

