-- ==== Sys2Proof/Machine/Context.lean ====
section
/-!
DEFINITION. Context objects (R94, R227, R228): a brick's record, the object's header, and installing a record in a
brick (R95, R176).
-/
namespace Sys2Proof.Machine

abbrev ctxMagic : Nat := 0x58544347
/-- Bytes of one brick record (R94). -/
abbrev recordBytes : Nat := 0x48000

/-! ### Writing a record -/

def genCode (g : GenState) : Nat := match g with
  | .running => 0
  | .waiting => 1
  | .held => 2
  | .ended => 3

def spaceCode (s : Space) : Nat := match s with
  | .column => 0
  | .hopper => 1

/-- An entry of the loop stack (R228): word and passes remaining after the current one, 2 B each, the address, 4 B of
zeros (log entry 115). -/
def frameBytes (f : LoopFrame) : Bytes :=
  leBytes 2 f.word ++ leBytes 2 (f.remaining - 1) ++ leBytes 4 (unsigned 32 f.start) ++ zeros 4

def padTo (n : Nat) (b : Bytes) : Bytes := b.take n ++ zeros (n - b.length)

/-- An address generator's 64 B (R228). -/
def genBytes (g : Gen) : Bytes :=
  leBytes 2 g.word ++ leBytes 1 (genCode g.state) ++ leBytes 1 (spaceCode g.space) ++ leBytes 4 (unsigned 32 g.addr)
    ++ padTo 56 (g.stack.flatMap frameBytes)

/-- A stream's 96 B (R228): an out stream's free FIFO, or the last handle of each slot of an in stream. -/
def streamBytes (m : Memory) (i : Nat) (e : Endpoint) : Bytes :=
  let w := streamWord m i
  let hs := if e.out then e.free else aread 0 e.last 0 w.slots
  let n := if e.bound then hs.length else 0
  padTo 64 (if e.bound then hs.flatMap fun h => leBytes 4 h.toNat else []) ++ leBytes 1 n ++ zeros 3
    ++ leBytes 4 e.count.toNat ++ zeros 24

/-- A bank's 12 KiB. -/
def bankBytes (k : Bank) : Bytes := (aread 0 k.entries 0 1024).flatMap fun e => leBytes 12 e.toNat

/-- A lane generator's 32 B (R176): in indexed mode counter 0 and the key of stream 0. -/
def laneBytes (p : Plane) (lane : Nat) : Bytes :=
  (if freeMode p.image then leBytes 8 (aget 0 p.posO lane) ++ leBytes 8 (aget 0 p.posC lane) else zeros 16)
    ++ (List.range 4).flatMap fun w => leBytes 4 ((p.keys.getD 0 []).getD w 0).toNat

/-- The record of a brick (R94, R227). -/
def recordOf (k : Brick) : Bytes :=
  let m := k.conf
  aread 0 k.hopper 0 262144 ++ bankBytes k.bank0 ++ bankBytes k.bank1
    ++ (List.range 128).flatMap (laneBytes k.active)
    ++ padTo 4096 ((List.range 4).flatMap (fun p => genBytes (k.gen p))
      ++ (List.range 16).flatMap (fun i => streamBytes m i (k.stream i))
      ++ (aread {} k.amax 0 16).flatMap (fun a => leBytes 4 a.amax.toNat ++ leBytes 4 a.scale.toNat)
      ++ (List.range 32).flatMap (fun r => leBytes 4 (aget 0 k.rowX r).toNat ++ leBytes 4 (aget 0 k.rowY r).toNat)
      ++ (aread 0 k.laneFlags 0 128).flatMap (leBytes 1)
      ++ leBytes 4 k.drains ++ leBytes 4 k.tag
      ++ (aread 0 k.layoutCounts 0 8).flatMap (leBytes 8))

/-- Rectangle entries of a context header (R94). -/
def rectBytes (r : Rect) : Bytes := leBytes 1 (r.die * 32 + r.row) ++ leBytes 1 r.col ++ leBytes 1 (r.rows - 1) ++ leBytes 1 (r.cols - 1)

/-- The 256 B header of a context object (R94): its restore_epoch is the one the bay was last restored with, where the spec
says only 0 when first saved (log entry 113). -/
def ctxHeader (bay : Nat) (v : Bay) (count : Nat) : Bytes :=
  let a := v.active.getD { object := 0, digest := zeros 32, layoutDigest := zeros 32, fences := [], seed := 0, streamFirst := 0 }
  padTo 256 (leBytes 4 ctxMagic ++ leBytes 2 1 ++ leBytes 1 bay ++ leBytes 1 v.plan.rects.length ++ leBytes 4 count
    ++ leBytes 4 v.restoreEpoch.toNat ++ leBytes 8 v.saveTick ++ leBytes 8 a.seed.toNat ++ padTo 32 a.digest
    ++ padTo 64 (v.plan.rects.flatMap rectBytes) ++ padTo 32 a.layoutDigest)

/-- The shape a context header names. -/
def ctxShape (h : Bytes) : List (Nat × Nat) :=
  (List.range (fieldLE h 7 1)).map fun i => (fieldLE h (66 + 4 * i) 1 + 1, fieldLE h (67 + 4 * i) 1 + 1)

/-! ### Installing a record -/

/-- The current address was set by a BASE word of space 0: the nearest BASE or WAIT before the next word (log
entry 31). -/
def baseBefore (m : Memory) (p word : Nat) : Bool :=
  match ((List.range word).reverse.find? fun k => progOp (progWord m p k) == 1 || progOp (progWord m p k) == 5) with
  | some k => progOp (progWord m p k) == 1 && baseSpace (progWord m p k) == 0
  | none => false

def frameOf (b : Bytes) : LoopFrame :=
  { word := fieldLE b 0 2, remaining := fieldLE b 2 2 + 1, start := signed 32 (fieldLE b 4 4) }

/-- The entries of a loop stack in use: one for each LOOP that encloses the generator's word. -/
def stackOf (m : Memory) (p word : Nat) (b : Bytes) : List LoopFrame :=
  ((List.range 4).map fun i => frameOf (slice b (12 * i) 12)).take (enclosing m p word).length

def genOf (m : Memory) (p : Nat) (b : Bytes) : Gen :=
  let st := fieldLE b 2 1
  { word := fieldLE b 0 2 % 64
    state := if st = 1 then .waiting else if st = 2 then .held else if st = 3 then .ended else .running
    space := if fieldLE b 3 1 = 1 then .hopper else .column
    addr := signed 32 (fieldLE b 4 4)
    stack := stackOf m p (fieldLE b 0 2 % 64) (slice b 8 48)
    fromBase := baseBefore m p (fieldLE b 0 2 % 64) }

def streamOfRecord (m : Memory) (i : Nat) (b : Bytes) : Endpoint :=
  let w := streamWord m i
  let hs := (List.range (min 16 (fieldLE b 64 1))).map fun k => BitVec.ofNat 32 (fieldLE b (4 * k) 4)
  if ¬ w.valid then {}
  else if w.out then { bound := true, out := true, free := hs, count := BitVec.ofNat 32 (fieldLE b 68 4) }
  else { bound := true, last := arun 0 0 hs, count := BitVec.ofNat 32 (fieldLE b 68 4) }

def bankOf (b : Bytes) (k : Bank) : Bank :=
  { k with entries := arun 0 0 ((List.range 1024).map fun e => BitVec.ofNat 96 (fieldLE b (12 * e) 12)) }

/-- The active plane with the lane generators of a record: free-mode positions and key exactly; indexed streams take
nothing from it (R176). -/
def lanesOf (p : Plane) (b : Bytes) : Plane :=
  if freeMode p.image then
    { p with posO := arun 0 0 ((List.range 128).map fun l => fieldLE b (32 * l) 8 % 2 ^ 63)
             posC := arun 0 0 ((List.range 128).map fun l => fieldLE b (32 * l + 8) 8 % 2 ^ 63)
             keys := [(List.range 4).map fun w => BitVec.ofNat 32 (fieldLE b (16 + 4 * w) 4)] }
  else p

/-- A brick with a record written back (R95). The record has no place for the format F an amax register last gathered
under (R134): the register keeps the brick's own (DESIGN CHOICE, log entry 120). -/
def installRecord (k : Brick) (r : Bytes) : Brick :=
  let m := k.conf
  let a := slice r 0x47000 4096
  let t := { k with
    hopper := awrite 0 [] 0 (slice r 0 262144)
    bank0 := bankOf (slice r 0x40000 12288) k.bank0
    bank1 := bankOf (slice r 0x43000 12288) k.bank1
    gens := (List.range 4).map fun p => genOf m p (slice a (64 * p) 64)
    streams := arun {} 0 ((List.range 16).map fun i => streamOfRecord m i (slice a (0x100 + 96 * i) 96))
    amax := arun {} 0 ((List.range 16).map fun i =>
      { aget ({} : Amax) k.amax i with amax := wordOf (slice a 0x700 128) (2 * i), scale := wordOf (slice a 0x700 128) (2 * i + 1) })
    rowX := arun 0 0 ((List.range 32).map fun i => wordOf (slice a 0x780 256) (2 * i))
    rowY := arun 0 0 ((List.range 32).map fun i => wordOf (slice a 0x780 256) (2 * i + 1))
    laneFlags := arun 0 0 ((slice a 0x880 128).map fun (x : Byte) => x.toNat % 64)
    drains := fieldLE a 0x900 4
    tag := fieldLE a 0x904 4 % 16
    layoutCounts := arun 0 0 ((List.range 8).map fun i => fieldLE a (0x908 + 8 * i) 8) }
  t.setActive (lanesOf k.active (slice r 0x46000 4096))

end Sys2Proof.Machine
end

