-- ==== Sys2Proof/Machine/Rollouts.lean ====
section
/-!
DEFINITION. Rollout objects (14_turns.md): the device's own and the copies it holds, their fields (R345, R346), the token
record (R347), the closing and marking of running sequences (R347, R359), the sequences left out for want of a reward
(R348), the assignment of scored sequences (R349), and the deletion of a void turn's objects (R359). The generator's and
the score bays' software fills a rollout object through the ordinary object commands (log entry 130).
-/
namespace Sys2Proof.Machine

/-- The 12 B token record (R347). -/
def TokenRec.bytes (t : TokenRec) : Bytes := leBytes 4 t.id.toNat ++ leBytes 4 t.logprob.toNat ++ leBytes 4 t.lse.toNat

/-- The offsets of a rollout object that its header gives (R345). -/
structure Rollout where
  seqs : Nat
  slots : Nat
  rewardAt : Nat
  deriving DecidableEq, Repr

/-- The header's fields (R345). -/
def rolloutOf (h : Bytes) : Rollout :=
  { seqs := fieldLE h 24 4, slots := fieldLE h 6 2
    rewardAt := 64 + 48 * fieldLE h 24 4 + 4 * fieldLE h 40 8 + 12 * fieldLE h 32 8 }

/-- The byte of a rollout object that holds the end code of its sequence k (R346). -/
def endAt (k : Nat) : Nat := 64 + 48 * k + 32

/-- Insert an id into a rising list. -/
def insertId (x : Nat) (l : List Nat) : List Nat := l.takeWhile (· < x) ++ x :: l.dropWhile (· < x)

namespace State

/-- An object is a rollout object of the turn: a byte object with the magic and the turn's number (R345). -/
def isRollout (s : State) (id : Nat) (o : Obj) : Bool :=
  o.bytesKind && !o.creating &&
    (let h := s.objBytes id o 0 64
     fieldLE h 0 4 == 0x4C4F5247 && fieldLE h 8 8 == s.turn.turn)

/-- Every rollout object of the turn on the device, its own and copies of other devices' (R349). -/
def rolloutObjs (s : State) : List (Nat × Obj) :=
  s.objs.filterMap fun c => match c.2 with
    | some o => if s.isRollout c.1 o then some (c.1, o) else none
    | none => none

/-- The device's own rollout object: the turn bay's (R345). -/
def rolloutObj (s : State) : Option (Nat × Obj) := s.rolloutObjs.find? fun x => ownerOf x.1 == s.footing.turn.turnBay

def rolloutHead (s : State) (x : Nat × Obj) : Rollout := rolloutOf (s.objBytes x.1 x.2 0 64)

/-- A sequence's end code. -/
def endCode (s : State) (x : Nat × Obj) (k : Nat) : Nat := fieldLE (s.objBytes x.1 x.2 (endAt k) 1) 0 1

/-- A sequence has a reward that is still NaN (R348). -/
def lacksReward (s : State) (x : Nat × Obj) (k : Nat) : Bool :=
  let h := s.rolloutHead x
  let rs := s.objBytes x.1 x.2 (h.rewardAt + 4 * h.slots * k) (4 * h.slots)
  (List.range h.slots).any fun r => (b32 (wordOf rs r)).isNan

/-- Sequences of the device's rollout object left out of the turn's micro-batches (R348). -/
def unscored (s : State) : Nat :=
  match s.rolloutObj with
  | none => 0
  | some x => ((List.range (s.rolloutHead x).seqs).filter (s.lacksReward x)).length

/-- Every sequence of the rollout object has ended (R342, R346). -/
def allEnded (s : State) : Bool :=
  match s.rolloutObj with
  | none => true
  | some x => (List.range (s.rolloutHead x).seqs).all fun k => s.endCode x k != 0

/-- Write one byte of an object. -/
def pokeObj (s : State) (id at_ : Nat) (v : Byte) : State :=
  match s.obj id with
  | none => s
  | some o =>
    let z := tileSize o.bytesKind o.fmt
    (s.rewriteTile id (at_ / z) (((s.readTile id o (at_ / z)).getD (zeros z)).set (at_ % z) v)).1

/-- Give every running sequence of the device's rollout object an end code (R347, R359). -/
def closeSequences (s : State) (code : Nat) : State :=
  match s.rolloutObj with
  | none => s
  | some x =>
    ((List.range (s.rolloutHead x).seqs).filter fun k => s.endCode x k == 0).foldl
      (fun (t : State) k => t.pokeObj x.1 (endAt k) (BitVec.ofNat 8 code)) s

/-- A step boundary of the turn bay after an expired GENERATE limit closes the running sequences (R347). -/
def closeAtBoundary (s : State) (b : Nat) : State :=
  if s.turn.closeRunning ∧ b = s.footing.turn.turnBay then
    let t := s.closeSequences 3
    { t with turn := { t.turn with closeRunning := false } }
  else s

/-! ### The assignment (R349) -/

/-- The ids of the scored sequences of the turn's rollout objects, ascending. -/
def scoredIds (s : State) : List Nat :=
  (s.rolloutObjs.flatMap fun x =>
    ((List.range (s.rolloutHead x).seqs).filter fun k => !s.lacksReward x k).map fun k =>
      fieldLE (s.objBytes x.1 x.2 (64 + 48 * k) 4) 0 4).foldr insertId []

/-- Data index, step and micro-batch of the sequence of place k, first being the turn's first step. -/
def placeOf (s : State) (first k : Nat) : Nat × Nat × Nat :=
  let p := s.footing.train
  let n := s.footing.turn.seqPerMb
  (k % p.d, first + k / p.d / (n * p.micro), k / p.d / n % p.micro)

/-- The scored sequences the turn uses, each with its place: (sequence id, data index, step, micro-batch). -/
def assignment (s : State) (first : Nat) : List (Nat × Nat × Nat × Nat) :=
  let p := s.footing.train
  (s.scoredIds.zipIdx.take (s.footing.turn.stepsPerTurn * p.micro * s.footing.turn.seqPerMb * p.d)).map fun x =>
    (x.1, s.placeOf first x.2)

/-! ### Deletion after a void (R359) -/

/-- Delete what is left of a void turn's rollout objects once nothing pins them. -/
def sweepRollouts (s : State) : State :=
  s.turn.doomed.foldl (fun (t : State) id =>
    let drop (u : State) : State := { u with turn := { u.turn with doomed := u.turn.doomed.filter (· ≠ id) } }
    match t.obj id with
    | none => drop t
    | some o => if o.pins = 0 ∧ o.devPins = 0 then drop (t.deleteObj id o) else t) s

/-- A void: running sequences are marked abandoned and the turn's rollout objects go once they are unpinned. -/
def voidRollouts (s : State) : State :=
  let t := s.closeSequences 4
  sweepRollouts { t with turn := { t.turn with doomed := t.turn.doomed ++ s.rolloutObjs.map (·.1) } }

end State
end Sys2Proof.Machine
end

