-- ==== Sys2Proof/Machine/Bays.lean ====
section
/-!
DEFINITION. Bays (03_brick_fabric.md): sites that fail (R74), bay plan changes (R79, R80), the bay commands (R82, R83,
R87, R91, R92, R94, R95, R109, R110, R353), layer fences (R85, R86) and the bond swap (R88, R89).
-/
namespace Sys2Proof.Machine

/-! ### Loops (R119) -/

/-- After a word: where it ends a LOOP body, the address takes the stride and the pass is repeated or the loop ends. -/
def endPasses (m : Memory) (p : Nat) : Nat → Gen → Gen
  | 0, g => g
  | n + 1, g => match g.stack with
    | [] => g
    | fr :: rest =>
      let w := progWord m p fr.word
      if g.word = fr.word + loopBody w + 1 then
        let a := g.addr + loopStride w
        if 1 < fr.remaining then
          { g with word := fr.word + 1, addr := a, stack := { fr with remaining := fr.remaining - 1, start := a } :: rest }
        else endPasses m p n { g with addr := a, stack := rest }
      else g

/-- On to the next word. -/
def nextWord (m : Memory) (p : Nat) (g : Gen) : Gen :=
  endPasses m p 4 { g with word := g.word + 1, moved := 0, state := .running }

/-! ### Bay plans (R77–R80) -/

def rectBad (r : Rect) : Bool :=
  4 ≤ r.die || r.rows == 0 || r.cols == 0 || 32 < r.row + r.rows || 32 < r.col + r.cols

/-- A field of a plan entry lies outside its range (R77, R169, R203, R236, R248). -/
def planBad (p : BayPlan) : Bool :=
  8 ≤ p.role || (p.role == 0) != p.rects.isEmpty || 16 < p.rects.length || p.rects.any rectBad
    || 4096 ≤ p.base || p.swapWaitLimit == 0 || 65535 < p.swapWaitLimit || 16777216 < p.clayQuota
    || 2 ^ 64 ≤ p.loamQuota || 2 ^ 64 ≤ p.marlQuota
    || 64 < p.hodCount || 1024 < p.hodFirst + p.hodCount || 1023 < p.hodFirst || 65536 < p.streamCount

/-- Some two of a list of rectangles share a brick. -/
def anyOverlap : List Rect → Bool
  | [] => false
  | r :: rs => rs.any (rectsOverlap r) || anyOverlap rs

/-- Two hod-queue ranges share a queue (R203). -/
def hodOverlap (a b : BayPlan) : Bool :=
  max a.hodFirst b.hodFirst < min (a.hodFirst + a.hodCount) (b.hodFirst + b.hodCount)

namespace State

/-- Sectors of Loam or Marl a quota may take, and granules of Clay (R248, R331). -/
def tierCapacity (s : State) (t : Tier) : Nat :=
  let sum := ((s.inService t).map fun u => (s.unit u).capacity).sum
  match t with
  | .clay => 16777216
  | .loam => if s.system.spare ∨ s.ckpt.shares.isEmpty then sum else sum - s.footing.train.buddySectors
  | .marl => ([32, 33, 34, 35].map fun u => (s.unit u).found).sum

/-- The quotas of a plan change: the sums over all bays, and each bay's current use (R248). -/
def quotaBad (s : State) (b : Nat) (p : BayPlan) : Bool :=
  [Tier.clay, .loam, .marl].any fun t =>
    let q := tierQuota { plan := p } t
    s.tierCapacity t < q + (((List.range 64).filter (· != b)).map fun c => tierQuota (s.bay c) t).sum
      || q < tierUsed (s.bay b) t

/-- The refusal of a plan change, S_OK where it is applied. One that only orders or cuts the same bricks anew is held to
R80's states too (log entry 111). -/
def planCode (s : State) (b : Nat) (p : BayPlan) : Code :=
  let v := s.bay b
  let others := ((List.range 64).filter (· != b)).map fun c => (s.bay c).plan
  let moves := p.rects ≠ v.plan.rects ∨ p.base ≠ v.plan.base
  if planBad p then eBadField
  else if moves ∧ v.state ≠ .empty ∧ v.state ≠ .stopped then eBayState
  else if anyOverlap (p.rects ++ others.flatMap (·.rects)) || others.any (hodOverlap p) then eBayOverlap
  else if (planBricks p).any s.vacant then eBrickVacant
  else if s.quotaBad b p then eQuota
  else sOk

/-- What a brick keeps as it leaves a bay: its column, its amax registers and flag states, and the bits of its accumulator
banks, which only a swap clears (R148); its hopper is zeroed (R63), its planes EMPTY (log entry 32). -/
def leftBrick (k : Brick) : Brick :=
  { clay := k.clay, amax := k.amax, laneFlags := k.laneFlags, rowX := k.rowX, rowY := k.rowY
    bank0 := { entries := k.bank0.entries }, bank1 := { entries := k.bank1.entries } }

/-- Bricks leaving a bay, whose streams are unbound. -/
def leaveBay (s : State) (b : Nat) (p : BayPlan) : State :=
  let gone := (s.bricksOf b).filter fun n => !inPlan n p
  if gone.isEmpty then s
  else gone.foldl (fun t n => t.setBrick n (leftBrick (t.brick n))) (s.unbindStreams b)

/-- A bay plan change (R80): the state after, and the code. -/
def planChange (s : State) (b : Nat) (p : BayPlan) : State × Code :=
  let code := s.planCode b p
  if code ≠ sOk then (s.setBay b { s.bay b with lastCode := code }, code)
  else
    let t := s.leaveBay b p
    (t.setBay b { t.bay b with plan := p, lastCode := sOk }, sOk)

/-! ### Faults and aborts (R74, R89, R205, R262) -/

/-- Add the cycles of a FENCED bay up to a cycle to its counter (R97). -/
def endWait (s : State) (b cycle : Nat) : State :=
  let v := s.bay b
  if v.state = .fenced then (s.setBay b { v with waitFrom := cycle }).count (baySwapWait b) (cycle - v.waitFrom) else s

/-- The fence-class packets between a bay's bricks stand for nothing any more. -/
def dropFence (s : State) (b : Nat) : State :=
  let bricks := s.bricksOf b
  s.setGrit (s.net.grit.filter fun m => !(m.p.fence && (bricks.contains m.p.source || bricks.contains m.p.dest)))

/-- A bay enters FAULTED: what was pending or in progress is dropped, the planes stay as they are. -/
def faultBay (s : State) (b : Nat) (code : Code) : State :=
  let t := (s.countLoading b s.tb.cycle).endWait b s.tb.cycle
  let v := t.bay b
  let u := match v.loading with
    | some o => t.unpinObj o
    | none => t
  let w := match v.state, v.saveObj with
    | .saving, some o => (match u.obj o with
      | some x => (u.setObj o (some { x with creating := false })).unpinObj o
      | none => u)
    | _, _ => u
  let x := w.dropFence b
  x.setBay b { v with state := .faulted, lastCode := code, saveObj := none, amaxIn := [], swapAt := none, shutdown := none,
                      enableHeld := false, loading := none, swapCycle := none, fenceId := none, quietBy := [],
                      swappedBy := [] }

/-- A site fails (R74, R75): marked, and where it served a position that was not vacant, the bay faults and the device
is degraded. -/
def failSite (s : State) (die row col : Nat) : State :=
  let t := { s with dies := { s.dies with failed := aput false s.dies.failed (siteIndex die row col) true } }
  match s.rowOfSite die row col with
  | none => t
  | some r =>
    let n := brickId die r col
    if s.vacant n then t
    else
      let u := match s.planOf n with
        | some b => t.faultBay b eBrickFault
        | none => t
      u.degrade 0 die sOk n

/-- A bay's consumer met an uncorrectable error (R262): a shut-down with E_STEP_ABORT is made pending. -/
def stepAbort (s : State) (n : Nat) (obj : Option Nat) : State :=
  let t := s.error 2 (dieOf n) eStepAbort (BitVec.ofNat 32 (obj.getD n))
  match s.bayOf n with
  | none => t
  | some b =>
    let v := t.bay b
    if v.state = .faulted ∨ v.state = .empty then t
    else t.setBay b { v with shutdown := some eStepAbort, abortObj := obj }

/-- An uncorrectable word a brick's function consumes: bits delivered as they are, the error recorded, and a
shut-down with E_STEP_ABORT made pending (R262); corrected words are counted (R260). -/
def consumeEcc (s : State) (b n : Nat) (sp : Space) (at_ : Nat) (e : Ecc) : State :=
  match e with
  | .clean => s
  | .corrected w => s.corrected memCorr w
  | .uncorrectable off =>
    match sp with
    | .hopper => ((s.count memUncorr 1).recordErr 1 n false (at_ + off) none).stepAbort n none
    | .column =>
      let unit := (columnUnit (s.bay b).plan.base (at_ / 256) + off) % 65536
      let holder := (s.objs.find? fun c => match c.2 with
        | some o => s.holdsGranule n [unit / 16] c.1 o
        | none => false).map (·.1)
      (s.badWord n unit false holder).stepAbort n holder

/-! ### The start of a bond and the running state -/

/-- A bay enters RUNNING: a program 0 held at a fence goes on behind it, and rewound programs run again (R86, R218). -/
def startBricks (s : State) (b : Nat) : State :=
  (s.bricksOf b).foldl (fun t n =>
    let k := t.brick n
    let g := k.gen 0
    let k1 := if g.state = .held then
        { k.setGen 0 (nextWord k.conf 0 g) with fences := k.fences + 1 }
      else k
    t.setBrick n { k1 with quietSent := false, rewound := [] }) s

def enterRunning (s : State) (b : Nat) : State :=
  let t := s.startBricks b
  t.setBay b { t.bay b with state := .running, quietBy := [] }

/-! ### Swap (R87, R88) -/

/-- The swap can be served in cycle A: the anchor sends every brick a packet that names S = A + 128. -/
def beginSwap (s : State) (b cycle : Nat) (after : BayState) : State :=
  let t := s.endWait b cycle
  let u := (t.bricksOf b).foldl (fun u n => u.setBrick n { u.brick n with swapCycle := none, swapped := false }) t
  let w := u.setBay b { u.bay b with state := .swapping, swapAt := none, swapCycle := some (cycle + 128), afterSwap := after,
                                     swappedBy := [] }
  (w.bricksOf b).foldl (fun (w : State) n =>
    w.sendGrit reqFunction (gritOf 6 n (w.anchor b) 0 0 (w.swapArg (cycle + 128)) [])) w

/-- A bay of a serving group that replaces its weights has flipped: the slot's digests change at the first one, in the
serving table and where the image table names them (R57, R384). -/
def noteFlip (s : State) (b : Nat) : State :=
  (List.range 16).foldl (fun (t : State) m =>
    let g := aget {} t.serving.groups m
    match g.replace with
    | none => t
    | some r =>
      if r.ready ∧ r.bays.contains b then
        let left := r.bays.filter (· ≠ b)
        let g1 := { g with replace := if left.isEmpty then none else some { r with bays := left } }
        let models := t.footing.models.map fun x => if x.1 = m then (m, { x.2 with weights := r.weights, header := r.header }) else x
        let images := t.footing.images.map fun x =>
          if x.2.2.1 = 3 ∧ x.2.2.2.1 = r.old then (x.1, x.2.1, 3, r.weights, r.header) else x
        { t with
          serving := { t.serving with groups := aput {} t.serving.groups m g1 }
          footing := { t.footing with models := models, images := images } }
      else t) s

/-- A pending weight flip takes effect (R355). -/
def flipWeights (s : State) (b : Nat) : State :=
  let v := s.bay b
  if v.wsPending then (s.setBay b { v with wsActive := !v.wsActive, wsPending := false }).noteFlip b else s

/-- Cycles 0–63 of the sequence on one brick, but for the binding of streams: banks cleared as the new mode word marks,
generators in their start state, planes exchanged. -/
def exchangePlanes (k : Brick) : Brick :=
  let old := k.active
  let new := k.shadow
  let m := new.image
  let k1 := k.setActive { old with state := if old.state = .active then .loaded else old.state }
  let k2 := k1.setShadow { new with state := .active }
  { k2 with
    activePlane := !k.activePlane
    gens := [{}, {}, {}, {}], streams := [], fillBank := firstBank m, passes := 0, chainLoaded := false, mergesTaken := 0
    bank0 := if clearBank m false then {} else if firstBank m then k.bank0 else { k.bank0 with state := .filling }
    bank1 := if clearBank m true then {} else if firstBank m then { k.bank1 with state := .filling } else k.bank1
    acts := [], weights := [], side := [], prim := [], results := [], lanes := [], laneWords := none, laneSide := none
    layoutCounts := [], fences := 0, tag := 0, relayPtr := 0, sortTile := [], sortRow := [], working := false
    amaxSent := false, passWaited := false, rewound := [], redraws := [], outWait := [], arrayWait := false
    partials := [], partialHandles := [], outJobs := [], refused := false
    quietSent := false, swapped := true, swapCycle := none }

/-- The swap sequence of R88 on every brick of a bay. -/
def runSwap (s : State) (b : Nat) : State :=
  let t := (s.flipWeights b).unbindStreams b
  let u := (t.bricksOf b).foldl (fun u n =>
    ((u.setBrick n (exchangePlanes (u.brick n))).count (siteSwaps (brickDie n) (u.siteOf n) (brickCol n)) 1).sendGrit
      reqFunction (gritOf 7 (s.anchor b) n 0 0 0 [])) t
  let w := u.bindStreams b
  let v := w.bay b
  w.setBay b { v with active := v.shadow, shadow := v.active, shadowReady := v.active.isSome, amaxIn := [] }

/-! ### Context save (R94) -/

/-- The object a SAVE creates: blocked over the bay's ranks at the lowest common free granule offset (log entry 35). -/
def ctxPlacement (s : State) (b : Nat) : Option Placement :=
  let bricks := s.bricksOf b
  let n := bricks.length
  let tiles := (256 + n * recordBytes + 4095) / 4096
  let base : Placement := { host := b, first := 0, ranks := n, offset := 0, order := 0, base := (s.bay b).plan.base,
                            bricks := bricks, granules := n * perGranules tiles n 4096 }
  ((List.range 4096).map fun g => { base with offset := g }).find? s.placeFree

def saveCode (s : State) (b obj : Nat) : Code :=
  if (s.obj obj).isSome then eObjExists
  else if 65536 ≤ s.objs.length then eTierFull
  else match s.ctxPlacement b with
    | none => ePlaceOverlap
    | some p => if (s.bay b).plan.clayQuota < (s.bay b).clayUsed + p.granules then eQuota else sOk

/-- The pending save starts: its object is created in Clay, charged to the bay, and pinned. -/
def startSave (s : State) (b obj cycle : Nat) : State × Code :=
  let code := s.saveCode b obj
  let clear := s.setBay b { s.bay b with saveObj := none, lastCode := code }
  match s.ctxPlacement b with
  | none => (clear, code)
  | some p =>
    if code ≠ sOk then (clear, code)
    else
      let size := 256 + s.brickCount b * recordBytes
      let o : Obj := { bytesKind := true, fmt := 0, tiles := (size + 4095) / 4096, size := size, residence := .clay,
                       creating := true, place := some p, charged := b, clayCharge := p.granules, devPins := 1 }
      let t := ((s.endWait b cycle).setObj obj (some o)).chargeClay b p.granules
      let v := t.bay b
      (t.setBay b { v with state := .saving, saveObj := some obj, afterSave := v.state, saveTick := t.tb.tick,
                           lastCode := sOk }, sOk)

/-- The context object's bytes. -/
def ctxBytes (s : State) (b : Nat) : Bytes :=
  ctxHeader b (s.bay b) (s.brickCount b) ++ (s.bricksOf b).flatMap fun n => recordOf (s.brick n)

/-- The context engines have written every record (R94): the object is complete, its handles parked. -/
def writeContext (s : State) (b obj : Nat) : State :=
  match s.obj obj with
  | none => s
  | some o =>
    let data := s.ctxBytes b
    let live := s.liveHandles b
    let t := match o.place with
      | some p => (List.range o.tiles).foldl (fun (t : State) k => t.putTile (slice data (4096 * k) 4096) (t.tileTargets obj o p k)) s
      | none => s
    let u := t.setObj obj (some { o with creating := false, devPins := o.devPins - 1, parked := live, parkedBay := b })
    u.setBay b { u.bay b with parked := (u.bay b).parked + live }

/-! ### The layer fence (R85, R86) -/

/-- After the last request the bay resumes, or enters STOPPED where a shut-down was served; a held ENABLE starts it
again (R92). -/
def endFence (s : State) (b : Nat) : State :=
  let v := s.bay b
  match v.shutdown with
  | none => (s.setBay b { v with fenceId := none }).enterRunning b
  | some c =>
    let t := s.setBay b { v with fenceId := none, shutdown := none, enableHeld := false, state := .stopped, quietBy := []
                                 lastCode := if c = sOk then v.lastCode else c }
    if v.enableHeld then t.enterRunning b else t

/-- The swap at a fence: served where the shadow is ready, else the bay waits in FENCED. -/
def fenceSwap (s : State) (b cycle : Nat) : State :=
  let v := s.bay b
  if v.swapAt.isSome then
    if v.shadowReady then s.beginSwap b cycle .running
    else if v.state = .fenced then s
    else s.setBay b { v with state := .fenced, waitFrom := cycle }
  else s.endFence b

/-- Serve the pending requests in the order of R86. -/
def serveFence (s : State) (b cycle : Nat) : State :=
  match (s.bay b).saveObj with
  | none => s.fenceSwap b cycle
  | some o =>
    let r := s.startSave b o cycle
    if r.2 = sOk then r.1 else r.1.fenceSwap b cycle

/-- The bay's amax registers at a drained step_end fence: shared registers take the bay's maximum (R193), and every
register latches (R134). -/
def sharedMask (m : Memory) : Nat :=
  match (chainWords m).find? fun k => epiOp (epi m k) == 0x2A with
  | some k => shareMask (epi m k)
  | none => 0

/-- The maximum of a register over the bricks of a bay that share it: NaN ignored. -/
def shareMax (s : State) (b r : Nat) : Word :=
  (((s.bricksOf b).filter fun n => (sharedMask (s.brick n).conf).testBit r).map fun n =>
    (aget ({} : Amax) (s.brick n).amax r).amax).foldl (fun best x =>
      if 0x7F800000 < x.toNat then best else if best.toNat < x.toNat then x else best) 0

def latchBrick (s : State) (b : Nat) (k : Brick) : Brick :=
  { k with
    amaxSent := false
    amax := arun {} 0 ((List.range 16).map fun r =>
      let a := aget ({} : Amax) k.amax r
      latchReg (if (sharedMask k.conf).testBit r then { a with amax := s.shareMax b r } else a)) }

/-- Every amax register of the bay latches at F; an exchange begun before the drain ends there. -/
def latchAmaxes (s : State) (b : Nat) : State :=
  let t := (s.bricksOf b).foldl (fun t n => t.setBrick n (s.latchBrick b (t.brick n))) s
  (t.setBay b { t.bay b with amaxIn := [] }).setGrit (t.net.grit.filter fun m => !((m.p.kind == 8 || m.p.kind == 9)
    && ((s.bricksOf b).contains m.p.source || (s.bricksOf b).contains m.p.dest)))

/-- Every other learner bay with an ACTIVE bond is past the step (R310). -/
def learnersPast (s : State) (b step : Nat) : Bool :=
  (List.range 64).all fun x => x == b || (s.bay x).plan.role != 4 || (s.bay x).active.isNone || step < (s.bay x).epoch.toNat

/-- The device's update must not overtake a checkpoint that is not acknowledged (R334; log entry 64). -/
def holdUpdate (s : State) : State :=
  { s with ckpt := { s.ckpt with holding := (s.ckpt.state == 2 || s.ckpt.state == 3) && s.ckpt.sending < s.turn.step } }

/-- A learning step has ended on the device (R309, R341): LEARN ends with the turn's last one. A refused update record
ends the update phase instead (R327). -/
def endLearnStep (s : State) (step : Nat) : State :=
  if s.turn.optRefusedSeen then { s with turn := { s.turn with lastCode := eOptRecord, optRefusedSeen := false } }
  else
    let last := s.turn.phase == 3 && s.turn.learnFrom + s.footing.turn.stepsPerTurn ≤ step + 1
    State.holdUpdate { s with turn := { s.turn with
      step := max s.turn.step step, phase := if last then 4 else s.turn.phase
      phaseStart := if last then s.tb.tick else s.turn.phaseStart, ownDone := if last then none else s.turn.ownDone } }

/-- The lineage after an optimiser step_end fence (R438). -/
def noteUpdate (s : State) (b : Nat) : State :=
  let d := ((s.bay b).active.map (·.digest)).getD []
  { s with cs := { s.cs with
    updates := s.cs.updates + 1, optDigest := d
    lineageFlags := if s.cs.optDigest ≠ [] ∧ s.cs.optDigest ≠ d then s.cs.lineageFlags ||| 2 else s.cs.lineageFlags } }

/-- The bay's part of a step_end fence: the draw epoch (R169), the weight flip (R355), the closing of the turn bay's
running sequences (R347), and on a learner bay the device's step. -/
def bayStepEnd (s : State) (b : Nat) : State :=
  let v := s.bay b
  let t := (s.setBay b { v with epoch := v.epochNext.getD v.epoch, epochNext := none }).flipWeights b |>.closeAtBoundary b
  if v.plan.role = 4 ∧ s.learnersPast b v.epoch.toNat then
    (if s.turn.optRefusedSeen then t else t.noteUpdate b).endLearnStep v.epoch.toNat
  else t

/-- A fence of the ACTIVE bond ends a step. -/
def stepEnds (v : Bay) (id : Nat) : Bool :=
  ((v.active.map (·.fences)).getD []).any fun f => f.1 == id && f.2

/-- The fence cycle F: every brick is quiet (R85). -/
def reachFence (s : State) (b cycle : Nat) : State :=
  let v := s.bay b
  let t := (s.setBay b { v with fenceTick := s.tb.up, fenceCycle := cycle }).count (bayFenceCount b) 1
  let u := if stepEnds v (v.fenceId.getD 0) then (t.latchAmaxes b).bayStepEnd b else t
  u.serveFence b cycle

/-! ### LOAD (R82, R83, R109, R114, R353) -/

/-- The format words a section must find in the layout (R353). -/
def layoutWords (m : Memory) : List Nat :=
  let indexed := !freeMode m && streamCount m != 0
  let red2 := reductionOf m == 2
  if indexed || red2 then
    (List.range 8).filter fun i => (formatWord m i).round == 1 || (red2 && i < 3)
  else []

/-- A validated layout descriptor of a digest that lies in Clay. -/
def findLayout (s : State) (dig : Bytes) : Option Nat :=
  (s.objs.find? fun c => match c.2 with
    | some o => o.residence == .clay && o.validated == some dig && fieldLE (s.objBytes c.1 o 0 4) 0 4 == layoutMagic
    | none => false).map (·.1)

/-- What a LOAD that passes its checks writes into each brick's plane. -/
structure LoadPlan where
  info : BondInfo
  planes : List Plane
  layoutDigest : Bytes
  deriving DecidableEq, Repr

/-- The plane of the brick of a rank. -/
def loadPlane (s : State) (b : Nat) (p : Placement) (layout : List Bytes) (rank : Nat) : Option Plane :=
  let raw := s.readSection p rank
  let v := s.bay b
  (s.resolveSection b rank (sectionMem raw)).map fun m =>
    { state := .loading, image := m, tag := wordOf (digest raw) 0
      keys := streamKeys m v.plan.seed v.plan.streamFirst v.restoreEpoch
      layout := layout.filter fun e => covers (layoutEntry e) rank }

/-- A pass or reduce bond of the job plan with a step_end fence (R309, R453). -/
def stepEndRefused (s : State) (dig : Bytes) (fences : List (Nat × Bool)) : Bool :=
  fences.any (·.2) && s.footing.bonds.any fun x => x.2.2.2 == dig && (x.2.2.1 == 3 || x.2.2.1 == 4)

/-- The checks of R83, R109, R353, R309 and R430 in order, and what the LOAD writes. -/
def planLoad (s : State) (b obj : Nat) : Code × Option LoadPlan :=
  let v := s.bay b
  match s.readable obj with
  | none => (eNoSuchObject, none)
  | some o =>
    let head := s.objBytes obj o 0 256
    let g := bondGeom head
    if o.lost then (eObjLost, none)
    else if fieldLE head 0 4 ≠ bondMagic ∨ headerShape head ≠ shapeOf v.plan then (eBondShape, none)
    else match o.residence, o.place with
    | .clay, some p =>
      if p.order ≠ 2 ∨ p.host ≠ b ∨ p.bricks ≠ s.bricksOf b then (eNoSuchObject, none)
      else match o.validated with
      | none => (eBondDigest, none)
      | some dig =>
        let front := s.objBytes obj o 0 g.sectionsOffset
        if fieldLE head 96 2 > v.plan.hodCount ∨ fieldLE head 98 2 > v.plan.streamCount then (eBondRange, none)
        else
          let lay := slice head 64 32
          let routed := (List.range g.bricks).map fun r => s.loadPlane b p [] r
          if routed.any Option.isNone then (eBondShape, none)
          else match (s.findLayout lay).bind fun i => (s.obj i).map fun x => s.wholeObj i x with
          | none => (eLayoutMissing, none)
          | some img =>
            let es := layoutEntries img
            let uncovered := routed.zipIdx.any fun x => (layoutWords ((x.1.map (·.image)).getD [])).any fun w =>
              !es.any fun e => (layoutEntry e).fmtWord == w && covers (layoutEntry e) x.2
            let newDigs := [dig, lay].filter fun d => !s.cs.progs.any fun e => e.digest == d
            if uncovered then (eLayoutShape, none)
            else if s.stepEndRefused dig (fenceTable g front) then (eTrainBond, none)
            else if 4096 < s.cs.progs.length + newDigs.length then (eAttestFull, none)
            else (sOk, some {
              info := { object := obj, digest := dig, layoutDigest := lay, fences := fenceTable g front,
                        seed := v.plan.seed, streamFirst := v.plan.streamFirst }
              planes := (List.range g.bricks).map fun r => (s.loadPlane b p es r).getD {}
              layoutDigest := lay })
    | _, _ => (eNoSuchObject, none)

/-- Enter a digest into the attestation record at its first LOAD (R430). -/
def enterProgram (s : State) (dig : Bytes) (kind : Nat) : State :=
  if s.cs.progs.any fun e => e.digest == dig then s
  else { s with cs := { s.cs with progs := s.cs.progs ++ [{ digest := dig, kind := kind, tick := s.tb.tick }] } }

/-- A LOAD is taken: the object pinned, every shadow plane LOADING. -/
def beginLoad (s : State) (b obj cycle : Nat) (l : LoadPlan) : State :=
  let s1 := s.countLoading b cycle
  let s0 := match (s.bay b).loading with
    | some old => s1.unpinObj old
    | none => s1
  let t := ((s0.pinObj obj).enterProgram l.info.digest 1).enterProgram l.layoutDigest 2
  let u := (t.bricksOf b).zipIdx.foldl (fun u x =>
    u.setBrick x.1 { (u.brick x.1).setShadow (l.planes.getD x.2 {}) with drains := 0 }) t
  u.setBay b { u.bay b with loading := some obj, loadCycle := cycle, loadedBy := [], shadowReady := false,
                            shadow := some l.info, lastCode := sOk }

/-! ### The bay commands (R91) -/

def setCode (s : State) (b : Nat) (c : Code) : State := s.setBay b { s.bay b with lastCode := c }

/-- ENABLE (R91, R92). -/
def cmdEnable (s : State) (b : Nat) : State :=
  let v := s.bay b
  let busy := v.state = .running ∨ v.state = .draining ∨ v.state = .fenced ∨ v.state = .swapping ∨ v.state = .saving
  if v.shutdown.isSome ∧ busy then s.setBay b { v with enableHeld := true, lastCode := sPendingEnable }
  else if v.state = .ready ∨ v.state = .stopped then (s.setCode b sOk).enterRunning b
  else if v.state = .swapping then
    s.setBay b { v with lastCode := sOk, afterSwap := if v.fenceId.isSome then v.afterSwap else .running }
  else if busy ∧ (v.state ≠ .saving ∨ v.fenceId.isSome) then s.setCode b sOk
  else s.setCode b eBayState

/-- SHUT_DOWN (R91, R92). -/
def cmdShutDown (s : State) (b : Nat) : State :=
  let v := s.bay b
  if v.enableHeld then s.setBay b { v with enableHeld := false, lastCode := sOk }
  else if v.state = .running then
    s.setBay b { v with shutdown := some (v.shutdown.getD sOk), lastCode := sOk }
  else if v.state = .ready then s.setBay b { v with state := .stopped, lastCode := sOk }
  else if v.state = .stopped ∨ v.state = .empty then s.setCode b sOk
  else s.setCode b eBayState

/-- SWAP (R87). -/
def cmdSwap (s : State) (b cycle : Nat) : State :=
  let v := s.bay b
  if v.state = .faulted ∨ v.state = .swapping then s.setCode b eBayState
  else if v.swapAt.isSome then s.setCode b eSwapPending
  else
    let t := s.setBay b { v with swapAt := some s.tb.up, lastCode := sOk }
    if (v.state = .empty ∨ v.state = .ready ∨ v.state = .stopped) ∧ v.shadowReady then
      t.beginSwap b cycle (if v.state = .empty then .ready else v.state)
    else t

/-- LOAD (R82, R83). -/
def cmdLoad (s : State) (b obj cycle : Nat) : State :=
  let v := s.bay b
  if v.state = .faulted then s.setCode b eBayState
  else if v.swapAt.isSome then s.setCode b eSwapPending
  else if v.state = .swapping ∨ v.state = .saving then s.setCode b ePlaneBusy
  else match s.planLoad b obj with
    | (_, some l) => s.beginLoad b obj cycle l
    | (c, none) => s.setCode b c

/-- SAVE (R91, R94). -/
def cmdSave (s : State) (b obj cycle : Nat) : State :=
  let v := s.bay b
  if v.saveObj.isSome then s.setCode b eBayState
  else if v.state = .running then s.setBay b { v with saveObj := some obj, lastCode := sOk }
  else if v.state = .ready ∨ v.state = .stopped ∨ v.state = .fenced then (s.startSave b obj cycle).1
  else s.setCode b eBayState

/-- RESTORE's refusals (R95, R263). -/
def restoreCode (s : State) (b obj : Nat) : Code :=
  let v := s.bay b
  if v.state ≠ .ready ∧ v.state ≠ .stopped then eBayState
  else match s.readable obj with
    | none => eNoSuchObject
    | some o =>
      let h := s.objBytes obj o 0 256
      if o.lost then eObjLost
      else if fieldLE h 0 4 ≠ ctxMagic ∨ fieldLE h 4 2 ≠ 1 then eBadField
      else if ctxShape h ≠ shapeOf v.plan then eCtxShape
      else if some (slice h 32 32) ≠ v.active.map (·.digest) then eBondDigest
      else sOk

/-- A direct restore (R95): every record to the brick of its rank, streams bound from the records (R219). -/
def restoreBay (s : State) (b obj : Nat) (o : Obj) : State :=
  let h := s.objBytes obj o 0 256
  let t := s.unbindStreams b
  let u := (t.bricksOf b).zipIdx.foldl (fun u x =>
    u.setBrick x.1 (installRecord (u.brick x.1) (s.objBytes obj o (256 + x.2 * recordBytes) recordBytes))) t
  let w := u.setObj obj (some { o with parked := 0 })
  let v := w.bay b
  let home := w.setBay b { v with state := .ready, restoreEpoch := BitVec.ofNat 32 (fieldLE h 12 4), lastCode := sOk
                                  issued := v.issued + w.liveHandles b }
  home.setBay o.parkedBay { home.bay o.parkedBay with parked := (home.bay o.parkedBay).parked - o.parked }

/-- RESTORE, with what its read of the context object showed: an uncorrectable tile ends it with nothing restored (log
entry 127). -/
def cmdRestore (s : State) (b obj : Nat) (read : ObjRead) : State :=
  let c := s.restoreCode b obj
  match s.obj obj with
  | some o =>
    if c ≠ sOk then s.setCode b c
    else
      let r := s.fetchTiles obj o read 0 o.tiles
      if r.2.isNone then r.1.setCode b eStepAbort else r.1.restoreBay b obj o
  | none => s.setCode b c

/-- CLEAR (R91): every plane EMPTY, the bay EMPTY. -/
def cmdClear (s : State) (b : Nat) : State :=
  let v := s.bay b
  if v.state ≠ .faulted ∧ v.state ≠ .stopped ∧ v.state ≠ .ready then s.setCode b eBayState
  else
    let s1 := s.countLoading b s.tb.cycle
    let s0 := match v.loading with
      | some o => s1.unpinObj o
      | none => s1
    let t := s0.unbindStreams b
    let u := (t.bricksOf b).foldl (fun u n => u.setBrick n { u.brick n with plane0 := {}, plane1 := {}, streams := [] }) t
    u.setBay b { u.bay b with state := .empty, active := none, shadow := none, shadowReady := false, loading := none
                              saveObj := none, swapAt := none, shutdown := none, enableHeld := false, fenceId := none
                              lastCode := sOk }

/-- A bay command by its code (R91). Every one but CLEAR is refused where the bay's plan names a vacant position (R74; log
entry 110). -/
def bayCommand (s : State) (b cmd : Nat) (arg : Word) (cycle : Nat) (read : ObjRead := []) : State :=
  if 1 ≤ cmd ∧ cmd < 7 ∧ s.namesVacant b then s.setCode b eBrickVacant
  else if cmd = 1 then s.cmdEnable b
  else if cmd = 2 then s.cmdShutDown b
  else if cmd = 3 then s.cmdSwap b cycle
  else if cmd = 4 then s.cmdLoad b arg.toNat cycle
  else if cmd = 5 then s.cmdSave b arg.toNat cycle
  else if cmd = 6 then s.cmdRestore b arg.toNat read
  else if cmd = 7 then s.cmdClear b
  else s.setCode b eBadField

/-- A write to MG_BAY_CTRL: a nonzero reserved field refuses it (R97). -/
def bayCtrl (s : State) (b cmd reserved cycle : Nat) (read : ObjRead := []) : State :=
  if reserved ≠ 0 then s.setCode b eBadField else s.bayCommand b cmd (s.bay b).arg cycle read

/-! ### Reports at the anchor -/

/-- A pending swap is served once the shadow is ready (R87). -/
def swapNowReady (s : State) (b cycle : Nat) : State :=
  let v := s.bay b
  if v.swapAt.isNone then s
  else if v.state = .fenced then s.beginSwap b cycle .running
  else if v.state = .empty then s.beginSwap b cycle .ready
  else if v.state = .ready ∨ v.state = .stopped then s.beginSwap b cycle v.state
  else s

/-- A brick's LOADED packet, with its plane tag, unless one is on its way (R82, R214). -/
def sendLoaded (s : State) (b n : Nat) : State :=
  if s.net.grit.any fun m => m.p.kind == 5 && m.p.source == n then s
  else s.sendGrit reqFunction (gritOf 5 (s.anchor b) n 0 0 (s.brick n).shadow.tag [])

/-- LOADED of a brick (R82): its plane is LOADED; with the last one the shadow is ready. -/
def loadedAt (s : State) (b n cycle : Nat) : State :=
  let v := s.bay b
  if v.loadedBy.contains n then s
  else
    let k := s.brick n
    let t := (s.setBrick n (k.setShadow { k.shadow with state := .loaded })).count
      (siteLoadCycles (brickDie n) (s.siteOf n) (brickCol n)) (cycle - v.loadCycle)
    let u := t.setBay b { v with loadedBy := v.loadedBy ++ [n] }
    if v.loadedBy.length + 1 < s.brickCount b then u
    else
      let w := match v.loading with
        | some o => u.unpinObj o
        | none => u
      (w.setBay b { u.bay b with loading := none, shadowReady := true }).swapNowReady b cycle

/-- A shadow loader's uncorrectable error (R110). -/
def loadError (s : State) (b n unit : Nat) : State :=
  match (s.bay b).loading with
  | none => s
  | some o =>
    let t := (((s.countLoading b s.tb.cycle).badWord n unit false (some o)).error 2 (dieOf n) eLoadAbort (BitVec.ofNat 32 b)).unpinObj o
    let u := (t.bricksOf b).foldl (fun u x => u.setBrick x ((u.brick x).setShadow {})) t
    u.setBay b { u.bay b with loading := none, shadowReady := false, shadow := none, lastCode := eLoadAbort }

/-- SWAPPED of a brick (R88): with the last one the bay leaves SWAPPING. -/
def swappedAt (s : State) (b n cycle : Nat) : State :=
  let v := s.bay b
  if v.swappedBy.contains n then s
  else
    let t := s.setBay b { v with swappedBy := v.swappedBy ++ [n] }
    if v.swappedBy.length + 1 < s.brickCount b then t
    else
      let u := t.setBay b { t.bay b with swapCycle := none }
      if v.fenceId.isSome then u.serveFence b cycle
      else if v.afterSwap = .running then u.enterRunning b
      else u.setBay b { u.bay b with state := v.afterSwap }

/-- The save ends (R94, R87): at a fence the remaining requests are served, else the bay returns to its state. -/
def saveDone (s : State) (b cycle : Nat) : State :=
  let v := s.bay b
  match v.saveObj with
  | none => s
  | some o =>
    let t := s.writeContext b o
    let u := t.setBay b { t.bay b with saveObj := none }
    if v.fenceId.isSome then u.serveFence b cycle
    else
      let w := u.setBay b { u.bay b with state := v.afterSave }
      if v.shadowReady then w.swapNowReady b cycle else w

/-- A quiet report (R85): with the last one F. -/
def quietAt (s : State) (b n cycle : Nat) : State :=
  let v := s.bay b
  if v.quietBy.contains n ∨ ¬ (s.brick n).quietSent then s
  else
    let t := s.setBay b { v with quietBy := v.quietBy ++ [n] }
    if v.quietBy.length + 1 < s.brickCount b then t else t.reachFence b cycle

/-- swap_wait_limit has passed with the shadow not ready (R87). -/
def swapLate (s : State) (b cycle : Nat) : State :=
  let v := s.bay b
  match v.swapAt with
  | none => s
  | some at_ =>
    let fail := { v with swapAt := none, lastCode := eSwapNotReady }
    if v.shadowReady then s
    else if v.state = .fenced ∧ v.fenceTick + v.plan.swapWaitLimit ≤ s.tb.up then
      ((s.endWait b cycle).setBay b { fail with waitFrom := cycle }).serveFence b cycle
    else if (v.state = .empty ∨ v.state = .ready ∨ v.state = .stopped) ∧ at_ + v.plan.swapWaitLimit ≤ s.tb.up then
      s.setBay b fail
    else s

/-- Run an operation for the bay that holds a brick. -/
def onBay (s : State) (n : Nat) (f : State → Nat → State) : State :=
  match s.bayOf n with
  | some b => if s.awake then f s b else s
  | none => s

end State

/-- SITE_FAILURE (R74). -/
def execSiteFailure (die row col : Nat) (s : State) : Out :=
  .next (if s.awake ∧ die < 4 ∧ row < 33 ∧ col < 32 then s.failSite die row col else s)

/-- ENABLE (R91). -/
def execEnable (agent bay reserved : Nat) (s : State) : Out :=
  .next (if s.coreUp agent ∧ bay < 64 then s.bayCtrl bay 1 reserved s.tb.cycle else s)
/-- SHUT_DOWN (R91). -/
def execShutDown (agent bay reserved : Nat) (s : State) : Out :=
  .next (if s.coreUp agent ∧ bay < 64 then s.bayCtrl bay 2 reserved s.tb.cycle else s)
/-- SWAP (R87). -/
def execSwap (agent bay reserved cycle : Nat) (s : State) : Out :=
  .next (if s.coreUp agent ∧ bay < 64 then s.bayCtrl bay 3 reserved cycle else s)
/-- LOAD (R82). -/
def execLoad (agent bay reserved cycle : Nat) (s : State) : Out :=
  .next (if s.coreUp agent ∧ bay < 64 then s.bayCtrl bay 4 reserved cycle else s)
/-- SAVE (R94). -/
def execSave (agent bay reserved cycle : Nat) (s : State) : Out :=
  .next (if s.coreUp agent ∧ bay < 64 then s.bayCtrl bay 5 reserved cycle else s)
/-- SAVE_COMPLETE (R94), with what the context engines' reads of the bricks' hoppers showed (R260, R262). -/
def execSaveComplete (bay cycle : Nat) (s : State) (eccs : List (Nat × Ecc) := []) : Out :=
  .next (if s.awake ∧ (s.bay bay).state = .saving then
      (eccs.foldl (fun (t : State) x => t.consumeEcc bay x.1 .hopper 0 x.2) s).saveDone bay cycle
    else s)
/-- RESTORE (R95). -/
def execRestore (agent bay reserved : Nat) (s : State) (read : ObjRead := []) : Out :=
  .next (if s.coreUp agent ∧ bay < 64 then s.bayCtrl bay 6 reserved s.tb.cycle read else s)
/-- CLEAR (R91). -/
def execClear (agent bay reserved : Nat) (s : State) : Out :=
  .next (if s.coreUp agent ∧ bay < 64 then s.bayCtrl bay 7 reserved s.tb.cycle else s)
/-- SHADOW_LOAD_ERROR (R110). -/
def execShadowLoadError (brick unit : Nat) (s : State) : Out :=
  .next (s.onBay brick fun t b => if unit < 65536 then t.loadError b brick unit else t)
/-- LOADED_REPORT (R82): the brick's loader has ended, with the words it found corrected, and its packet reaches the
anchor. -/
def execLoadedReport (brick cycle : Nat) (s : State) (corrected : Nat := 0) : Out :=
  .next (s.onBay brick fun t b =>
    if (t.bay b).loading.isSome ∧ ¬ (t.bay b).loadedBy.contains brick then
      ((t.corrected memCorr corrected).sendLoaded b brick).onFencePacket 5 brick false fun u _ => u.loadedAt b brick cycle
    else t)
/-- QUIET_REPORT (R85). -/
def execQuietReport (brick cycle : Nat) (s : State) : Out :=
  .next (s.onBay brick fun t b => t.onFencePacket 4 brick false fun u _ =>
    if (u.bay b).state = .draining then u.quietAt b brick cycle else u)
/-- SWAP_PACKET (R88): the brick takes the swap cycle. -/
def execSwapPacket (brick : Nat) (s : State) : Out :=
  .next (s.onBay brick fun t b => t.onFencePacket 6 brick true fun u _ =>
    if (u.bay b).state = .swapping ∧ (u.brick brick).swapped = false then
      u.setBrick brick { u.brick brick with swapCycle := (u.bay b).swapCycle }
    else u)
/-- SWAP_SEQUENCE (R88): in the swap cycle every brick holds. -/
def execSwapSequence (bay : Nat) (s : State) : Out :=
  .next (if s.awake ∧ (s.bay bay).state = .swapping ∧ (s.bay bay).swapCycle.isSome
      ∧ (s.bricksOf bay).all (fun n => (s.brick n).swapCycle == (s.bay bay).swapCycle) then s.runSwap bay else s)
/-- SWAPPED_REPORT (R88). -/
def execSwappedReport (brick cycle : Nat) (s : State) : Out :=
  .next (s.onBay brick fun t b => t.onFencePacket 7 brick false fun u _ =>
    if (u.bay b).state = .swapping ∧ (u.brick brick).swapped then u.swappedAt b brick cycle else u)
/-- SWAP_WAIT_TIMEOUT (R87). -/
def execSwapWaitTimeout (bay cycle : Nat) (s : State) : Out := .next (if s.awake then s.swapLate bay cycle else s)

end Sys2Proof.Machine
end

