-- ==== Sys2Proof/Machine/Streams.lean ====
section
/-!
DEFINITION. Streams in motion (09_streams.md): flits and grit packets on their way, credits (R66–R70), writing into a
slot and posting it (R204, R209), releasing a buffer (R206), a handle joining its queue (R205) and the exchange of
swap mode (R208); and the flag words (R162, R195).
-/
namespace Sys2Proof.Machine

/-! ### Links (R65–R69) -/

/-- The brick a link leads to. -/
def linkEnd (link : Nat) : Nat :=
  let n := link / 8
  let d := link % 8
  let r := globalRow n
  let c := globalCol n
  if d = 0 then brickAt r (c + 1) else if d = 1 then brickAt r (c - 1)
  else if d = 2 then brickAt (r + 1) c else if d = 3 then brickAt (r - 1) c
  else if d = 4 then n - 32 else if d = 5 then n + 32 else if d = 6 then n - 1 else n + 1

/-- Credits of a virtual channel of a link: 4, or 32 across a die edge (R67, R69). -/
def linkCredits (link : Nat) : Nat := if brickDie (link / 8) = brickDie (linkEnd link) then 4 else 32

/-- The links of one segment on a virtual channel. -/
def segPath (dir vc : Nat) : Nat → Nat → List (Nat × Nat)
  | 0, _ => []
  | stops + 1, n => (n * 8 + dir, vc) :: segPath dir vc stops (linkEnd (n * 8 + dir))

def segDir (perp dec : Bool) : Nat := 2 * bit01 perp + bit01 dec

/-- The links of a route's segments, segment k on virtual channel k (R66). -/
def routePath : Nat → Nat → List (Nat × Bool × Bool) → List (Nat × Nat)
  | _, _, [] => []
  | vc, n, g :: rest =>
    let p := segPath (segDir g.2.1 g.2.2) vc g.1 n
    p ++ routePath (vc + 1) ((p.getLast?.map fun x => linkEnd x.1).getD n) rest

/-- Direction of a neighbour link from a brick to one beside it. -/
def neighbourDir (n d : Nat) : Nat :=
  if d + 32 = n then 4 else if d = n + 32 then 5 else if d + 1 = n then 6 else 7

namespace State

/-- Credits of a link's virtual channel that are spent: buffers occupied and credits in return. -/
def spentCredits (s : State) (link vc : Nat) : Nat :=
  (s.net.flits.filter fun f => f.occupies == some (link, vc)).length
    + (s.net.credits.filter fun c => c.link == link && c.vc == vc).length

/-- Whether a flit continues along the line it arrived on (requesters 0–3 of R68) or is injected (4–7). A flit that turns
onto another line counts as injected there, which R68 leaves open (log entry 109). -/
def flitRequester (f : LineFlit) : Nat :=
  match f.path.head?, f.occupies with
  | some (l, vc), some (from_, _) => if from_ % 8 = l % 8 then vc else 4 + vc
  | some (_, vc), none => 4 + vc
  | none, _ => 8

/-- The flit is the oldest of its buffer, or at its source the oldest for its line; on a neighbour link, the oldest of its
stream (R24, R67, R69; log entry 108). -/
def firstInLine (s : State) (f : LineFlit) : Bool :=
  (s.net.flits.find? fun x => x.occupies == f.occupies && (f.occupies.isSome
    || (x.src == f.src && x.path.head? == f.path.head? && (!(f.path.head?.any fun h => 4 ≤ h.1 % 8) || x.srcStream == f.srcStream))))
    == some f

/-- The flit of a producer stream that a requester has for a link: the oldest, and first in its buffer. -/
def waitingFlit (s : State) (link : Nat) (c : FlitCand) : Option LineFlit :=
  (s.net.flits.find? fun f => f.src == c.brick && f.srcStream == c.stream && f.path.head?.map (·.1) == some link
    && flitRequester f == c.requester).filter s.firstInLine

/-- The requester has a flit and a credit. -/
def eligible (s : State) (link : Nat) (c : FlitCand) : Bool :=
  match s.waitingFlit link c with
  | some f => match f.path.head? with
    | some (_, vc) => s.spentCredits link vc < linkCredits link
    | none => false
  | none => false

/-- The grant of R68, or of R69 on a neighbour link: the lower stream index. -/
def grant (s : State) (link : Nat) (cands : List FlitCand) : Option FlitCand :=
  let ok := cands.filter (s.eligible link)
  if 4 ≤ link % 8 then
    ok.foldl (fun best c => match best with
      | none => some c
      | some b => if c.stream < b.stream then some c else some b) none
  else
    let p := aget 0 s.net.arb link
    (List.range 8).findSome? fun i => ok.find? fun c => c.requester == (p + i) % 8

end State

/-! ### Flag words (R162, R195) -/

def brickFlagsAddr (n : Nat) : Nat := ashlarBase (n / 1024) + 0x4000 + n % 1024 * 4

namespace State

/-- Set bits of a live statistics word. -/
def orStat (s : State) (a v : Nat) : State :=
  if s.rel.fatal ∨ v = 0 then s else { s with live := aput 0 s.live a (s.stat a ||| BitVec.ofNat 32 v) }

/-- Raise flags of a tile's elements on a brick: the brick's and the bay's words, and the lanes' own states. -/
def raise (s : State) (n : Nat) (fs : List (Nat × Nat)) : State :=
  let all := fs.foldl (fun x f => x ||| f.2) 0
  if all = 0 then s
  else
    let k := s.brick n
    let t := (s.setBrick n { k with laneFlags := fs.foldl (fun m f =>
      if f.2 = 0 then m else aput 0 m f.1 (aget 0 m f.1 ||| f.2)) k.laneFlags }).orStat (brickFlagsAddr n) all
    match s.bayOf n with
    | some b => t.orStat (flagsAddr b) all
    | none => t

/-- The flags of a tile's elements, element e on lane e mod 128 (R142). -/
def raiseTile (s : State) (n : Nat) (fs : List Nat) : State := s.raise n (fs.zipIdx.map fun x => (x.2 % 128, x.1))

/-! ### Stalls (R216) -/

/-- A producer endpoint stalls: its brick waits for a handle of the stream. The stall counters count the cycles of a tick
in which it does (`countStalls`; log entry 12). -/
def stallOut (s : State) (n i : Nat) : State :=
  let k := s.brick n
  s.setBrick n { k with outWait := if k.outWait.contains i then k.outWait else k.outWait ++ [i] }

/-- The endpoint waits no more. -/
def moved (k : Brick) (i : Nat) : Brick := { k with outWait := k.outWait.erase i }

/-! ### Writing a slot and posting it (R204, R209) -/

/-- The brick an out stream leads to. -/
def streamDest (s : State) (b n i : Nat) : Nat :=
  let m := (s.brick n).conf
  (s.bricksOf b).getD (routeWord m (streamWord m i).route).dest 0

/-- A write MOVE or POST of an out stream can proceed: a free handle, and in swap mode no half posted and not yet
exchanged (R204, R208). -/
def slotReady (s : State) (n i : Nat) : Bool :=
  let k := s.brick n
  let e := k.stream i
  e.bound && e.out && !e.free.isEmpty && (!(streamWord k.conf i).swap || e.swapPosted.isNone)

/-- The flits of bytes for a slot: lines or neighbour link. -/
def flitsFor (n i dest : Nat) (r : RouteWord) (segs : List (Nat × Bool × Bool)) (h : Word) (at_ : Nat) (bs : Bytes) : List LineFlit :=
  let size := if r.network = 0 then 128 else 512
  let path := if r.network = 0 then [(n * 8 + neighbourDir n dest, 0)] else routePath 0 n segs
  (chunks size bs.length bs).zipIdx.map fun x =>
    { src := n, srcStream := i, dest := dest, destStream := r.destStream, handle := h, offset := at_ + size * x.2
      data := x.1, path := path, occupies := none }

/-- A DATA packet held at its source for a stream of a consumer (R209). -/
def heldFor (source dest stream : Nat) (m : GritMsg) : Bool :=
  m.hold && m.p.kind == 1 && m.p.source == source && m.p.dest == dest && m.p.stream == stream

def heldData (s : State) (source dest stream : Nat) : Bool := s.net.grit.any (heldFor source dest stream)

/-- The stream's held packet is no longer the slot's last: it may go. -/
def freeHeld (s : State) (p : GritPacket) : State :=
  s.setGrit (s.net.grit.map fun m => if heldFor p.source p.dest p.stream m then { m with hold := false } else m)

/-- A DATA packet joins the injection queue and is held there. -/
def holdData (s : State) (req : Nat) (p : GritPacket) : State :=
  s.setGrit (s.net.grit ++ [{ p := p, requester := req, path := gritPath p.source p.dest, place := none, hold := true }])

/-- The held packet becomes the POST of its slot, with the handle posted. -/
def postHeld (s : State) (source dest stream : Nat) (h : Word) : State :=
  s.setGrit (s.net.grit.map fun m =>
    if heldFor source dest stream m then { m with hold := false, p := { m.p with post := true, handle := h } } else m)

/-- Write bytes into the current slot of an out stream; the tile's tag counts where it is the slot's first. On the grit
path the last DATA packet waits: the POST may make it its own (R209). -/
def writeSlot (s : State) (b n i req : Nat) (bs : Bytes) (tag : Nat) : State :=
  let k := s.brick n
  let e := k.stream i
  let m := k.conf
  let eix := (streamWord m i).route
  let r := routeWord m eix
  let dest := s.streamDest b n i
  let h := e.free.headD 0
  let flits := flitsFor n i dest r (routeSegs m eix) h e.bytes bs
  let datas := (chunks 64 bs.length bs).zipIdx.map fun x =>
    gritOf 1 dest n r.destStream h (BitVec.ofNat 32 (e.bytes + 64 * x.2)) x.1
  let count := if r.network = 2 then datas.length else flits.length
  let t := s.setBrick n ((moved k i).setStream i { e with
    bytes := e.bytes + bs.length, flits := e.flits + count, slotTag := some (e.slotTag.getD tag) })
  if r.network = 2 then datas.foldl (fun (u : State) p => (u.freeHeld p).holdData req p) t
  else { t with net := { t.net with flits := t.net.flits ++ flits } }

/-- POST of an out stream (R204): the head handle with its generation advanced and its tag stamped goes to the
consumer with the count of flits written. -/
def postSlot (s : State) (b n i req : Nat) : State :=
  let k := s.brick n
  let e := k.stream i
  let m := k.conf
  let w := streamWord m i
  let r := routeWord m w.route
  let old := e.free.headD 0
  let h := stampHandle w.tagBits old (e.slotTag.getD 0) (handleGen w.tagBits old + 1)
  let dest := s.streamDest b n i
  let t := s.setBrick n ((moved k i).setStream i { e with
    free := e.free.drop 1, bytes := 0, flits := 0, slotTag := none, count := e.count + 1
    swapPosted := if w.swap then some h else none })
  let u := if r.network = 2 ∧ t.heldData n dest r.destStream then t.postHeld n dest r.destStream h
    else t.sendGrit req (gritOf 2 dest n r.destStream h (BitVec.ofNat 32 e.flits) [])
  u.count (bayPosts b) 1

/-! ### Delivery to a slot (R205, R209) -/

/-- Write bytes at an offset of a handle's buffer in the consumer's memory. -/
def writeBuffer (s : State) (b n : Nat) (h : Word) (at_ : Nat) (bs : Bytes) : State :=
  let k := s.brick n
  match handleSpace h with
  | .hopper => s.setBrick n { k with hopper := awrite 0 k.hopper (handleAddr h * 256 + at_) bs }
  | .column =>
    let byte := columnUnit (s.bay b).plan.base (handleAddr h) * 256 + at_
    let t := s.touchObjects n (byte / 256 % 65536) ((bs.length + 255) / 256)
    let k2 := t.brick n
    t.setBrick n { k2 with clay := putBytes k2.clay (byte % 16777216) bs }

/-- Bytes of a buffer. -/
def readBuffer (s : State) (b n : Nat) (h : Word) (at_ len : Nat) : Bytes :=
  let k := s.brick n
  match handleSpace h with
  | .hopper => aread 0 k.hopper (handleAddr h * 256 + at_) len
  | .column =>
    slice (readUnits k.clay ((columnUnit (s.bay b).plan.base (handleAddr h) + at_ / 256) % 65536) (len + 256)) (at_ % 256) len

/-- Data of a slot arrive (R209): written through the write port and acknowledged. -/
def deliver (s : State) (dest destStream : Nat) (h : Word) (at_ : Nat) (bs : Bytes) : State :=
  match s.bayOf dest with
  | none => s
  | some b =>
    let t := s.writeBuffer b dest h at_ bs
    let k := t.brick dest
    let e := k.stream destStream
    let slot := slotOf (streamWord k.conf destStream) h
    t.setBrick dest (k.setStream destStream { e with
      arrived := aput 0 e.arrived slot (aget 0 e.arrived slot + 1)
      filled := aput 0 e.filled slot (aget 0 e.filled slot + bs.length) })

/-- A granted flit passes its link (R67): it occupies the next buffer, or is delivered; the buffer it leaves frees a
credit. -/
def passLink (s : State) (f : LineFlit) (link vc : Nat) : State :=
  let back := match f.occupies with
    | some (l, v) => [{ link := l, vc := v, src := f.src : CreditOut }]
    | none => []
  let rest := s.net.flits.erase f
  let rem := f.path.drop 1
  if rem.isEmpty then
    State.deliver { s with net := { s.net with flits := rest
                                               credits := s.net.credits ++ back ++ [{ link := link, vc := vc, src := f.src }] } }
      f.dest f.destStream f.handle f.offset f.data
  else { s with net := { s.net with flits := rest ++ [{ f with path := rem, occupies := some (link, vc) }]
                                    credits := s.net.credits ++ back } }

/-- One cycle of a stop's output direction (R68, R69). -/
def lineCycle (s : State) (link : Nat) (cands : List FlitCand) : State :=
  match s.grant link cands with
  | none => s
  | some c => match s.waitingFlit link c with
    | none => s
    | some f =>
      let t := if link % 8 < 4 then { s with net := { s.net with arb := aput 0 s.net.arb link ((c.requester + 1) % 8) } } else s
      t.passLink f link ((f.path.head?.map (·.2)).getD 0)

/-- A credit comes home (R67). -/
def creditHome (s : State) (link vc : Nat) : State :=
  { s with net := { s.net with credits := s.net.credits.eraseP fun c => c.link == link && c.vc == vc } }

/-- A post reaches its consumer. -/
def postArrives (s : State) (p : GritPacket) (flits : Nat) : State :=
  let k := s.brick p.dest
  let e := k.stream p.stream
  s.setBrick p.dest (k.setStream p.stream { e with posts := e.posts ++
    [{ handle := p.handle, flits := flits, source := p.source, srcStream := 0 }] })

/-- DATA (R209, R214): with the post bit its handle is posted after the write. -/
def gritDataIn (s : State) (p : GritPacket) : State :=
  let t := s.deliver p.dest p.stream p.handle p.arg.toNat (p.body.take p.length)
  if p.post then
    let k := t.brick p.dest
    t.postArrives p (aget 0 (k.stream p.stream).arrived (slotOf (streamWord k.conf p.stream) p.handle))
  else t

/-! ### Joining the queue, and release (R205, R206) -/

/-- The handle is the one the endpoint expects for its slot: bay, and generation one above the last (R205). -/
def handleExpected (b : Nat) (w : StreamWord) (e : Endpoint) (h : Word) : Bool :=
  let slot := slotOf w h
  handleBay h == b && slot < w.slots
    && handleGen w.tagBits h == (handleGen w.tagBits (aget 0 e.last slot) + 1) % 2 ^ (8 - w.tagBits)

/-- The oldest post whose flits have all arrived, no earlier post of its producer waiting (R207), joins the queue, or is
discarded as stale. -/
def joinQueue (s : State) (b n i : Nat) : State :=
  let k := s.brick n
  let e := k.stream i
  let w := streamWord k.conf i
  match e.posts.find? fun p => p.flits ≤ aget 0 e.arrived (slotOf w p.handle)
      && (e.posts.find? fun q => q.source == p.source) == some p with
  | none => s
  | some p =>
    let e1 := { e with posts := e.posts.erase p }
    if handleExpected b w e p.handle then
      let slot := slotOf w p.handle
      let e2 := { e1 with last := aput 0 e1.last slot p.handle, arrived := aput 0 e1.arrived slot 0 }
      s.setBrick n (k.setStream i (if w.swap then { e2 with swapPosted := some p.handle }
                                   else { e2 with queue := e2.queue ++ [p.handle] }))
    else ((s.setBrick n (k.setStream i e1)).count (bayStale b) 1).faultBay b eHandleStale

/-- The open ingress channel that feeds an in stream (R221). -/
def ingressOf (s : State) (b rank i : Nat) : Option Nat :=
  (List.range 32).find? fun c =>
    let r := s.relay c
    r.state == 1 && !r.egress && bits r.cfg 4 6 == b && bits r.cfg 10 12 == rank && bits r.cfg 22 4 == i

/-- The channel a released slot goes back to: the one that filled it, else the open ingress. -/
def releaseChannel (s : State) (b rank i slot : Nat) : Option Nat :=
  ((List.range 32).find? fun c =>
    let r := s.relay c
    !r.egress && bits r.cfg 4 6 == b && bits r.cfg 10 12 == rank && bits r.cfg 22 4 == i
      && aget 0 r.slotTiles slot != 0) <|> s.ingressOf b rank i

/-- A channel's Keystone as an endpoint (R213). -/
def ksEndpoint (channel : Nat) : Nat := if channel < 16 then 4096 else 4097

/-- Release a buffer (R206): its handle goes back to the producer that posted it. -/
def releaseBuffer (s0 : State) (b n i req : Nat) (h : Word) : State :=
  let k := s0.brick n
  let m := k.conf
  let w := streamWord m i
  let e := k.stream i
  let s := s0.setBrick n (k.setStream i { e with filled := aput 0 e.filled (slotOf w h) 0 })
  let rank := (s.rankOf b n).getD 0
  if w.external then
    match s.releaseChannel b rank i (slotOf w h) with
    | some c => s.sendGrit req (gritOf 3 (ksEndpoint c) n (c % 16) h 0 [])
    | none => s
  else
    let ps := producersOf (s.bayImages b) rank i
    let p := ps.getD (if ps.length = 0 then 0 else slotOf w h % ps.length) (0, 0)
    s.sendGrit req (gritOf 3 ((s.bricksOf b).getD p.1 0) n p.2 h 0 [])

/-- The handle joins the tail of the producer's free FIFO (R206, R208). -/
def releaseAt (s : State) (n i : Nat) (h : Word) : State :=
  let k := s.brick n
  let e := k.stream i
  s.setBrick n (k.setStream i { e with free := e.free ++ [h] })

/-! ### The exchange of swap mode (R208) -/

/-- The program at a WAIT on a stream. -/
def waiterOn (s : State) (n i : Nat) : Option Nat :=
  (List.range 4).find? fun p =>
    let k := s.brick n
    let g := k.gen p
    let w := progWord k.conf p g.word
    g.state == .waiting && progOp w == 5 && streamOf w == i

/-- The producer of a swap stream. -/
def swapProducer (s : State) (b n i : Nat) : Nat × Nat :=
  let p := (producersOf (s.bayImages b) ((s.rankOf b n).getD 0) i).headD (0, 0)
  ((s.bricksOf b).getD p.1 0, p.2)

/-- Whether a program's WAIT may take a handle of a tagged stream (R211): program 0's first of a pass takes any. -/
def tagFits (k : Brick) (p i : Nat) (h : Word) : Bool :=
  let w := streamWord k.conf i
  w.tagBits == 0 || (p == 0 && !k.passWaited) || handleTag w.tagBits h == k.tag

/-- The brick after a program's WAIT took a handle: program 0's first of a pass sets the current tag (R211). -/
def noteTag (k : Brick) (p i : Nat) (h : Word) : Brick :=
  let w := streamWord k.conf i
  if p = 0 ∧ w.tagBits ≠ 0 ∧ !k.passWaited then { k with passWaited := true, tag := handleTag w.tagBits h } else k

/-- A swap stream's posted half becomes the consumer's, and its previous half returns to the producer. -/
def handOver (s : State) (b n i : Nat) (h : Word) : State :=
  let k := s.brick n
  let e := k.stream i
  let t := s.setBrick n (k.setStream i { e with half := some h, swapPosted := none, count := e.count + 1 })
  let pr := t.swapProducer b n i
  let kp := t.brick pr.1
  let ep := kp.stream pr.2
  let back := match e.half with
    | some old => [old]
    | none => []
  t.setBrick pr.1 (kp.setStream pr.2 { ep with swapPosted := none, free := ep.free ++ back })

/-- The exchange: the consumer's program goes on behind its WAIT with the new half. -/
def exchange (s : State) (b n i : Nat) : State :=
  let k := s.brick n
  match (k.stream i).swapPosted, s.waiterOn n i with
  | some h, some p =>
    if ¬ tagFits k p i h then s
    else
      let t := s.handOver b n i h
      let k1 := noteTag (t.brick n) p i h
      let g := k1.gen p
      t.setBrick n (k1.setGen p (nextWord k.conf p { g with
        addr := handleAddr h, space := handleSpace h, fromBase := false
        held := (g.held.filter fun x => x.1 != i) ++ [(i, h)] }))
  | _, _ => s

/-- Run an operation where a brick's bay runs or drains. -/
def whileRunning (s : State) (n : Nat) (f : State → Nat → State) : State :=
  match s.bayOf n with
  | some b =>
    if s.awake ∧ ((s.bay b).state = .running ∨ (s.bay b).state = .draining) ∧ ¬ s.vacant n then f s b else s
  | none => s

end State

/-- LINE_FLIT (R67–R69). -/
def execLineFlit (link : Nat) (cands : List FlitCand) (s : State) : Out := .next (if s.awake then s.lineCycle link cands else s)

/-- CREDIT_RETURN (R67). -/
def execCreditReturn (link vc : Nat) (s : State) : Out := .next (if s.awake then s.creditHome link vc else s)

/-- GRIT_DATA (R209, R214). -/
def execGritData (p : GritPacket) (s : State) : Out :=
  .next (if ¬ s.awake then s else if gritMalformed p then s.badGrit p
    else if p.kind = 1 ∧ s.gritDue p then (s.tookGrit p).gritDataIn p else s)

/-- GRIT_POST (R205, R214). -/
def execGritPost (p : GritPacket) (s : State) : Out :=
  .next (if ¬ s.awake then s else if gritMalformed p then s.badGrit p
    else if p.kind = 2 ∧ s.gritDue p then (s.tookGrit p).postArrives p p.arg.toNat else s)

/-- HANDLE_JOIN (R205). -/
def execHandleJoin (brick stream : Nat) (s : State) : Out :=
  .next (s.onBay brick fun t b => t.joinQueue b brick stream)

/-- SWAP_MODE_EXCHANGE (R208). -/
def execSwapModeExchange (brick stream : Nat) (s : State) : Out :=
  .next (s.whileRunning brick fun t b => t.exchange b brick stream)

end Sys2Proof.Machine
end

