-- ==== Sys2Proof/Machine/Tiles.lean ====
section
/-!
DEFINITION. Tiles on the load and store paths of a brick (R130–R146, R172, R352): where a tile stands in its logical
tensor, the draws of its elements, tensor scales and amax gathering, and a tile's bytes and record in their spaces.
-/
namespace Sys2Proof.Machine

/-! ### Logical places (R352) -/

/-- The layout entry of a brick's format word. -/
def entryOf (k : Brick) (rank f : Nat) : Option LayoutEntry :=
  (k.active.layout.map layoutEntry).find? fun e => e.fmtWord == f && covers e rank

namespace State

/-- Logical row and column of element (0, 0) of the count-th tile through a format word. -/
def logicalPlace (s : State) (b n f count tag : Nat) : Option (Nat × Nat) :=
  let rank := (s.rankOf b n).getD 0
  (entryOf (s.brick n) rank f).map fun e => layoutPlace e rank count (aget 0 (s.bay b).origin tag).toNat

/-- The digest of the bond a bay runs (R104). -/
def bondDigest (s : State) (b : Nat) : Bytes := ((s.bay b).active.map (·.digest)).getD []

/-- An element index the spec gives no rule for: a free value of what R164 lists (log entry 42). -/
def unstatedElem (s : State) (b n f count e : Nat) : Nat :=
  Config.freeElem (s.bondDigest b) ((s.rankOf b n).getD 0) f count e % 2 ^ 64

/-- Element indices of the 1,024 elements of that tile; free values where no entry covers it (log entry 42). -/
def tileElems (s : State) (b n f count tag : Nat) : List Nat :=
  match entryOf (s.brick n) ((s.rankOf b n).getD 0) f, s.logicalPlace b n f count tag with
  | some e, some p => (List.range 1024).map fun x => elementIndex e (p.1 + x / 32) (p.2 + x % 32)
  | _, _ => (List.range 1024).map (s.unstatedElem b n f count)

/-- One draw per element of a tile, element e on lane e mod 128 (R139, R172). -/
def drawTile (s : State) (b n f count tag stream num : Nat) : List Word × State :=
  s.drawsFor n ((s.tileElems b n f count tag).zipIdx.map fun x =>
    { lane := x.2 % 128, stream := stream, elem := x.1, num := num, chunk := false })

end State

/-! ### Scales and gathering (R133, R134) -/

/-- The tensor scale of a format word on a brick. -/
def tensorScale (k : Brick) (f : FormatWord) : Rat :=
  (b32 (if f.delayed then (aget ({} : Amax) k.amax f.scaleReg).scale else f.scale)).num

/-- Gather the compute-side values of a tile where the format word has amax 1. -/
def gatherTile (k : Brick) (f : FormatWord) (fmt : Nat) (codes : List Nat) : Brick :=
  if f.amax then
    let a := codes.foldl (fun a c => gatherAmax a (decodeFmt fmt c) f.stored) (aget ({} : Amax) k.amax f.scaleReg)
    { k with amax := aput {} k.amax f.scaleReg a }
  else k

/-- A gathering into a register waits: it is shared and its exchange is under way (R193). -/
def gatherHeld (k : Brick) (reg : Nat) : Bool := k.amaxSent && (State.sharedMask k.conf).testBit reg

/-- A conversion of the word takes draws: stochastic, and not an identity pair (R139, R144). -/
def takesDraws (f : FormatWord) (write : Bool) : Bool :=
  f.round == 1 && (if f.stored = 8 then write else f.stored != f.compute)

/-! ### The update record (R326) -/

namespace State

/-- The 64 B of the update record a program holds from stream 0. -/
def heldRecord (s : State) (b n len : Nat) : Option Bytes :=
  (((s.brick n).gens.flatMap (·.held)).find? fun x => x.1 == 0).map fun x => s.readBuffer b n x.2 0 len

/-- Column units a MOVE is offset by: the active weight slot for a program 1 read from a BASE word of space 0, the
inactive one for a relay's kept copy (R354), the update record's units on an optimiser slice (R326). -/
def unitOffset (s : State) (b n p : Nat) (write : Bool) (fmt : Nat) : Nat :=
  let k := s.brick n
  let g := k.gen p
  let v := s.bay b
  if g.space = .hopper then 0
  else if p = 1 ∧ !write ∧ g.fromBase then 16 * v.wsDelta * bit01 v.wsActive
  else if p = 2 ∧ write ∧ functionOf k.conf = 6 then 16 * v.wsDelta * bit01 (!v.wsActive)
  else if functionOf k.conf = 4 ∧ 1 ≤ fmt ∧ fmt ≤ 3 then
    match s.heldRecord b n 64 with
    | some r => fieldLE r (if write then 48 else 4) 4
    | none => 0
  else 0

/-! ### Bytes of a tile and its record -/

/-- Bytes at a byte offset of a space: the column from the bay's working base, or the hopper. -/
def readSpace (s : State) (b n : Nat) (sp : Space) (at_ len : Nat) : Bytes :=
  match sp with
  | .hopper => aread 0 (s.brick n).hopper at_ len
  | .column => slice (readUnits (s.brick n).clay (columnUnit (s.bay b).plan.base (at_ / 256)) (len + 256)) (at_ % 256) len

def writeSpace (s : State) (b n : Nat) (sp : Space) (at_ : Nat) (bs : Bytes) : State :=
  if bs.isEmpty then s
  else match sp with
  | .hopper => s.setBrick n { s.brick n with hopper := awrite 0 (s.brick n).hopper at_ bs }
  | .column =>
    let byte := columnUnit (s.bay b).plan.base (at_ / 256) * 256 + at_ % 256
    let t := s.touchObjects n (byte / 256) ((bs.length + at_ % 256 + 255) / 256)
    t.setBrick n { t.brick n with clay := putBytes (t.brick n).clay byte bs }

/-- Byte offset in its space of the record of the tile at byte offset a (R131). -/
def recordAt (f : FormatWord) (a : Nat) : Nat := f.sidecar * 256 + a / tileSize false f.stored * recordSize f

def recordSpace (f : FormatWord) : Space := if f.sidecarSpace = 1 then .hopper else .column

/-! ### One tile through the load path -/

/-- The draws of a conversion of the count-th tile: those a discarded reading of it took (R218), else new ones. -/
def loadDraws (s : State) (b n f count tag : Nat) : List Word × State :=
  let k := s.brick n
  match k.redraws.find? fun x => x.1 == f && x.2.1 == count with
  | some x => (x.2.2, s.setBrick n { k with redraws := k.redraws.erase x })
  | none => s.drawTile b n f count tag 0 f

/-- The tile at byte offset a of a space through a format word: the state after (draws, flags, gathering, the layout
count), and the tile delivered. An operand of the array takes no tensor scale: the epilogue applies it (R133). -/
def loadAt (s : State) (b n f : Nat) (sp : Space) (a tag : Nat) (array transpose : Bool) (note : RewindPoint) :
    State × OperandTile :=
  let k := s.brick n
  let w := formatWord k.conf f
  let count := aget 0 k.layoutCounts f
  let drawn := if takesDraws w false then s.loadDraws b n f count tag else ([], s)
  let rec_ := if hasRecords w then s.readSpace b n (recordSpace w) (recordAt w a) (recordSize w) else []
  let l := loadTile w (f == 3) (roundingOf k.conf) (if array then 1 else tensorScale k w)
    (s.readSpace b n sp a (tileSize false w.stored)) rec_ drawn.1
  let t := drawn.2.raiseTile n l.flags
  let kb := gatherTile (t.brick n) w w.compute l.codes
  let u := t.setBrick n { kb with layoutCounts := aput 0 kb.layoutCounts f (count + 1) }
  let place := s.logicalPlace b n f count tag
  (u, { fmt := w.compute, codes := if transpose then transposeTile 0 l.codes else l.codes, groups := l.groups
        bases := l.bases, row := (place.map (·.1)).getD 0, col := (place.map (·.2)).getD 0, placed := place.isSome
        tag := tag, note := { note with draws := if freeMode k.conf then drawn.1 else [] } })

/-- The row bases of the next tile stored through a format word, which the producing function sends (R145): one for each
logical row, the same in every tile of the row, and for the pass over the tensor it is stored in. Where no entry places
the tile, a MOVE's tiles are one row, and start is the count its first tile had (log entry 41). -/
def rowBasesFor (s : State) (b n f tag start : Nat) : List Int :=
  let rank := (s.rankOf b n).getD 0
  let count := aget 0 (s.brick n).layoutCounts f
  (List.range 32).map fun i =>
    match entryOf (s.brick n) rank f, s.logicalPlace b n f count tag with
    | some e, some p => (Config.rowBase (s.bondDigest b) e.firstRank f (p.1 + i) (count / (e.partRows * e.partCols))).toInt
    | _, _ => (Config.rowBase (s.bondDigest b) rank f i start).toInt

/-- The format word as the results of a brick's function meet it: the lanes' values are in their chain's precision,
whatever the word's compute field says (R145, R186; log entry 118). -/
def storeWord (k : Brick) (f : Nat) (rs : List ResultTile) : FormatWord :=
  let w := formatWord k.conf f
  if functionOf k.conf = 6 ∨ functionOf k.conf = 7 then w
  else { w with compute := if rs.any (·.wide) then 0 else 1 }

/-- Result tiles through a format word's store path, one group of it: the state after, and what each tile stores. -/
def storeThrough (s : State) (b n f start : Nat) (rs : List ResultTile) : State × List Stored :=
  let k := s.brick n
  let w := storeWord k f rs
  let scale := tensorScale k w
  let quantises := (w.stored = 6 ∨ w.stored = 7) ∧ w.stored ≠ w.compute
  let bases : List Int := if quantises ∧ w.rowBase then s.rowBasesFor b n f ((rs.head?.map (·.tag)).getD 0) start
    else List.replicate 32 0
  let shifts := rowShifts w scale bases (rs.map (·.values))
  rs.foldl (fun (acc : State × List Stored) r =>
    let k1 := acc.1.brick n
    let count := aget 0 k1.layoutCounts f
    let drawn := if takesDraws w true then acc.1.drawTile b n f count r.tag 0 f else ([], acc.1)
    let st := Machine.storeTile w (f == 3) (roundingOf k.conf) scale shifts bases r.values drawn.1
    let t := drawn.2.raiseTile n st.flags
    let kb := gatherTile (t.brick n) w w.compute r.values
    (t.setBrick n { kb with layoutCounts := aput 0 kb.layoutCounts f (count + 1) }, acc.2 ++ [st])) (s, [])

end State
end Sys2Proof.Machine
end

