-- ==== Sys2Proof/Machine/Programs.lean ====
section
/-!
DEFINITION. Address-generator programs (R119, R204–R211): the eight words, the drain to a layer fence with its rewind
(R217, R218), and the exchange of shared amax registers (R193).
-/
namespace Sys2Proof.Machine

/-- The start state at word 0, keeping the swap halves held (R119, R208). -/
def restartGen (m : Memory) (g : Gen) : Gen := { held := g.held.filter fun x => (streamWord m x.1).swap }

namespace State

/-- A program of a draining brick acts no more: the brick has reported quiet, or the program was rewound and runs again
when the bay resumes (R217, R218). -/
def stoppedHere (s : State) (b n p : Nat) : Bool :=
  (s.bay b).state == .draining && ((s.brick n).quietSent || (s.brick n).rewound.contains p)

/-- Run an operation where program p of a brick stands at a word of an opcode. -/
def atWord (s : State) (n p op : Nat) (f : State → Nat → State) : State :=
  s.whileRunning n fun t b =>
    let g := (t.brick n).gen p
    if p < 4 ∧ g.word < 64 ∧ progOp (progWord (t.brick n).conf p g.word) = op
        ∧ (g.state = .running ∨ g.state = .waiting) ∧ ¬ t.stoppedHere b n p then f t b
    else t

def putGen (s : State) (n p : Nat) (g : Gen) : State := s.setBrick n ((s.brick n).setGen p g)

def stepWord (s : State) (n p : Nat) : State := s.putGen n p (nextWord (s.brick n).conf p ((s.brick n).gen p))

/-- Release the ring buffers a program holds (R206). -/
def releaseRing (s : State) (b n p : Nat) : State :=
  let m := (s.brick n).conf
  let g := (s.brick n).gen p
  let ring := g.held.filter fun x => !(streamWord m x.1).swap
  let t := ring.foldl (fun t x => t.releaseBuffer b n x.1 p x.2) s
  t.putGen n p { g with held := g.held.filter fun x => (streamWord m x.1).swap }

/-- An attention slice's engine is at work on the record program 0 holds (R286). -/
def engineBusy (s : State) (n p : Nat) : Bool := p == 0 && functionOf (s.brick n).conf == 3 && (s.brick n).working

/-! ### END, JUMP, BASE and LOOP -/

def endProgram (s : State) (b n p : Nat) : State :=
  if s.engineBusy n p then s
  else
    let t := s.releaseRing b n p
    let k := t.brick n
    let k1 := k.setGen p { k.gen p with state := .ended }
    t.setBrick n (if p = 0 then { k1 with passWaited := false } else k1)

def jumpProgram (s : State) (b n p : Nat) : State :=
  if s.engineBusy n p then s
  else
    let t := s.releaseRing b n p
    let k := t.brick n
    let k1 := k.setGen p (restartGen k.conf (k.gen p))
    t.setBrick n (if p = 0 then { k1 with passWaited := false } else k1)

def baseProgram (s : State) (n p : Nat) : State :=
  let k := s.brick n
  let g := k.gen p
  let w := progWord k.conf p g.word
  s.putGen n p (nextWord k.conf p { g with
    addr := baseOffset w, space := if baseSpace w = 1 then .hopper else .column, fromBase := baseSpace w == 0 })

def loopProgram (s : State) (n p : Nat) : State :=
  let k := s.brick n
  let g := k.gen p
  let w := progWord k.conf p g.word
  s.putGen n p { g with word := g.word + 1, state := .running
                        stack := { word := g.word, remaining := loopCount w, start := g.addr } :: g.stack }

/-! ### MOVE -/

/-- Tiles the consumer of a read MOVE still takes: array operands, weight registers, side queue, lanes (R183, R188,
R198; log entry 43). -/
def consumerFull (k : Brick) (p fmt target : Nat) : Bool :=
  let pass := if weightTile k.conf = 1 then 2 else 1
  if target = 16 then pass ≤ k.acts.length
  else if target = 17 then 2 * pass ≤ k.weights.length
  else if target = 18 then
    if p = 3 then 2 ≤ k.side.length
    else if functionOf k.conf = 4 then k.prim.any fun x => x.note.fmtWord == fmt
    else if functionOf k.conf = 7 then 64 ≤ k.prim.length
    else !k.prim.isEmpty
  else false

/-- Hand a tile to its consumer; one that names no consumer is not kept (log entry 44). -/
def handTile (k : Brick) (p target : Nat) (x : OperandTile) : Brick :=
  if target = 16 then { k with acts := k.acts ++ [x] }
  else if target = 17 then { k with weights := k.weights ++ [x] }
  else if target = 18 then
    if p = 3 ∧ functionOf k.conf ≠ 4 then { k with side := k.side ++ [x] } else { k with prim := k.prim ++ [x] }
  else k

/-- The generator after a MOVE has moved some tiles. -/
def movedTiles (m : Memory) (p tiles : Nat) (units : Int) (g : Gen) : Gen :=
  let w := progWord m p g.word
  let g1 := { g with addr := g.addr + units, moved := g.moved + tiles, state := .running }
  if moveTiles w ≤ g1.moved then nextWord m p g1 else g1

/-- The byte offset a MOVE addresses in its space. -/
def moveByte (s : State) (b n p : Nat) (write : Bool) (fmt : Nat) : Nat :=
  let g := (s.brick n).gen p
  (g.addr.toNat + s.unitOffset b n p write fmt) * 256

/-- One tile of a read MOVE. -/
def readMove (s : State) (b n p : Nat) (ecc : Ecc) : State :=
  let k := s.brick n
  let g := k.gen p
  let w := progWord k.conf p g.word
  let f := moveFormat w
  let fw := formatWord k.conf f
  if consumerFull k p f (moveTarget w) || (fw.amax && gatherHeld k fw.scaleReg) then s
  else
    let note : RewindPoint :=
      { prog := p, word := g.word, stack := g.stack, addr := g.addr, space := g.space, fromBase := g.fromBase
        moved := g.moved, fmtWord := f, count := aget 0 k.layoutCounts f, draws := [] }
    let a := s.moveByte b n p false f
    let r := s.loadAt b n f g.space a k.tag (moveTarget w < 18) (moveTranspose w) note
    let t := r.1.setBrick n (handTile (r.1.brick n) p (moveTarget w) r.2)
    let u := t.putGen n p (movedTiles k.conf p 1 (tileSize false fw.stored / 256 : Nat) ((t.brick n).gen p))
    u.consumeEcc b n g.space a ecc

/-- The results a write MOVE takes: its format word's, oldest first, a whole group of R145. -/
def resultsFor (k : Brick) (f : Nat) : List ResultTile :=
  let fits := k.results.filter fun r => r.words.isEmpty || r.words.contains f
  fits.take (groupTiles (formatWord k.conf f))

/-- Take a format word's result: gone, or kept for the format words still to write it. -/
def takeResult (f : Nat) : List ResultTile → List ResultTile
  | [] => []
  | r :: rest =>
    if r.words.isEmpty then rest
    else if r.words.contains f then
      if r.words.length ≤ 1 then rest else { r with words := r.words.erase f } :: rest
    else r :: takeResult f rest

/-- The elements of a converter's target tile, by logical place, from the source tiles held (R62; log entry 47). -/
def convertedTile (k : Brick) (place : Nat × Nat) : Option (List Nat) :=
  (List.range 1024).mapM fun e =>
    let gr := place.1 + e / 32
    let gc := place.2 + e % 32
    k.prim.findSome? fun x =>
      if x.row ≤ gr ∧ gr < x.row + 32 ∧ x.col ≤ gc ∧ gc < x.col + 32 then some (x.codes.getD ((gr - x.row) * 32 + (gc - x.col)) 0)
      else none

/-- A source tile whose every element lies within target tiles written: the converter keeps the others. -/
def spentBy (place : Nat × Nat) (x : OperandTile) : Bool := x.row == place.1 && x.col == place.2

/-- The result a layout converter has for its next target tile. -/
def converterResult (s : State) (b n f : Nat) : Option (ResultTile × List OperandTile) :=
  let k := s.brick n
  match k.prim with
  | [] => none
  | x :: rest =>
    match s.logicalPlace b n f (aget 0 k.layoutCounts f) x.tag with
    | none => some ({ raw := false, wide := x.fmt == 0, values := x.codes, tag := x.tag, words := [] }, rest)
    | some place => (convertedTile k place).map fun v =>
        ({ raw := false, wide := x.fmt == 0, values := v, tag := x.tag, words := [] }, k.prim.filter fun y => !spentBy place y)

/-- A converter's next tile becomes a result. -/
def feedConverter (s : State) (b n f : Nat) : State :=
  let k := s.brick n
  if functionOf k.conf ≠ 7 ∨ ¬ k.results.isEmpty then s
  else match s.converterResult b n f with
    | some r => s.setBrick n { k with results := [r.1], prim := r.2 }
    | none => s

/-- Bytes of a raw drain on the integer path (R185). -/
def rawBytes (r : ResultTile) : Bytes := r.values.flatMap (leBytes 12)

/-- A raw integer tile to its place: no conversion, no record, no count. -/
def writeRaw (s : State) (b n p : Nat) (r : ResultTile) : State :=
  let k := s.brick n
  let g := k.gen p
  let w := progWord k.conf p g.word
  let t := s.setBrick n { k with results := k.results.drop 1 }
  if moveTarget w < 16 then
    let u := t.writeSlot b n (moveTarget w) p (rawBytes r) r.tag
    u.putGen n p (movedTiles k.conf p 1 0 ((u.brick n).gen p))
  else
    let u := t.writeSpace b n g.space (s.moveByte b n p true (moveFormat w)) (rawBytes r)
    u.putGen n p (movedTiles k.conf p 1 48 ((u.brick n).gen p))

/-- A tile into the current slot of an out stream, and with it its record: at the consumer, where R131 puts the record of
a tile at that place (log entry 117). -/
def writeTileSlot (s : State) (b n i p : Nat) (f : FormatWord) (x : Stored) (tag : Nat) : State :=
  let e := (s.brick n).stream i
  let at_ := handleAddr (e.free.headD 0) * 256 + e.bytes
  (s.writeSlot b n i p x.tile tag).writeSpace b (s.streamDest b n i) (recordSpace f) (recordAt f at_) x.record

/-- Stored tiles into the current slot of an out stream. -/
def writeTilesSlot (s : State) (b n i p : Nat) (f : FormatWord) (xs : List (Stored × ResultTile)) : State :=
  xs.foldl (fun (t : State) x => t.writeTileSlot b n i p f x.1 x.2.tag) s

/-- Stored tiles and their records at the current address on. -/
def writeTilesAt (s : State) (b n : Nat) (sp : Space) (f : FormatWord) (a : Nat) (xs : List Stored) : State :=
  let z := tileSize false f.stored
  xs.zipIdx.foldl (fun (t : State) x =>
    let at_ := a + z * x.2
    (t.writeSpace b n sp at_ x.1.tile).writeSpace b n (recordSpace f) (recordAt f at_) x.1.record) s

/-- One tile, or one group of tiles, of a write MOVE. -/
def writeMove (s0 : State) (b n p : Nat) : State :=
  let w := progWord (s0.brick n).conf p ((s0.brick n).gen p).word
  let f := moveFormat w
  let s := s0.feedConverter b n f
  let k := s.brick n
  let g := k.gen p
  let fw := formatWord k.conf f
  let target := moveTarget w
  let toSlot := decide (target < 16)
  if (target != 18 && !toSlot) || (fw.amax && gatherHeld k fw.scaleReg) then s0
  else if toSlot && !s.slotReady n target then s0.stallOut n target
  else match k.results with
  | [] => s0
  | r0 :: _ =>
    if r0.raw then s.writeRaw b n p r0
    else
      let rs := resultsFor k f
      if (rs.head?.map (·.values)) = some [] then
        -- a result withheld (R327, R328): nothing is written
        let t := s.setBrick n { k with results := takeResult f k.results }
        t.putGen n p (movedTiles k.conf p 1 (tileSize false fw.stored / 256 : Nat) ((t.brick n).gen p))
      else if rs.length < groupTiles fw then s0
      else
        let st := s.storeThrough b n f (aget 0 k.layoutCounts f - g.moved) rs
        let k1 := st.1.brick n
        let t := st.1.setBrick n { k1 with results := rs.foldl (fun l _ => takeResult f l) k1.results }
        let u := if toSlot then t.writeTilesSlot b n target p fw (st.2.zip rs)
          else t.writeTilesAt b n g.space fw (s.moveByte b n p true f) st.2
        let units : Int := if toSlot then 0 else ((tileSize false fw.stored / 256 * rs.length : Nat) : Int)
        u.putGen n p (movedTiles k.conf p rs.length units ((u.brick n).gen p))

def moveProgram (s : State) (b n p : Nat) (ecc : Ecc) : State :=
  let w := progWord (s.brick n).conf p ((s.brick n).gen p).word
  if moveWrite w then s.writeMove b n p else s.readMove b n p ecc

/-! ### WAIT and POST (R204–R211) -/

/-- The oldest eligible handle of a WAIT (R211). -/
def eligibleHandle (k : Brick) (p i : Nat) : Option Word := (k.stream i).queue.find? (tagFits k p i)

/-- Release the buffer the program holds of a stream. -/
def releaseHeld (s : State) (b n p i : Nat) : State :=
  let g := (s.brick n).gen p
  match g.held.find? fun x => x.1 == i with
  | none => s
  | some x =>
    let t := s.releaseBuffer b n i p x.2
    t.putGen n p { g with held := g.held.filter fun y => y.1 != i }

/-- WAIT in ring mode (R206): release, then take the oldest eligible handle or wait. -/
def waitRing (s0 : State) (b n p i : Nat) (ecc : Ecc) : State :=
  let s := s0.releaseHeld b n p i
  let k := s.brick n
  let g := k.gen p
  let e := k.stream i
  match eligibleHandle k p i with
  | none => s.putGen n p { g with state := .waiting }
  | some h =>
    let k2 := noteTag (k.setStream i { e with queue := e.queue.erase h, count := e.count + 1 }) p i h
    let record := i == 0 && p == 0 && (functionOf k.conf == 3 || functionOf k.conf == 4)
    let k3 := if record then { k2 with working := functionOf k.conf == 3, updated := 0 } else k2
    let t := (s.setBrick n k3).putGen n p (nextWord k.conf p { g with
      addr := handleAddr h, space := handleSpace h, fromBase := false, held := g.held ++ [(i, h)] })
    if record then t.consumeEcc b n (handleSpace h) (handleAddr h * 256) ecc else t

def waitProgram (s : State) (b n p : Nat) (ecc : Ecc) : State :=
  let k := s.brick n
  let g := k.gen p
  let i := streamOf (progWord k.conf p g.word)
  if (streamWord k.conf i).swap ∨ s.engineBusy n p then s.putGen n p { g with state := .waiting }
  else s.waitRing b n p i ecc

def postProgram (s : State) (b n p : Nat) : State :=
  let k := s.brick n
  let i := streamOf (progWord k.conf p (k.gen p).word)
  if s.slotReady n i then (s.postSlot b n i p).stepWord n p else s.stallOut n i

/-! ### FENCE (R85, R86, R134, R193) -/

/-- A request is pending that a layer fence serves. -/
def fenceWanted (v : Bay) : Bool := v.saveObj.isSome || v.swapAt.isSome || v.shutdown.isSome

/-- No brick of the bay has executed more fence points than this one. -/
def firstAtFence (s : State) (b n : Nat) : Bool :=
  (s.bricksOf b).all fun m => (s.brick m).fences ≤ (s.brick n).fences

/-- Program 0 is held at its FENCE. -/
def holdAt (s : State) (n : Nat) : State := s.putGen n 0 { (s.brick n).gen 0 with state := .held }

/-- Program 0 executes its FENCE: where it ends a step, the amax registers latch, and with the anchor the draw epoch
and the weight flip take effect. -/
def passFence (s : State) (b n : Nat) (ends : Bool) : State :=
  let k := s.brick n
  let latched : Brick := if ends then
      { k with amax := arun {} 0 ((List.range 16).map fun r => latchReg (aget ({} : Amax) k.amax r)) }
    else k
  let t := s.setBrick n { latched with fences := k.fences + 1, amaxSent := false }
  let u := t.stepWord n 0
  if ends ∧ n = s.anchor b then u.bayStepEnd b else u

/-- Everything that entered the load path, store path or lanes of a brick has left them (R193). -/
def pathsEmpty (k : Brick) : Bool := k.laneWords.isNone && k.prim.isEmpty && k.results.isEmpty && k.acts.isEmpty

/-- The brick sends its 16 amax values to the anchor, with its mask (R193, R214). -/
def sendAmax (s : State) (b n : Nat) : State :=
  let k := s.brick n
  (s.setBrick n { k with amaxSent := true }).sendGrit reqFunction (gritOf 8 (s.anchor b) n 0 0
    (BitVec.ofNat 32 (sharedMask k.conf)) ((aread {} k.amax 0 16).flatMap fun a => leBytes 4 a.amax.toNat))

/-- The work buffer of an attention slice is released before its FENCE (R286). -/
def releaseWork (s : State) (b n : Nat) : State :=
  if functionOf (s.brick n).conf = 3 then s.releaseRing b n 0 else s

def fenceProgram (s0 : State) (b n : Nat) : State :=
  if s0.engineBusy n 0 then s0
  else
    let s := s0.releaseWork b n
    let v := s.bay b
    let k := s.brick n
    let id := fenceIdOf (progWord k.conf 0 (k.gen 0).word)
    if v.state = .draining ∧ k.fences = v.fenceAt then s.holdAt n
    else if v.state = .running ∧ fenceWanted v ∧ s.firstAtFence b n then
      (s.setBay b { v with state := .draining, fenceId := some id, fenceAt := k.fences, quietBy := [] }).holdAt n
    else if stepEnds v id then
      if sharedMask k.conf = 0 then s.passFence b n true
      else if ¬ k.amaxSent ∧ pathsEmpty k then s.sendAmax b n
      else s
    else s.passFence b n false

/-! ### The exchange of shared amax registers (R193) -/

/-- The bricks of a bay whose sections share a register. -/
def sharers (s : State) (b : Nat) : List Nat := (s.bricksOf b).filter fun n => sharedMask (s.brick n).conf ≠ 0

/-- The larger of two amax values: NaN ignored, infinity dominates. -/
def maxAmax (best x : Word) : Word := if 0x7F800000 < x.toNat then best else if best.toNat < x.toNat then x else best

/-- The maximum of each register over the packets whose mask shares it. -/
def packetMaxima (ps : List (Nat × Nat × List Word)) : List Word :=
  (List.range 16).map fun r => (ps.filter fun x => x.2.1.testBit r).foldl (fun best x => maxAmax best (x.2.2.getD r 0)) 0

/-- The 16 values of an AMAX or AMAX_RETURN body. -/
def amaxValues (p : GritPacket) : List Word := (List.range 16).map (wordOf p.body)

/-- A brick's AMAX packet reaches the anchor; with the last one the maxima go back to every sharing brick. -/
def amaxArrives (s : State) (b : Nat) (p : GritPacket) : State :=
  let v := s.bay b
  let ps := v.amaxIn ++ [(p.source, p.arg.toNat, amaxValues p)]
  if ps.length < (s.sharers b).length then s.setBay b { v with amaxIn := ps }
  else
    let body := (packetMaxima ps).flatMap fun w => leBytes 4 w.toNat
    ps.foldl (fun (u : State) x => u.sendGrit reqFunction (gritOf 9 x.1 p.dest 0 0 (BitVec.ofNat 32 x.2.1) body))
      (s.setBay b { v with amaxIn := [] })

/-- AMAX_RETURN reaches a brick: its shared registers take the maxima and program 0 executes the FENCE. -/
def amaxReturns (s : State) (b n : Nat) (p : GritPacket) : State :=
  let k := s.brick n
  if !k.amaxSent || (k.gen 0).state == .held then s
  else
    let k1 := { k with amax := arun {} 0 ((List.range 16).map fun r =>
      let a := aget ({} : Amax) k.amax r
      if p.arg.getLsbD r then { a with amax := (amaxValues p).getD r 0 } else a) }
    (s.setBrick n k1).passFence b n true

/-! ### Draining (R217, R218) -/

/-- A program has stopped for the drain (R217, step 3; log entry 45). -/
def programStopped (s : State) (n p : Nat) : Bool :=
  let k := s.brick n
  let g := k.gen p
  let w := progWord k.conf p g.word
  g.state == .ended || progOp w == 0
    || (progOp w == 5 && (let i := streamOf w
        if (streamWord k.conf i).swap then (k.stream i).swapPosted.isNone else (eligibleHandle k p i).isNone))
    || (progOp w == 3 && if moveWrite w then k.results.isEmpty else consumerFull k p (moveFormat w) (moveTarget w))

/-- Undo the loads of tiles nothing has begun to use: each program returns to the note of its earliest such tile. -/
def rewindGen (k : Brick) (note : RewindPoint) : Brick :=
  k.setGen note.prog { k.gen note.prog with
    word := note.word, stack := note.stack, addr := note.addr, space := note.space, fromBase := note.fromBase
    moved := note.moved, state := .running }

/-- Tiles are rewound newest first, so the earliest note stands last. -/
def rewindBrick (k : Brick) : Brick :=
  let late (x : OperandTile) : Bool := x.note.prog != 0
  let gone := (k.weights ++ k.side ++ k.prim ++ k.acts).filter late
  let keep (l : List OperandTile) : List OperandTile := l.filter fun x => !late x
  let spent := gone.filterMap fun x => if x.note.draws.isEmpty then none else some (x.note.fmtWord, x.note.count, x.note.draws)
  let k1 := { k with weights := keep k.weights, side := keep k.side, prim := keep k.prim, acts := keep k.acts
                     redraws := spent ++ k.redraws }
  gone.foldr (fun x t =>
    let back := rewindGen t x.note
    let c := min x.note.count (aget 0 back.layoutCounts x.note.fmtWord)
    { back with layoutCounts := aput 0 back.layoutCounts x.note.fmtWord c }) k1

/-- The program that holds a swap half. -/
def swapHolder (k : Brick) (i : Nat) : Nat := ((List.range 4).find? fun p => (k.gen p).held.any fun x => x.1 == i).getD 0

/-- Release the swap halves of a brick (R217, step 4). -/
def releaseHalves (s : State) (b n : Nat) : State :=
  let k := s.brick n
  let t := (List.range 16).foldl (fun (t : State) i =>
    match ((t.brick n).stream i).half with
    | some h =>
      let u := t.releaseBuffer b n i (swapHolder k i) h
      let k2 := u.brick n
      u.setBrick n (k2.setStream i { k2.stream i with half := none })
    | none => t) s
  let keep (g : Gen) : Gen := { g with held := g.held.filter fun x => !(streamWord k.conf x.1).swap }
  t.setBrick n { t.brick n with gens := k.gens.map keep }

/-- Every out stream has all its handles back; every in stream is empty (R217, step 5). -/
def streamsHome (s : State) (b n : Nat) : Bool :=
  let k := s.brick n
  let images := s.bayImages b
  let rank := (s.rankOf b n).getD 0
  (List.range 16).all fun i =>
    let e := k.stream i
    if e.out then e.free.length == (ownHandles b images rank i (streamWord k.conf i)).length
    else e.queue.isEmpty && e.posts.isEmpty && e.half.isNone && e.swapPosted.isNone && e.relayHeld.isNone && e.relayTaken.isEmpty

/-- A bound ingress has nothing posted or in flight (R217). -/
def ingressIdle (s : State) (b n : Nat) : Bool :=
  s.net.grit.all (fun m => m.p.dest != n || m.p.source < 4096)
    && (List.range 16).all fun i => match s.ingressOf b ((s.rankOf b n).getD 0) i with
      | some c => (s.relay c).bytes == 0
      | none => true

/-- No pass, drain, chain, emission or result of the brick is in progress (R217, step 5). -/
def workDone (k : Brick) : Bool :=
  k.laneWords.isNone && k.results.isEmpty && !k.working && k.sortRow.isEmpty && !(k.bank0.state == .full) && !(k.bank1.state == .full)

/-- Every credit of the brick's outgoing lines and links is home, and none of its own flits waits (R85). -/
def creditsHome (s : State) (n : Nat) : Bool :=
  s.net.flits.all (fun f => (f.occupies.map fun x => x.1 / 8) != some n && (f.occupies.isSome || f.src != n))
    && s.net.credits.all (fun c => c.link / 8 != n)

/-- No work, packet, flit or credit of the brick is outstanding (R85, R217). -/
def brickClear (s : State) (b n : Nat) : Bool :=
  let k := s.brick n
  workDone k && k.prim.isEmpty && k.acts.isEmpty && k.gens.all (fun g => g.held.isEmpty) && s.streamsHome b n
    && s.ingressIdle b n && s.creditsHome n && s.net.grit.all (fun m => m.p.fence || m.p.source != n)

/-- The programs whose tiles a rewind discards. -/
def rewoundBy (k : Brick) : List Nat :=
  [1, 2, 3].filter fun p => (k.weights ++ k.side ++ k.prim ++ k.acts).any fun x => x.note.prog == p

/-- Step 3 of a drain: programs 1–3 have stopped, and no work that is under way can use another tile. -/
def drainStopped (s : State) (n : Nat) : Bool :=
  let k := s.brick n
  (k.gen 0).state == .held && [1, 2, 3].all (s.programStopped n) && workDone k && k.acts.all fun x => x.note.prog != 0

/-- A draining brick (R217): once its programs have stopped and its work has run out, unused tiles are rewound and its
swap halves go back; when it is quiet it reports to the anchor with the fence's id. -/
def brickQuiet (s : State) (b n : Nat) : State :=
  let k := s.brick n
  if (s.bay b).state ≠ .draining ∨ k.quietSent ∨ ¬ s.drainStopped n then s
  else
    let t := (s.setBrick n { rewindBrick k with rewound := k.rewound ++ rewoundBy k }).releaseHalves b n
    if t.brickClear b n then
      (t.setBrick n { t.brick n with quietSent := true }).sendGrit reqFunction
        (gritOf 4 (t.anchor b) n 0 0 (BitVec.ofNat 32 (((s.bay b).fenceId.getD 0) % 65536)) [])
    else t

end State

/-- END (R119, R206). -/
def execEndWord (brick prog : Nat) (s : State) : Out := .next (s.atWord brick prog 0 fun t b => t.endProgram b brick prog)
/-- BASE (R119). -/
def execBaseWord (brick prog : Nat) (s : State) : Out := .next (s.atWord brick prog 1 fun t _ => t.baseProgram brick prog)
/-- LOOP (R119). -/
def execLoopWord (brick prog : Nat) (s : State) : Out := .next (s.atWord brick prog 2 fun t _ => t.loopProgram brick prog)
/-- MOVE (R119): one tile, or one group of tiles on a store whose group spans several. -/
def execMoveWord (brick prog : Nat) (ecc : Ecc) (s : State) : Out :=
  .next (s.atWord brick prog 3 fun t b => t.moveProgram b brick prog ecc)
/-- FENCE (R85, R119). -/
def execFenceWord (brick prog : Nat) (s : State) : Out :=
  .next (s.atWord brick prog 4 fun t b => if prog = 0 then t.fenceProgram b brick else t)
/-- WAIT (R206, R208, R211). -/
def execWaitWord (brick prog : Nat) (ecc : Ecc) (s : State) : Out :=
  .next (s.atWord brick prog 5 fun t b => t.waitProgram b brick prog ecc)
/-- POST (R204). -/
def execPostWord (brick prog : Nat) (s : State) : Out := .next (s.atWord brick prog 6 fun t b => t.postProgram b brick prog)
/-- JUMP (R119, R206). -/
def execJumpWord (brick prog : Nat) (s : State) : Out := .next (s.atWord brick prog 7 fun t b => t.jumpProgram b brick prog)
/-- BRICK_QUIET (R217, R218). -/
def execBrickQuiet (brick : Nat) (s : State) : Out := .next (s.onBay brick fun t b => t.brickQuiet b brick)
/-- AMAX_PACKET (R193). -/
def execAmaxPacket (brick : Nat) (s : State) : Out := .next (s.onFencePacket 8 brick false fun t p => t.whileRunning brick fun u b => u.amaxArrives b p)
/-- AMAX_RETURN (R193). -/
def execAmaxReturn (brick : Nat) (s : State) : Out := .next (s.onFencePacket 9 brick true fun t p => t.whileRunning brick fun u b => u.amaxReturns b brick p)

end Sys2Proof.Machine
end

