-- ==== Sys2Proof/Machine/Matrix.lean ====
section
/-!
DEFINITION. The matrix slice (R148–R160, R181–R185): passes of the array into the fill bank, the joins of the
accumulate word, and the roles of the two banks.
-/
namespace Sys2Proof.Machine

/-! ### Exact sums (R155, R157) -/

/-- The product of two codes' values; none for the product of infinity and zero. -/
def prodVal (a b : FVal) : Option FVal :=
  let neg := a.isNeg != b.isNeg
  if a.isNan || b.isNan then some .shortNan
  else if a.isInf || b.isInf then if isZero a || isZero b then none else some (.inf neg)
  else some (ofSigned (a.num * b.num) neg)

/-- An exact sum: the value and invalid where it applies; negCancel where nonzero terms that cancel give −0. -/
def sumTerms (negCancel invalid : Bool) (terms : List FVal) : FVal × Nat :=
  let pos := terms.any fun t => t.isInf && !t.isNeg
  let neg := terms.any fun t => t.isInf && t.isNeg
  let bad := invalid || (pos && neg)
  if bad || terms.any FVal.isNan then (.shortNan, if bad then flInvalid else 0)
  else if pos || neg then (.inf neg, 0)
  else
    let q := (terms.map FVal.num).sum
    if q ≠ 0 then (.fin q, 0)
    else if terms.all (fun t => t == .negZero) then (.negZero, 0)
    else if negCancel && terms.any (fun t => t.num ≠ 0) then (.negZero, 0)
    else (.fin 0, 0)

/-- One rounding of a sum into binary32. -/
def roundSum (rnd : Rnd) (x : FVal × Nat) : Rounded :=
  let r := toB32 rnd x.1
  { code := r.code, flags := r.flags ||| x.2 }

/-- One chunk added to an accumulator (R155, R157). -/
def chunkStep (stochastic : Bool) (rnd : Rnd) (acc : FVal) (as ws : List FVal) : Rounded :=
  let ps := (as.zip ws).map fun x => prodVal x.1 x.2
  let invalid := acc.isSnan || as.any FVal.isSnan || ws.any FVal.isSnan || ps.any Option.isNone
  roundSum rnd (sumTerms stochastic invalid (acc :: ps.filterMap id))

/-- A partial merged into an accumulator (R156). -/
def mergeStep (stochastic : Bool) (rnd : Rnd) (acc q : FVal) : Rounded :=
  roundSum rnd (sumTerms stochastic (acc.isSnan || q.isSnan) [acc, q])

/-! ### Banks -/

namespace Brick

def bank (k : Brick) (i : Bool) : Bank := if i then k.bank1 else k.bank0
def setBank (k : Brick) (i : Bool) (v : Bank) : Brick := if i then { k with bank1 := v } else { k with bank0 := v }
/-- The fill bank and the bank that drains (R184). -/
def fill (k : Brick) : Bank := k.bank k.fillBank
def drain (k : Brick) : Bank := k.bank (!k.fillBank)

end Brick

/-- The fill bank becomes the drain bank once it is full and the other is clear. -/
def turnBanks (k : Brick) : Brick :=
  if k.fill.state = .full ∧ k.drain.state = .clear then { k with fillBank := !k.fillBank } else k

/-- The last fill of an output tile. -/
def finishFill (k : Brick) : Brick :=
  turnBanks { k.setBank k.fillBank { k.fill with state := .full } with passes := 0, chainLoaded := false, mergesTaken := 0 }

/-- An entry as an accumulator (R148). -/
def accOf (e : BitVec 96) : Nat := e.toNat % 2 ^ 32

/-- Tiles of one operand a pass takes (R182). -/
def passTiles (m : Memory) : Nat := if weightTile m = 1 then 2 else 1

/-! ### A pass on the integer path (R151) -/

/-- The sum of one pass for an entry: each half of 32 indices under the shift of its group. -/
def intPass (as ws : List (Array Int)) (ga gw : List (List Int)) (i j : Nat) : Int :=
  ((as.zip ws).zip (ga.zip gw)).foldl (fun s x =>
    let p := (List.range 32).foldl (fun t k => t + x.1.1.getD (32 * i + k) 0 * x.1.2.getD (32 * j + k) 0) 0
    s + p * 2 ^ ((x.2.1.getD i 0) + (x.2.2.getD j 0)).toNat) 0

def intValues (t : OperandTile) : Array Int :=
  (t.codes.map fun c => if t.fmt = 7 then g4Level c else i8Value c).toArray

/-- The bank after an integer pass. -/
def intFill (bank : Bank) (as ws : List OperandTile) : Assoc (BitVec 96) :=
  let old := (aread 0 bank.entries 0 1024).toArray
  let av := as.map intValues
  let wv := ws.map intValues
  let ga := as.map (·.groups)
  let gw := ws.map (·.groups)
  arun 0 0 ((List.range 1024).map fun e =>
    old.getD e 0 + BitVec.ofInt 96 (intPass av wv ga gw (e / 32) (e % 32)))

/-! ### A pass on the float path (R155, R159) -/

/-- The bank after a float pass, and each entry's flags; draws are the entries' own where the path is stochastic. -/
def floatFill (stochastic : Bool) (bank : Bank) (a w : OperandTile) (draws : List Word) : List Rounded :=
  let old := (aread 0 bank.entries 0 1024).toArray
  let av := (a.codes.map (decodeFmt a.fmt)).toArray
  let wv := (w.codes.map (decodeFmt w.fmt)).toArray
  let dr := draws.toArray
  (List.range 1024).map fun e =>
    let i := e / 32
    let j := e % 32
    chunkStep stochastic (if stochastic then .stochastic (dr.getD e 0) else .nearestEven)
      (decodeFmt 1 (accOf (old.getD e 0)))
      ((List.range 32).map fun k => av.getD (32 * i + k) .shortNan)
      ((List.range 32).map fun k => wv.getD (32 * k + j) .shortNan)

def floatEntries (rs : List Rounded) : Assoc (BitVec 96) := arun 0 0 (rs.map fun r => BitVec.ofNat 96 r.code)

namespace State

/-! ### Chunk draws (R159, R352) -/

/-- The reduction axis of a format word's layout entry: 0 where no entry gives one. -/
def reductionAxis (s : State) (b n f : Nat) : Nat :=
  match entryOf (s.brick n) ((s.rankOf b n).getD 0) f with
  | some e => e.reduction
  | none => 0

/-- The chunk index of a pair of operand tiles, from the operand that carries the reduction. -/
def chunkIndex (s : State) (b n : Nat) (a w : OperandTile) : Nat :=
  let of (f : Nat) (t : OperandTile) : Option Nat :=
    let r := s.reductionAxis b n f
    if !t.placed then none else if r = 1 then some (t.col / 32) else if r = 2 then some (t.row / 32) else none
  ((of 0 a).orElse fun _ => of 1 w).getD (s.brick n).passes

/-- The output tile in the fill bank, counted through the result's format word. -/
def resultIndex (k : Brick) : Nat :=
  aget 0 k.layoutCounts 2 + k.results.length + (if k.drain.state = .full then 1 else 0)

/-- One chunk draw for each entry. -/
def chunkDraws (s : State) (b n c tag : Nat) : List Word × State :=
  s.drawsFor n ((s.tileElems b n 2 (resultIndex (s.brick n)) tag).zipIdx.map fun x =>
    { lane := x.2 % 128, stream := 0, elem := x.1, num := 2 ^ 63 + c, chunk := true })

/-! ### ARRAY_PASS (R151, R155, R182–R184) -/

/-- The row bases of the tiles that open a reduction: 32 of the activation, then 32 of the weights (R132). -/
def passBases (as ws : List OperandTile) : List Int := ((as.head?.map (·.bases)).getD []) ++ ((ws.head?.map (·.bases)).getD [])

/-- Each row base of a tile that differs from the opening tile's raises invalid on that row's lane (R132). -/
def baseFlags (opened : List Int) (lane : Nat → Nat) (t : OperandTile) : List (Nat × Nat) :=
  ((opened.zip t.bases).zipIdx.filter fun x => x.1.1 ≠ x.1.2).map fun x => (lane x.2 % 128, flInvalid)

/-- The row bases of every tile of a pass against the opening tiles'. -/
def passBaseFlags (opened : List Int) (as ws : List OperandTile) : List (Nat × Nat) :=
  as.flatMap (baseFlags (opened.take 32) fun i => 32 * i) ++ ws.flatMap (baseFlags (opened.drop 32) fun j => j)

/-- A bank may be filled: it is clear, or filling. -/
def canFill (k : Brick) : Bool := k.fill.state == .clear || k.fill.state == .filling

/-- The operands of the next pass stand ready. -/
def operandsReady (k : Brick) : Bool := passTiles k.conf ≤ k.acts.length && passTiles k.conf ≤ k.weights.length

/-- The next step of a matrix slice is a pass, and no join of the accumulate word (R185). -/
def passNext (k : Brick) : Bool :=
  let w := epi k.conf 0
  functionOf k.conf == 1 && k.passes < accPasses w && (accJoin w != 1 || k.chainLoaded)

/-- The array can stream its next pass. -/
def passReady (k : Brick) : Bool := passNext k && canFill k && operandsReady k

/-- The array waits for a weight register, an activation row or a clear bank, and for nothing else (R183, R201). -/
def arrayWaits (k : Brick) : Bool :=
  functionOf k.conf == 1 && (!canFill k || (passNext k && !operandsReady k))

def pass (s : State) (b n : Nat) : State :=
  let k := s.brick n
  let m := k.conf
  let as := k.acts.take (passTiles m)
  let ws := k.weights.take (passTiles m)
  let now := passBases as ws
  let opened := if k.passes = 0 then now else k.fill.bases
  let tag := (as.head?.map (·.tag)).getD k.tag
  let base : Bank := { k.fill with state := .filling, bases := opened, tag := tag }
  let done (t : State) (entries : Assoc (BitVec 96)) : State :=
    let kt := t.brick n
    let k1 := { kt.setBank kt.fillBank { base with entries := entries } with
      acts := kt.acts.drop (passTiles m), weights := kt.weights.drop (passTiles m), passes := kt.passes + 1
      arrayWait := false }
    t.setBrick n (if k1.passes = accPasses (epi m 0) ∧ accJoin (epi m 0) ≠ 2 then finishFill k1 else k1)
  if reductionOf m = 0 then done (s.raise n (passBaseFlags opened as ws)) (intFill k.fill as ws)
  else match as.head?, ws.head? with
  | some a, some w =>
    let stochastic := reductionOf m == 2
    let drawn := if stochastic then s.chunkDraws b n (s.chunkIndex b n a w) tag else ([], s)
    let rs := floatFill stochastic k.fill a w drawn.1
    done (drawn.2.raiseTile n (rs.map (·.flags))) (floatEntries rs)
  | _, _ => s

/-- An array that cannot start a pass waits, and the tick's cycles are counted (`countStalls`). -/
def stallArray (s : State) (n : Nat) : State :=
  let k := s.brick n
  if arrayWaits k then s.setBrick n { k with arrayWait := true } else s

def arrayPass (s : State) (b n : Nat) : State := if passReady (s.brick n) then s.pass b n else s.stallArray n

/-! ### Joins (R153, R156, R185) -/

/-- Bytes of a tile of partial sums. -/
def partialSize (m : Memory) : Nat := if reductionOf m = 0 then 12288 else 4096

/-- The entries a partial tile holds. -/
def partialEntries (m : Memory) (b : Bytes) : List (BitVec 96) :=
  if reductionOf m = 0 then (chunks 12 1024 b).map fun c => BitVec.ofNat 96 (leNat c)
  else (chunks 4 1024 b).map fun c => BitVec.ofNat 96 (leNat c)

/-- The buffer a brick's function holds of a stream, taken from the queue where it holds none. -/
def functionBuffer (s : State) (n i : Nat) : Option Word :=
  let k := s.brick n
  match (k.stream i).relayHeld with
  | some h => some h
  | none => eligibleHandle k 1 i

/-- Take the next tile of a stream for the brick's function: its bytes, and the state after, the buffer released with
its last tile (R206). -/
def nextTile (s : State) (b n i size : Nat) : Option (Bytes × State) :=
  (s.functionBuffer n i).map fun h =>
    let k := s.brick n
    let e := k.stream i
    let fresh := e.relayHeld.isNone
    let at_ := if fresh then 0 else e.readAt
    let e1 := { e with relayHeld := some h, readAt := at_ + size, queue := if fresh then e.queue.erase h else e.queue
                       count := if fresh then e.count + 1 else e.count }
    let bytes := s.readBuffer b n h at_ size
    let t := s.setBrick n (k.setStream i e1)
    if at_ + 2 * size ≤ aget 0 e.filled (slotOf (streamWord k.conf i) h) then (bytes, t)
    else
      let u := t.setBrick n (k.setStream i { e1 with relayHeld := none, readAt := 0 })
      (bytes, u.releaseBuffer b n i reqFunction h)

/-- The chunk index of the first chunk the partial merged next covers: the producer's own operand, where the partial of
that number opened; each output tile takes merges + 1 of them (R159, R185; log entry 50). -/
def mergeChunk (s : State) (b n link : Nat) : Option Nat :=
  let rank := (s.rankOf b n).getD 0
  match (producersOf (s.bayImages b) rank link).head? with
  | none => none
  | some p =>
    let pn := (s.bricksOf b).getD p.1 0
    let pk := s.brick pn
    let k := s.brick n
    let number := resultIndex k * (accMerges (epi k.conf 0) + 1) + k.mergesTaken
    let first := number * accPasses (epi pk.conf 0) * passTiles pk.conf
    let tag := k.fill.tag
    let of (f : Nat) : Option Nat :=
      let r := s.reductionAxis b pn f
      (s.logicalPlace b pn f first tag).bind fun x => if r = 1 then some (x.2 / 32) else if r = 2 then some (x.1 / 32) else none
    (of 0).orElse fun _ => of 1

/-- Load the fill bank from the next tile of the link (chain-in). -/
def chainIn (s : State) (b n link : Nat) : State :=
  let m := (s.brick n).conf
  match s.nextTile b n link (partialSize m) with
  | none => s
  | some r =>
    let k := r.2.brick n
    let bank : Bank := { k.fill with state := .filling, entries := arun 0 0 (partialEntries m r.1) }
    r.2.setBrick n { k.setBank k.fillBank bank with chainLoaded := true }

/-- The next partial added entry by entry (merge-in). -/
def mergeIn (s : State) (b n link : Nat) : State :=
  let m := (s.brick n).conf
  match s.nextTile b n link (partialSize m) with
  | none => s
  | some r =>
    let t := r.2
    let k := t.brick n
    let old := aread 0 k.fill.entries 0 1024
    let add := partialEntries m r.1
    let put (u : State) (entries : Assoc (BitVec 96)) : State :=
      let ku := u.brick n
      let k1 := { ku.setBank ku.fillBank { ku.fill with entries := entries } with mergesTaken := ku.mergesTaken + 1 }
      u.setBrick n (if k1.mergesTaken = accMerges (epi m 0) + 1 then finishFill k1 else k1)
    if reductionOf m = 0 then put t (arun 0 0 ((old.zip add).map fun x => x.1 + x.2))
    else
      let stochastic := reductionOf m == 2
      let c := (t.mergeChunk b n link).getD (t.unstatedElem b n 2 (resultIndex k) k.mergesTaken % 2 ^ 63)
      let drawn := if stochastic then t.chunkDraws b n c k.fill.tag else ([], t)
      let rs := (old.zip add).zipIdx.map fun x =>
        mergeStep stochastic (if stochastic then .stochastic (drawn.1.getD x.2 0) else .nearestEven)
          (decodeFmt 1 (accOf x.1.1)) (decodeFmt 1 (accOf x.1.2))
      put (drawn.2.raiseTile n (rs.map (·.flags))) (floatEntries rs)

/-- The join the accumulate word asks for next (R185). -/
def accumulate (s : State) (b n : Nat) : State :=
  let k := s.brick n
  let w := epi k.conf 0
  let open_ := k.fill.state == .clear || k.fill.state == .filling
  if functionOf k.conf ≠ 1 ∨ epiOp w ≠ 1 ∨ !open_ then s
  else if accJoin w = 1 ∧ k.passes = 0 ∧ !k.chainLoaded then s.chainIn b n (accLink w)
  else if accJoin w = 2 ∧ k.passes = accPasses w ∧ k.mergesTaken ≤ accMerges w then s.mergeIn b n (accLink w)
  else s

/-! ### BANK_CLEAR (R184) -/

def clearDrained (s : State) (n : Nat) : State :=
  let k := s.brick n
  if functionOf k.conf = 1 ∧ k.drain.state = .dirty then s.setBrick n (turnBanks (k.setBank (!k.fillBank) {})) else s

end State

/-- ARRAY_PASS (R182, R183). -/
def execArrayPass (brick : Nat) (s : State) : Out := .next (s.whileRunning brick fun t b => t.arrayPass b brick)
/-- ACCUM (R185). -/
def execAccumWord (brick : Nat) (s : State) : Out := .next (s.whileRunning brick fun t b => t.accumulate b brick)
/-- BANK_CLEAR (R184). -/
def execBankClear (brick : Nat) (s : State) : Out := .next (s.whileRunning brick fun t _ => t.clearDrained brick)

end Sys2Proof.Machine
end

