-- ==== Sys2Proof/Machine/Vector.lean ====
section
/-!
DEFINITION. The lanes (R154, R158, R184–R198): drains and primary tiles entering them, every epilogue word on the tile
they hold, and the hand-over to program 2. A command of one word runs that word where it is the next; BANK_DRAIN and
PRIMARY_TILE run every word still to run (log entry 51).
-/
namespace Sys2Proof.Machine

/-! ### The chain of a section (R186) -/

/-- The words of the chain in the order they run: FLAGS words at the end of the tile (R195). -/
def chainOrder (m : Memory) : List Nat :=
  let ws := (chainWords m).filter fun k => epiOp (epi m k) != 1
  ws.filter (fun k => epiOp (epi m k) != 0x31) ++ ws.filter fun k => epiOp (epi m k) == 0x31

/-- Result tiles program 2 has not taken that the lanes may still add to (log entry 43). -/
abbrev resultRoom : Nat := 4

/-- Program 2 takes results (R181, R198). -/
def takesResults (m : Memory) : Bool := (progBody m 2).any fun k =>
  let w := progWord m 2 k
  progOp w == 3 && moveWrite w && moveTarget w ≤ 18

/-! ### The scale step (R154, R158) -/

def scaleEntry (m : Memory) (bank : Bank) (ta tw : Rat) (e : Nat) (v : BitVec 96) : Rounded :=
  let rnd := rndOf (roundingOf m)
  if reductionOf m = 0 then
    toB32 rnd (.fin ((v.toInt : Rat) * pow2 (bank.bases.getD (e / 32) 0 + bank.bases.getD (32 + e % 32) 0) * ta * tw))
  else
    let acc := decodeFmt 1 (accOf v)
    if acc.isNan then { code := canonical32, flags := 0 } else toB32 rnd (scaleBy acc (ta * tw))

/-- Operand a of a binary word for the element at (i, j) (R188). -/
def operandOf (p : Nat) (w : Word) (side : Array Nat) (e : Nat) : Nat :=
  let r := epiImm w % 32
  if epiSrc w = 0 then immOf p w
  else side.getD (if epiSrc w = 1 then e else if epiSrc w = 2 then 32 * r + e % 32 else 32 * (e / 32) + r) 0

/-! ### ROWSTAT (R191) -/

def maxCode (p : Nat) (cs : List Nat) : Nat := cs.foldl (fun m c => (pickOf p true m c).code) ((fmtOf p).infinity true)

/-- A row's registers after an update, the flags of the update itself, and those of its elements. -/
structure RowStep where
  x : Nat
  y : Nat
  flags : Nat
  elems : List Nat
  deriving DecidableEq, Repr

/-- One row's update of its two registers. The exponentials are formed in the chain's precision on the exact differences;
the maximum of a binary64 chain is rounded to nearest even where register x takes it (log entry 121). -/
def rowStep (p mode : Nat) (x y : Nat) (vs : List Nat) : RowStep :=
  let vals := vs.map (decodeFmt p)
  let snan := vals.any FVal.isSnan
  if mode = 0 then
    let rx := roundSum .nearestEven (sumTerms false snan (decodeFmt 1 x :: vals))
    let ry := roundSum .nearestEven (sumTerms false snan (decodeFmt 1 y :: vals.filterMap fun v => prodVal v v))
    { x := rx.code, y := ry.code, flags := rx.flags ||| ry.flags, elems := vs.map fun _ => 0 }
  else
    let old := widen p (decodeFmt 1 x)
    let mn := maxCode p (old :: vs)
    let x1 := (toB32 .nearestEven (decodeFmt p mn)).code
    if decodeFmt p mn = .inf true then { x := x1, y := 0, flags := 0, elems := vs.map fun _ => 0 }
    else
      let e0 := expDiff p old mn
      let es := vs.map fun c => expDiff p c mn
      let first := prodVal (decodeFmt 1 y) (decodeFmt p e0.code)
      let ry := roundSum .nearestEven (sumTerms false (snan || first.isNone) (first.toList ++ es.map fun r => decodeFmt p r.code))
      { x := x1, y := ry.code, flags := ry.flags ||| e0.flags, elems := es.map (·.flags) }

/-! ### SORT (R197) -/

/-- A pair ranks before another: numbers before NaN, the better value first, ties by lower index. -/
def ranksBefore (asc : Bool) (a b : SortPair) : Bool :=
  let x := decodeFmt 1 a.value
  let y := decodeFmt 1 b.value
  let less (u v : FVal) : Bool := match u, v with
    | .inf true, .inf true | .inf false, .inf false => false
    | .inf true, _ | _, .inf false => true
    | _, .inf true | .inf false, _ => false
    | _, _ => u.num < v.num
  if x.isNan && y.isNan then a.index < b.index
  else if x.isNan then false
  else if y.isNan then true
  else
    let better := if asc then less x y else less y x
    let worse := if asc then less y x else less x y
    better || (!worse && a.index < b.index)

def insertPair (asc : Bool) (x : SortPair) : List SortPair → List SortPair
  | [] => [x]
  | y :: rest => if ranksBefore asc x y then x :: y :: rest else y :: insertPair asc x rest

/-- An element's value as a pair holds it: binary32, a binary64 chain's rounded to nearest even (log entry 121). -/
def sortValue (p c : Nat) : Nat := if p = 0 then (toB32 .nearestEven (decodeFmt 0 c)).code else c

/-- The best k pairs of a row with one tile's elements taken in. -/
def sortRow (p : Nat) (asc : Bool) (k tile : Nat) (kept : List SortPair) (vs : List Nat) : List SortPair :=
  vs.zipIdx.foldl (fun l x => (insertPair asc { value := sortValue p x.1, index := 32 * tile + x.2 } l).take k) kept

/-- The k pairs of a row, 8 B each, missing ones as the canonical NaN: as the state holds them and as they are emitted. -/
def sortBytes (k : Nat) (ps : List SortPair) : Bytes :=
  let real := ps.take k
  (real.flatMap fun x => leBytes 4 x.value ++ leBytes 4 x.index)
    ++ (List.replicate (k - real.length) (leBytes 4 canonical32 ++ leBytes 4 0xFFFFFFFF)).flatten

/-- The byte of the hopper where a row's pairs of the SORT word k stand (R197). -/
def sortAt (m : Memory) (k row : Nat) : Nat := sortBase (epi m (k + 1)) * 256 + row * 8 * sortK (epi m k)

/-- The pairs of a row after some tiles of the row-block. -/
def sortPairs (kb : Brick) (k tiles row : Nat) : List SortPair :=
  let n := sortK (epi kb.conf k)
  (List.range (min n (32 * tiles))).map fun i =>
    let b := aread 0 kb.hopper (sortAt kb.conf k row + 8 * i) 8
    { value := fieldLE b 0 4, index := fieldLE b 4 4 }

namespace State

/-! ### Tiles entering and leaving the lanes -/

/-- A tile enters the lanes with its count through the format word that places it and the side tile its chain uses,
which keeps its place in the queue (R188); the drain or primary tile is counted (R195). -/
def enterLanes (s : State) (n : Nat) (codes : List Nat) (tag index : Nat) : State :=
  let k := s.brick n
  s.setBrick n { k with
    lanes := codes, laneTag := tag, laneIndex := index, laneWords := some (chainOrder k.conf)
    laneSide := if usesSide k.conf then k.side.head? else none, drains := (k.drains + 1) % 2 ^ 32 }

/-- The side tile the chain needs has arrived. -/
def sideReady (k : Brick) : Bool := !usesSide k.conf || !k.side.isEmpty

/-- The drain of a full bank begins: the scale step on every entry (R154, R158). -/
def beginDrain (s : State) (n : Nat) : State :=
  let k := s.brick n
  let m := k.conf
  if k.laneWords.isSome ∨ k.drain.state ≠ .full ∨ accRaw (epi m 0) ∨ !sideReady k then s
  else
    let ta := tensorScale k (formatWord m 0)
    let tw := tensorScale k (formatWord m 1)
    let rs := (aread 0 k.drain.entries 0 1024).zipIdx.map fun x => scaleEntry m k.drain ta tw x.2 x.1
    (s.raiseTile n (rs.map (·.flags))).enterLanes n (rs.map (·.code)) k.drain.tag
      (aget 0 k.layoutCounts 2 + k.results.length)

/-- A primary tile enters the lanes (R198). -/
def beginPrimary (s : State) (n : Nat) : State :=
  let k := s.brick n
  match k.prim with
  | [] => s
  | x :: rest =>
    if k.laneWords.isSome ∨ !sideReady k then s
    else (s.setBrick n { k with prim := rest }).enterLanes n x.codes x.tag x.note.count

/-- The next tile enters free lanes. -/
def beginTile (s : State) (n : Nat) : State :=
  let fn := functionOf (s.brick n).conf
  if fn = 1 then s.beginDrain n else if fn = 2 ∨ fn = 5 then s.beginPrimary n else s

/-- A result for program 2; without a MOVE that takes it, it is discarded. -/
def handResult (k : Brick) (r : ResultTile) : Brick :=
  if takesResults k.conf then { k with results := k.results ++ [r] } else k

/-- The last word has run: the results go to the store path, the side tile is released, and a drained bank waits for
its clear. -/
def leaveLanes (s : State) (n : Nat) : State :=
  let k := s.brick n
  if k.laneWords ≠ some [] ∨ resultRoom ≤ k.results.length then s
  else
    let k1 := handResult k { raw := false, wide := chainFmt k.conf == 0, values := k.lanes, tag := k.laneTag, words := [] }
    let k2 := if functionOf k.conf = 1 then k1.setBank (!k1.fillBank) { k1.drain with state := .dirty } else k1
    s.setBrick n { k2 with lanes := [], laneWords := none, laneSide := none
                           side := if k.laneSide.isSome then k.side.drop 1 else k.side }

/-- A raw drain (R185): the entries go to the next program-2 write MOVE as they are. -/
def rawDrainOf (s : State) (n : Nat) : State :=
  let k := s.brick n
  if k.drain.state ≠ .full ∨ resultRoom ≤ k.results.length then s
  else
    let int := reductionOf k.conf = 0
    let es := aread 0 k.drain.entries 0 1024
    let k1 := handResult k { raw := int, wide := false, values := es.map fun e => if int then e.toNat else accOf e
                             tag := k.drain.tag, words := [] }
    s.setBrick n { k1.setBank (!k1.fillBank) { k1.drain with state := .dirty } with drains := (k.drains + 1) % 2 ^ 32 }

/-! ### The words -/

/-- The word done: the lanes' values and the words left. -/
def wordDone (s : State) (n : Nat) (codes : List Nat) : State :=
  let k := s.brick n
  s.setBrick n { k with lanes := codes, laneWords := k.laneWords.map fun l => l.drop 1 }

/-- The lane of element e: in binary64 its group's first lane (R186). -/
def laneOf (p e : Nat) : Nat := if p = 0 then 4 * (e % 32) else e % 128

/-- An operation on every element. -/
def mapLanes (s : State) (n : Nat) (f : Nat → Nat → Rounded) : State :=
  let k := s.brick n
  let rs := k.lanes.zipIdx.map fun x => f x.2 x.1
  let p := chainFmt k.conf
  (s.raise n (rs.zipIdx.map fun x => (laneOf p x.2, x.1.flags))).wordDone n (rs.map (·.code))

/-- The format word whose layout entry gives the elements of the lanes (R190): the result's on a matrix slice, the
primary tile's elsewhere. -/
def laneEntry (m : Memory) : Nat := if functionOf m = 1 then 2 else 0

/-- Draws of one word for every element, under its stream and draw number. -/
def laneDraws (s : State) (b n stream num : Nat) : List Word × State :=
  let k := s.brick n
  let p := chainFmt k.conf
  s.drawsFor n ((s.tileElems b n (laneEntry k.conf) k.laneIndex k.laneTag).zipIdx.map fun x =>
    { lane := laneOf p x.2, stream := stream, elem := x.1, num := num, chunk := false })

/-- RAND (R190). -/
def runRand (s : State) (b n k : Nat) : State :=
  let m := (s.brick n).conf
  let w := epi m k
  let p := chainFmt m
  let d1 := s.laneDraws b n (randStream w) (epiImm w)
  let d2 := if randKind w = 1 then d1.2.laneDraws b n (randStream w) (epiImm w + 2 ^ 62) else ([], d1.2)
  let a1 := d1.1.toArray
  let a2 := d2.1.toArray
  d2.2.mapLanes n fun e v => randOf p (rndOf (roundingOf m)) w (epi m (k + 1)).toNat v (a1.getD e 0) (a2.getD e 0)

/-- CVT (R194). -/
def runCvt (s : State) (b n k : Nat) : State :=
  let m := (s.brick n).conf
  let w := epi m k
  let p := chainFmt m
  let d := if cvtRnd w = 5 then s.laneDraws b n (cvtStream w) (epiImm w) else ([], s)
  let a := d.1.toArray
  d.2.mapLanes n fun e v => cvtOf p (cvtFmt w) (cvtRounding m w (a.getD e 0)) v

/-- A record of bytes into the next buffer of an out stream, its handle posted (R191, R197). -/
def emitRecord (s : State) (b n i : Nat) (bs : Bytes) (tag : Nat) : State := (s.writeSlot b n i reqFunction bs tag).postSlot b n i reqFunction

/-- ROWSTAT: the registers of every row, and after banks + 1 tiles the record. -/
def runRowstat (s : State) (b n k : Nat) : State :=
  let kb := s.brick n
  let m := kb.conf
  let w := epi m k
  let p := chainFmt m
  let emits := kb.drains % rowBanks w = 0
  let first := (kb.drains + rowBanks w - 1) % rowBanks w = 0
  if emits ∧ !s.slotReady n (rowStream w) then s.stallOut n (rowStream w)
  else
    let rows := (List.range 32).map fun i =>
      let x := if first then (if rowMode w = 0 then 0 else 0xFF800000) else (aget 0 kb.rowX i).toNat
      let y := if first then 0 else (aget 0 kb.rowY i).toNat
      rowStep p (rowMode w) x y ((kb.lanes.drop (32 * i)).take 32)
    let t := s.raise n (rows.zipIdx.flatMap fun r => (laneOf p (32 * r.2), r.1.flags)
      :: r.1.elems.zipIdx.map fun e => (laneOf p (32 * r.2 + e.2), e.1))
    let u := t.setBrick n { t.brick n with
      rowX := arun 0 0 (rows.map fun r => BitVec.ofNat 32 r.x), rowY := arun 0 0 (rows.map fun r => BitVec.ofNat 32 r.y) }
    let bytes := rows.flatMap fun r => leBytes 4 r.x ++ leBytes 4 r.y
    (if emits then u.emitRecord b n (rowStream w) bytes kb.laneTag else u).wordDone n kb.lanes

/-- AMAX (R192); it waits while its register's exchange is under way (R193). -/
def runAmax (s : State) (n k : Nat) : State :=
  let kb := s.brick n
  let w := epi kb.conf k
  let p := chainFmt kb.conf
  if gatherHeld kb (amaxReg w) then s
  else
    let a := kb.lanes.foldl (fun a c => gatherAmax a (decodeFmt p c) (amaxFmt w)) (aget ({} : Amax) kb.amax (amaxReg w))
    (s.setBrick n { kb with amax := aput {} kb.amax (amaxReg w) a }).wordDone n kb.lanes

/-- FLAGS (R195, R214): one DATA packet with post set, length 4; then the states clear. -/
def runFlags (s : State) (b n k : Nat) : State :=
  let kb := s.brick n
  let i := flagsStream (epi kb.conf k)
  if !s.slotReady n i then s.stallOut n i
  else
    let all := (kb.laneFlags.map (·.2)).foldl (fun x f => x ||| f) 0
    let bytes := leBytes 1 (all % 64) ++ leBytes 3 (kb.drains % 2 ^ 24)
    let t := s.emitRecord b n i bytes kb.laneTag
    (t.setBrick n { t.brick n with laneFlags := [] }).wordDone n kb.lanes

/-- Emit rows of a SORT word's finished row-block while the out stream has buffers. -/
def emitRows (b n i k tag : Nat) : Nat → State → State
  | 0, s => s
  | fuel + 1, s =>
    let kb := s.brick n
    match aget 0 kb.sortRow k with
    | 0 => s
    | r + 1 =>
      if 32 ≤ r then s.setBrick n { kb with sortRow := aput 0 kb.sortRow k 0, sortTile := aput 0 kb.sortTile k 0 }
      else if s.slotReady n i then
        let t := s.emitRecord b n i (aread 0 kb.hopper (sortAt kb.conf k r) (8 * sortK (epi kb.conf k))) tag
        emitRows b n i k tag fuel (t.setBrick n { t.brick n with sortRow := aput 0 (t.brick n).sortRow k (r + 2) })
      else s.stallOut n i

/-- The hopper with the pairs of every row of a SORT word, 32 × k × 8 B from its base (R197). -/
def sortInto (kb : Brick) (k : Nat) (rows : List (List SortPair)) : Memory :=
  awrite 0 kb.hopper (sortAt kb.conf k 0) (rows.flatMap (sortBytes (sortK (epi kb.conf k))))

/-- The rows of a SORT word with the tile in the lanes taken in. -/
def sortTaken (kb : Brick) (k : Nat) : List (List SortPair) :=
  let tile := aget 0 kb.sortTile k
  let w := epi kb.conf k
  (List.range 32).map fun i =>
    Machine.sortRow (chainFmt kb.conf) (sortAsc w) (sortK w) tile (sortPairs kb k tile i) ((kb.lanes.drop (32 * i)).take 32)

/-- SORT (R197). -/
def runSort (s : State) (b n k : Nat) : State :=
  let kb := s.brick n
  let m := kb.conf
  let w := epi m k
  let t := if aget 0 kb.sortRow k ≠ 0 then s
    else
      let tiles := aget 0 kb.sortTile k + 1
      s.setBrick n { kb with hopper := sortInto kb k (sortTaken kb k), sortTile := aput 0 kb.sortTile k tiles
                             sortRow := aput 0 kb.sortRow k (bit01 (tiles == sortTiles (epi m (k + 1)))) }
  let u := emitRows b n (sortStream w) k kb.laneTag 33 t
  if aget 0 (u.brick n).sortRow k ≠ 0 then u else u.wordDone n kb.lanes

/-- The next word of the chain, by its op code. -/
def runWord (s : State) (b n k : Nat) : State :=
  let kb := s.brick n
  let m := kb.conf
  let w := epi m k
  let op := epiOp w
  let p := chainFmt m
  let rnd := rndOf (roundingOf m)
  if isBinary op then
    let side := ((kb.laneSide.map (·.codes)).getD []).toArray
    s.mapLanes n fun e v => binaryOf p rnd op v (operandOf p w side e)
  else if op = 0x20 then s.runRand b n k
  else if op = 0x28 then s.runRowstat b n k
  else if op = 0x29 then s.runAmax n k
  else if op = 0x2A then s.wordDone n kb.lanes
  else if op = 0x30 then s.runCvt b n k
  else if op = 0x31 then s.runFlags b n k
  else if op = 0x38 then s.runSort b n k
  else s.mapLanes n fun _ v => unaryOf p rnd w v

/-- Run every word still to run; a word that must wait stops the chain there. -/
def runChain (b n : Nat) : Nat → State → State
  | 0, s => s
  | fuel + 1, s =>
    match (s.brick n).laneWords with
    | some (k :: rest) =>
      let t := s.runWord b n k
      if (t.brick n).laneWords = some rest then runChain b n fuel t else t
    | _ => s

/-- BANK_DRAIN: the scale step and the chain of a full bank, or its raw drain. -/
def drainBank (s : State) (b n : Nat) : State :=
  let k := s.brick n
  if functionOf k.conf ≠ 1 then s
  else if accRaw (epi k.conf 0) then s.rawDrainOf n
  else (runChain b n 8 (s.beginDrain n)).leaveLanes n

/-- PRIMARY_TILE: the chain of a primary tile. -/
def primaryTile (s : State) (b n : Nat) : State :=
  let fn := functionOf (s.brick n).conf
  if fn = 2 ∨ fn = 5 then (runChain b n 8 (s.beginPrimary n)).leaveLanes n else s

/-- One epilogue word on the tile in the lanes, which enters them where it is the first. -/
def oneWord (s : State) (b n k op : Nat) : State :=
  let t := s.beginTile n
  if epiOp (epi (t.brick n).conf k) ≠ op then s
  else match (t.brick n).laneWords with
  | some (j :: _) => if j = k then (t.runWord b n k).leaveLanes n else s
  | _ => s

def runOp (s : State) (n k op : Nat) : State := s.whileRunning n fun t b => t.oneWord b n k op

end State

/-- BANK_DRAIN (R184). -/
def execBankDrain (brick : Nat) (s : State) : Out := .next (s.whileRunning brick fun t b => t.drainBank b brick)
/-- PRIMARY_TILE (R198). -/
def execPrimaryTile (brick : Nat) (s : State) : Out := .next (s.whileRunning brick fun t b => t.primaryTile b brick)
/-- ADD (R188). -/
def execAddOp (brick k : Nat) (s : State) : Out := .next (s.runOp brick k 0x02)
/-- MUL (R188). -/
def execMulOp (brick k : Nat) (s : State) : Out := .next (s.runOp brick k 0x03)
/-- MAX (R188). -/
def execMaxOp (brick k : Nat) (s : State) : Out := .next (s.runOp brick k 0x04)
/-- MIN (R188). -/
def execMinOp (brick k : Nat) (s : State) : Out := .next (s.runOp brick k 0x05)
/-- ABS (R189). -/
def execAbsOp (brick k : Nat) (s : State) : Out := .next (s.runOp brick k 0x10)
/-- NEG (R189). -/
def execNegOp (brick k : Nat) (s : State) : Out := .next (s.runOp brick k 0x11)
/-- RECIP (R189). -/
def execRecipOp (brick k : Nat) (s : State) : Out := .next (s.runOp brick k 0x12)
/-- SQRT (R189). -/
def execSqrtOp (brick k : Nat) (s : State) : Out := .next (s.runOp brick k 0x13)
/-- RSQRT (R189). -/
def execRsqrtOp (brick k : Nat) (s : State) : Out := .next (s.runOp brick k 0x14)
/-- EXP (R189). -/
def execExpOp (brick k : Nat) (s : State) : Out := .next (s.runOp brick k 0x15)
/-- LOG (R189). -/
def execLogOp (brick k : Nat) (s : State) : Out := .next (s.runOp brick k 0x16)
/-- COS (R189). -/
def execCosOp (brick k : Nat) (s : State) : Out := .next (s.runOp brick k 0x17)
/-- TANH (R189). -/
def execTanhOp (brick k : Nat) (s : State) : Out := .next (s.runOp brick k 0x18)
/-- SIGMOID (R189). -/
def execSigmoidOp (brick k : Nat) (s : State) : Out := .next (s.runOp brick k 0x19)
/-- GELU (R189). -/
def execGeluOp (brick k : Nat) (s : State) : Out := .next (s.runOp brick k 0x1A)
/-- SILU (R189). -/
def execSiluOp (brick k : Nat) (s : State) : Out := .next (s.runOp brick k 0x1B)
/-- RAND (R190). -/
def execRandOp (brick k : Nat) (s : State) : Out := .next (s.runOp brick k 0x20)
/-- SUBR (R188). -/
def execSubrOp (brick k : Nat) (s : State) : Out := .next (s.runOp brick k 0x21)
/-- SCALEB (R189). -/
def execScalebOp (brick k : Nat) (s : State) : Out := .next (s.runOp brick k 0x22)
/-- COPYSIGN (R188). -/
def execCopysignOp (brick k : Nat) (s : State) : Out := .next (s.runOp brick k 0x23)
/-- ROWSTAT (R191). -/
def execRowstatOp (brick k : Nat) (s : State) : Out := .next (s.runOp brick k 0x28)
/-- AMAX (R192). -/
def execAmaxOp (brick k : Nat) (s : State) : Out := .next (s.runOp brick k 0x29)
/-- SHARE (R193). -/
def execShareOp (brick k : Nat) (s : State) : Out := .next (s.runOp brick k 0x2A)
/-- CVT (R194). -/
def execCvtOp (brick k : Nat) (s : State) : Out := .next (s.runOp brick k 0x30)
/-- FLAGS (R195). -/
def execFlagsOp (brick k : Nat) (s : State) : Out := .next (s.runOp brick k 0x31)
/-- SORT (R197), with what its read of the hopper showed. -/
def execSortOp (brick k : Nat) (s : State) (ecc : Ecc := .clean) : Out :=
  .next (s.whileRunning brick fun t b =>
    let m := (t.brick brick).conf
    if ((t.beginTile brick).brick brick).laneWords.bind (·.head?) = some k ∧ epiOp (epi m k) = 0x38 then
      (t.oneWord b brick k 0x38).consumeEcc b brick .hopper (sortAt m k 0) ecc
    else t)

end Sys2Proof.Machine
end

