-- ==== Sys2Proof/Machine/Scores.lean ====
section
/-!
DEFINITION. The arithmetic and the records of attention (12_attention.md): work records and their checks (R288–R290,
R306), the online softmax of a key block (R298), its finish (R299), the merge of partials (R303) and the recomputation
of the backward pass (R305).
-/
namespace Sys2Proof.Machine

/-! ### Records (R288, R292) -/

/-- An extent (R292). -/
structure Extent where
  base : Nat
  gradBase : Nat
  first : Nat
  pages : Nat
  reserved : Nat
  deriving DecidableEq, Repr

/-- A work record (R288). -/
structure WorkRecord where
  kind : Nat
  home : Bool
  final : Bool
  causal : Bool
  stats : Bool
  rows : Nat
  g : Nat
  k : Nat
  append : Nat
  spec : Nat
  rollback : Nat
  pos0 : Nat
  staging : Nat
  scale : Word
  extents : List Extent
  out : Nat
  statsOut : Nat
  bucket : Nat
  seq : Nat
  mergeId : Nat
  part : Nat
  n : Nat
  partials : Nat
  stagingGrad : Nat
  /-- A reserved bit or byte of the record is set, or an entry at or beyond extents is not 0. -/
  dirty : Bool
  deriving DecidableEq, Repr

def extentOf (b : Bytes) (i : Nat) : Extent :=
  let a := 64 + 16 * i
  { base := fieldLE b a 4, gradBase := fieldLE b (a + 4) 4, first := fieldLE b (a + 8) 4, pages := fieldLE b (a + 12) 2
    reserved := fieldLE b (a + 14) 2 }

def workRecord (b : Bytes) : WorkRecord :=
  let fl := fieldLE b 1 1
  let ne := fieldLE b 20 1
  { kind := fieldLE b 0 1, home := fl.testBit 0, final := fl.testBit 1, causal := fl.testBit 2, stats := fl.testBit 3
    rows := fieldLE b 2 1 + 1, g := fieldLE b 3 1 + 1, k := fieldLE b 4 1 + 1, append := fieldLE b 5 1
    spec := fieldLE b 6 1, rollback := fieldLE b 7 1, pos0 := fieldLE b 8 4, staging := fieldLE b 12 4
    scale := wordOf b 4, extents := (List.range (min ne 8)).map (extentOf b), out := fieldLE b 21 1
    statsOut := fieldLE b 22 1, bucket := fieldLE b 23 1, seq := fieldLE b 24 4, mergeId := fieldLE b 28 4
    part := fieldLE b 32 1, n := fieldLE b 33 1 + 1, partials := fieldLE b 34 1, stagingGrad := fieldLE b 36 4
    dirty := 16 ≤ fl || 8 < ne || fieldLE b 35 1 ≠ 0 || fieldLE b 40 24 ≠ 0 || fieldLE b 192 64 ≠ 0
      || fieldLE b (64 + 16 * min ne 8) (128 - 16 * min ne 8) ≠ 0 }

/-- The head dimension of a record. -/
def WorkRecord.dim (r : WorkRecord) : Nat := 32 * r.k
/-- Query position of a row (R288). -/
def WorkRecord.query (r : WorkRecord) (row : Nat) : Nat := r.pos0 + row / r.g
/-- The bound of a record's bucket (R306). -/
def WorkRecord.bound (r : WorkRecord) : Nat := 2 ^ (9 + r.bucket)

/-- Extents in ascending page order and apart. -/
def extentsOrdered : List Extent → Bool
  | a :: b :: rest => decide (a.first + a.pages ≤ b.first) && extentsOrdered (b :: rest)
  | _ => true

/-- An extent with a field outside its range. -/
def extentBad (kind : Nat) (e : Extent) : Bool :=
  e.reserved ≠ 0 || e.pages = 0 || 65536 ≤ e.base || (kind ≠ 2 && e.gradBase ≠ 0)

/-- The staging buffer's header (R294): tokens held, committed, next page, and whether it keeps the rules. -/
structure StagingHeader where
  u : Nat
  cc : Nat
  next : Nat
  ok : Bool
  deriving DecidableEq, Repr

def stagingHeader (b : Bytes) : StagingHeader :=
  let u := fieldLE b 0 1
  let cc := fieldLE b 1 1
  { u := u, cc := cc, next := fieldLE b 4 4, ok := u ≤ 72 && cc ≤ u && fieldLE b 2 2 = 0 && fieldLE b 8 248 = 0 }

def stagingHeaderBytes (h : StagingHeader) : Bytes := leBytes 1 h.u ++ leBytes 1 h.cc ++ [0, 0] ++ leBytes 4 h.next ++ zeros 248

/-- Ranges and reserved values of a record (R288, R302, R305), on a section. -/
def recordBad (m : Memory) (r : WorkRecord) (h : StagingHeader) : Bool :=
  let home := r.home
  r.dirty || r.kind = 0 || 4 ≤ r.kind || 32 < r.rows || 32 < r.g || r.rows % r.g ≠ 0 || 8 < r.k || 32 < r.append
    || (r.append ≠ 0 && (!home || r.kind ≠ 1 || r.rows ≠ r.g * r.append)) || 8 < r.spec || r.append < r.spec
    || 8 < r.rollback || (r.rollback ≠ 0 && (!home || r.kind = 2)) || (!home && r.staging ≠ 0)
    || !positiveFinite r.scale || 16 ≤ r.out || 16 ≤ r.statsOut || 12 ≤ r.bucket || 32 ≤ r.part || 32 < r.n
    || 16 ≤ r.partials || ((r.kind ≠ 2 || !home) && r.stagingGrad ≠ 0) || r.extents.any (extentBad r.kind)
    || !extentsOrdered r.extents || (r.final && r.n ≠ 1)
    || !streamOk m r.out true || (r.stats && !streamOk m r.statsOut true) || (home && !h.ok)
    || (r.kind = 2 && epilogueCount m ≠ 0)

/-- Bytes of inputs a record names (R289). -/
def inputBytes (m : Memory) (r : WorkRecord) : Nat :=
  let z0 := tileSize false (formatWord m 0).stored
  let z1 := tileSize false (formatWord m 1).stored
  if r.kind = 1 then 256 + r.k * z0 + 2 * r.k * z1 else if r.kind = 2 then 768 + 2 * r.k * z0 else 256

/-- The answer is finished on this brick (R299, R303). -/
def finishes (r : WorkRecord) : Bool := r.kind = 3 || (r.kind = 1 && r.final)

/-- Bytes of a record's output on its out stream. -/
def outputBytes (m : Memory) (r : WorkRecord) : Nat :=
  if r.kind = 2 then r.k * 4096 else if finishes r then r.k * tileSize false (formatWord m 2).stored
  else 320 + 4 * r.dim * r.rows

def slotBytes (m : Memory) (i : Nat) : Nat := (streamWord m i).slotUnits * 256

/-! ### The staging buffer's course (R295) -/

/-- An event of an update: token i into slot u, or a flush of page next with u tokens held. -/
inductive StagingEvent where
  | token (i u : Nat)
  | flush (page u : Nat)
  deriving DecidableEq, Repr

/-- Header and events so far. -/
abbrev StagingCourse := StagingHeader × List StagingEvent

def courseFlush (c : StagingCourse) : StagingCourse :=
  if 64 ≤ c.1.cc then
    ({ c.1 with u := c.1.u - 64, cc := c.1.cc - 64, next := c.1.next + 1 }, c.2 ++ [.flush c.1.next c.1.u])
  else c

/-- Before the append: rollback, commit, flush. -/
def courseStart (r : WorkRecord) (h : StagingHeader) : StagingCourse :=
  let u := h.u - r.rollback
  courseFlush ({ h with u := u, cc := u }, [])

/-- The whole update. -/
def stagingCourse (r : WorkRecord) (h : StagingHeader) : StagingCourse :=
  (List.range r.append).foldl (fun c i =>
    let c1 : StagingCourse := ({ c.1 with u := c.1.u + 1 }, c.2 ++ [.token i c.1.u])
    if i < r.append - r.spec then courseFlush ({ c1.1 with cc := c1.1.u }, c1.2) else c1) (courseStart r h)

/-- Header after a record: an ATTEND home record's update, else as it is. -/
def headerAfter (r : WorkRecord) (h : StagingHeader) : StagingHeader :=
  if r.kind = 1 ∧ r.home then (stagingCourse r h).1 else h

/-- The extent that holds a page. -/
def extentFor (r : WorkRecord) (page : Nat) : Option Extent := r.extents.find? fun e => e.first ≤ page && page < e.first + e.pages

/-- A position reaches the bound of the bucket (R306). -/
def beyondBound (r : WorkRecord) (h : StagingHeader) : Bool :=
  let a := headerAfter r h
  r.bound ≤ r.query (r.rows - 1) || (r.append ≠ 0 && r.bound < r.pos0 + r.append)
    || r.extents.any (fun e => r.bound < 64 * (e.first + e.pages))
    || (r.home && a.u ≠ 0 && r.bound < 64 * a.next + a.u)

/-- The first check a record fails (R290), S_OK where it passes. -/
def recordCode (m : Memory) (r : WorkRecord) (h : StagingHeader) : Code :=
  let update := r.kind = 1 ∧ r.home
  let start := (courseStart r h).1
  if recordBad m r h then eBadField
  else if slotBytes m 0 < inputBytes m r ∨ slotBytes m r.out < outputBytes m r then eBadLength
  else if r.home ∧ h.u - h.cc < r.rollback then eKvRollback
  else if (r.append ≠ 0 ∧ r.pos0 ≠ 64 * start.next + start.u) ∨ beyondBound r h then eKvPosition
  else if update ∧ (stagingCourse r h).2.any (fun e => match e with
      | .flush p _ => (extentFor r p).isNone
      | .token _ _ => false) then eKvNoPage
  else sOk

/-! ### Scores (R297, R298) -/

/-- Values of a tile, element (i, j) at 32 i + j. -/
abbrev TileVals := Array FVal

def tileVals (fmt : Nat) (codes : List Nat) : TileVals := (codes.map (decodeFmt fmt)).toArray

def at2 (t : TileVals) (i j : Nat) : FVal := t.getD (32 * i + j) (.fin 0)
def rowVals (t : TileVals) (i : Nat) : List FVal := (List.range 32).map (at2 t i)

/-- Element j of row i of a list of tiles side by side. -/
def wideAt (ts : List TileVals) (i j : Nat) : FVal := at2 (ts.getD (j / 32) #[]) i (j % 32)

/-- A dot product of two rows, folded over the chunks in order. -/
def foldDot (as bs : List TileVals) (i j : Nat) : Nat × Nat :=
  (as.zip bs).foldl (fun (acc : Nat × Nat) x =>
    let r := chunkStep false .nearestEven (decodeFmt 1 acc.1) (rowVals x.1 i) (rowVals x.2 j)
    (r.code, acc.2 ||| r.flags)) (0, 0)

/-- The exact product of a score and its scales, rounded once. -/
def scaleScore (rnd : Rnd) (scale : Rat) (acc : Nat) : Rounded :=
  let v := decodeFmt 1 acc
  if v.isNan then { code := canonical32, flags := 0 } else toB32 rnd (scaleBy v scale)

/-- The words of the score chain on one score, with the draw of each stochastic one; FLAGS words send nothing here (log
entry 61). -/
def scoreChain (m : Memory) (draw : Nat → Word) (v : Nat) : Nat × Nat :=
  let rnd := rndOf (roundingOf m)
  (chainOrder m).foldl (fun (acc : Nat × Nat) k =>
    let w := epi m k
    let op := epiOp w
    let r : Rounded :=
      if op = 0x31 then { code := acc.1, flags := 0 }
      else if isBinary op then binaryOf 1 rnd op acc.1 (immOf 1 w)
      else if op = 0x30 then cvtOf 1 (cvtFmt w) (cvtRounding m w (draw k)) acc.1
      else unaryOf 1 rnd w acc.1
    (r.code, acc.2 ||| r.flags)) (v, 0)

/-- A score of row i against key t: the dot product, the scales, the chain. -/
def scoreOf (m : Memory) (scale : Rat) (draw : Nat → Word) (qs ks : List TileVals) (i t : Nat) : Nat × Nat :=
  let d := foldDot qs ks i t
  let c := scaleScore (rndOf (roundingOf m)) scale d.1
  let e := scoreChain m draw c.code
  (e.1, d.2 ||| c.flags ||| e.2)

abbrev negInf32 : Nat := 0xFF800000

/-- A sum of terms, some of them products that may be invalid, rounded once to nearest even. -/
def sumProducts (ts : List (Option FVal)) : Rounded :=
  roundSum .nearestEven (sumTerms false (ts.any Option.isNone) (ts.filterMap id))

/-- Flags on lanes. -/
abbrev LaneFlags := List (Nat × Nat)

/-- The state of one row: m, l and o as binary32 (R298). -/
structure RowState where
  m : Nat := negInf32
  l : Nat := 0
  o : List Nat
  deriving DecidableEq, Repr

def rowStart (d : Nat) : RowState := { o := List.replicate d 0 }

/-- One key block on one row: its 32 scores, the values of its keys and the compute format of p (R298). -/
def rowBlock (fmt row : Nat) (st : RowState) (ss : List Nat) (vs : List TileVals) : RowState × LaneFlags :=
  let mn := maxCode 1 (st.m :: ss)
  if mn = negInf32 then (st, [])
  else
    let al := expDiff 1 st.m mn
    let ps := ss.map fun s => expDiff 1 s mn
    let ln := sumProducts (prodVal (decodeFmt 1 st.l) (decodeFmt 1 al.code) :: ps.map fun p => some (decodeFmt 1 p.code))
    let pcs := ps.map fun p => convertTo fmt .nearestEven (decodeFmt 1 p.code)
    let pv := pcs.map fun p => decodeFmt fmt p.code
    let a := decodeFmt 1 al.code
    let os := st.o.zipIdx.map fun x =>
      sumProducts (prodVal (decodeFmt 1 x.1) a :: pv.zipIdx.map fun p => prodVal p.1 (wideAt vs p.2 x.2))
    ({ m := mn, l := ln.code, o := os.map (·.code) },
      (32 * row % 128, al.flags ||| ln.flags) :: (ps.zip pcs).zipIdx.map (fun x => ((32 * row + x.2) % 128, x.1.1.flags ||| x.1.2.flags))
        ++ os.zipIdx.map fun x => ((32 * row + x.2) % 128, x.1.flags))

/-- An exact quotient of binary32 values times a scale, rounded once. -/
def quotientOf (scale : Rat) (o l : Nat) : Rounded :=
  let a := decodeFmt 1 o
  let b := decodeFmt 1 l
  if a.isNan || b.isNan then { code := canonical32, flags := if a.isSnan || b.isSnan then flInvalid else 0 }
  else if (a.isInf && b.isInf) || (isZero a && isZero b) then { code := canonical32, flags := flInvalid }
  else
    let neg := a.isNeg != b.isNeg
    if a.isInf then toB32 .nearestEven (.inf neg)
    else if b.isInf then toB32 .nearestEven (zeroVal neg)
    else if isZero b then { code := (fmtOf 1).infinity neg, flags := flDivZero }
    else toB32 .nearestEven (ofSigned (a.num * scale / b.num) neg)

/-- The finished row (R299): out, lse and the flags. -/
def finishRow (scale : Rat) (row : Nat) (st : RowState) : List Nat × Nat × LaneFlags :=
  if st.m = negInf32 then (st.o.map fun _ => 0, negInf32, [])
  else
    let os := st.o.map (quotientOf scale · st.l)
    let ln := boundedOf 1 0x16 st.l
    let ls := addOf 1 .nearestEven (decodeFmt 1 st.m) (decodeFmt 1 ln.code)
    (os.map (·.code), ls.code, (32 * row % 128, ln.flags ||| ls.flags) :: os.zipIdx.map fun x => ((32 * row + x.2) % 128, x.1.flags))

/-! ### Partials (R300, R303) -/

def partialBytes (r : WorkRecord) (rows : List RowState) : Bytes :=
  leBytes 4 r.seq ++ leBytes 4 r.mergeId ++ leBytes 1 r.part ++ leBytes 1 (r.n - 1) ++ leBytes 1 (r.rows - 1) ++ leBytes 1 (r.k - 1)
    ++ zeros 52 ++ (List.range 32).flatMap (fun i => leBytes 4 ((rows.map (·.m)).getD i 0))
    ++ (List.range 32).flatMap (fun i => leBytes 4 ((rows.map (·.l)).getD i 0))
    ++ rows.flatMap fun x => x.o.flatMap (leBytes 4)

def partialRow (b : Bytes) (d row : Nat) : RowState :=
  { m := fieldLE b (64 + 4 * row) 4, l := fieldLE b (192 + 4 * row) 4
    o := (List.range d).map fun j => fieldLE b (320 + 4 * d * row + 4 * j) 4 }

/-- combine of R303 on one row. -/
def combineRow (row : Nat) (a b : RowState) : RowState × LaneFlags :=
  let m := maxCode 1 [a.m, b.m]
  if m = negInf32 then ({ m := m, l := 0, o := a.o.map fun _ => 0 }, [])
  else
    let ea := expDiff 1 a.m m
    let eb := expDiff 1 b.m m
    let va := decodeFmt 1 ea.code
    let vb := decodeFmt 1 eb.code
    let l := sumProducts [prodVal (decodeFmt 1 a.l) va, prodVal (decodeFmt 1 b.l) vb]
    let os := (a.o.zip b.o).map fun x => sumProducts [prodVal (decodeFmt 1 x.1) va, prodVal (decodeFmt 1 x.2) vb]
    ({ m := m, l := l.code, o := os.map (·.code) },
      (32 * row % 128, ea.flags ||| eb.flags ||| l.flags) :: os.zipIdx.map fun x => ((32 * row + x.2) % 128, x.1.flags))

def combineRows (a b : List RowState) : List RowState × LaneFlags :=
  let rs := (a.zip b).zipIdx.map fun x => combineRow x.2 x.1.1 x.1.2
  (rs.map (·.1), rs.flatMap (·.2))

/-- One round of the tree: neighbours in pairs, an odd last one as it is. -/
def combineRound : List (List RowState) → List (List RowState) × LaneFlags
  | a :: b :: rest =>
    let c := combineRows a b
    let t := combineRound rest
    (c.1 :: t.1, c.2 ++ t.2)
  | l => (l, [])

/-- The tree of R303; five rounds join 32 parts. -/
def combineTree : Nat → List (List RowState) → List RowState × LaneFlags
  | 0, l => (l.headD [], [])
  | n + 1, l =>
    if l.length ≤ 1 then (l.headD [], [])
    else
      let r := combineRound l
      let t := combineTree n r.1
      (t.1, r.2 ++ t.2)

end Sys2Proof.Machine
end

