-- ==== Sys2Proof/Machine/Attention.lean ====
section
/-!
DEFINITION. The attention engine (12_attention.md): the staging buffer and its flushes (R294–R296), the key blocks of
a record (R297), ATTEND, BACKWARD, MERGE and MERGE_COMBINE, their outputs and their refusal (R290).
-/
namespace Sys2Proof.Machine

/-- A key block (R297): position of its first key, keys in use, and the column bytes of its k key tiles and k value
tiles, and of their gradient tiles. -/
structure KeyBlock where
  pos : Nat
  valid : Nat
  keys : List Nat
  values : List Nat
  gradKeys : List Nat
  gradValues : List Nat
  deriving DecidableEq, Repr

/-- Column byte of tile x of a page (R291, R292). -/
def pageTile (e : Extent) (page k z x : Nat) : Nat := (e.base + (page - e.first) * (4 * k * z / 256)) * 256 + x * z
def gradTile (e : Extent) (page k x : Nat) : Nat := (e.gradBase + (page - e.first) * (64 * k)) * 256 + x * 4096

/-- Half b of a page as a key block. -/
def pageBlock (r : WorkRecord) (z : Nat) (e : Extent) (page b : Nat) : KeyBlock :=
  let cs := List.range r.k
  { pos := 64 * page + 32 * b, valid := 32
    keys := cs.map fun c => pageTile e page r.k z (2 * c + b)
    values := cs.map fun c => pageTile e page r.k z (2 * r.k + 2 * c + b)
    gradKeys := cs.map fun c => gradTile e page r.k (2 * c + b)
    gradValues := cs.map fun c => gradTile e page r.k (2 * r.k + 2 * c + b) }

/-- Column byte of a tile of the staging buffer: key tiles of blocks 0–2, then value tiles (R294). -/
def stagingTile (r : WorkRecord) (z : Nat) (value : Bool) (b c : Nat) : Nat :=
  (r.staging + 1) * 256 + ((if value then 3 * r.k else 0) + b * r.k + c) * z

def stagingBlock (r : WorkRecord) (h : StagingHeader) (z b : Nat) : KeyBlock :=
  let cs := List.range r.k
  let grad (value : Bool) (c : Nat) : Nat := r.stagingGrad * 256 + ((if value then 3 * r.k else 0) + b * r.k + c) * 4096
  { pos := 64 * h.next + 32 * b, valid := min 32 (h.u - 32 * b)
    keys := cs.map (stagingTile r z false b), values := cs.map (stagingTile r z true b)
    gradKeys := cs.map (grad false), gradValues := cs.map (grad true) }

/-- The key blocks of a record in ascending position. -/
def keyBlocks (r : WorkRecord) (h : StagingHeader) (z : Nat) : List KeyBlock :=
  (r.extents.flatMap fun e => ((List.range e.pages).map (e.first + ·)).flatMap fun i =>
      if r.home ∧ h.next ≤ i then [] else [pageBlock r z e i 0, pageBlock r z e i 1])
    ++ if r.home then [0, 1, 2].map (stagingBlock r h z) else []

/-- Key t of a block is masked for a row (R297). -/
def maskedKey (r : WorkRecord) (b : KeyBlock) (row t : Nat) : Bool :=
  b.valid ≤ t || (r.causal && r.query row < b.pos + t)

/-- Every key of a block is masked for every row. -/
def blockMasked (r : WorkRecord) (b : KeyBlock) : Bool :=
  (List.range r.rows).all fun i => (List.range 32).all (maskedKey r b i)

/-- The stochastic CVT words of the score chain. -/
def drawingWords (m : Memory) : List Nat := (chainOrder m).filter fun k => epiOp (epi m k) == 0x30 && cvtRnd (epi m k) == 5

namespace State

/-! ### The work buffer -/

/-- The handle of the work buffer, and its record. -/
def workHandle (s : State) (n : Nat) : Option Word := ((((s.brick n).gen 0).held).find? fun x => x.1 == 0).map (·.2)

/-- The engine is at work on a record. -/
def workOf (s : State) (b n : Nat) : Option (Word × WorkRecord) :=
  if functionOf (s.brick n).conf = 3 ∧ (s.brick n).working then
    (s.workHandle n).map fun h => (h, workRecord (s.readBuffer b n h 0 256))
  else none

def headerOf (s : State) (b n : Nat) (r : WorkRecord) : StagingHeader :=
  if r.home then stagingHeader (s.readSpace b n .column (r.staging * 256) 256) else { u := 0, cc := 0, next := 0, ok := true }

/-- Tiles of a format word from byte addresses of a space, through the load path. -/
def loadVals (s : State) (b n f : Nat) (sp : Space) : List Nat → State × List TileVals
  | [] => (s, [])
  | a :: as =>
    let note : RewindPoint := { prog := 0, word := 0, stack := [], addr := 0, space := sp, fromBase := false, moved := 0
                                fmtWord := f, count := 0, draws := [] }
    let x := s.loadAt b n f sp a (s.brick n).tag true false note
    let rest := x.1.loadVals b n f sp as
    (rest.1, tileVals x.2.fmt x.2.codes :: rest.2)

/-- Input tiles of the work buffer from a byte on. -/
def loadInputs (s : State) (b n f : Nat) (h : Word) (at_ k : Nat) : State × List TileVals :=
  let z := tileSize false (formatWord (s.brick n).conf f).stored
  s.loadVals b n f (handleSpace h) ((List.range k).map fun c => handleAddr h * 256 + at_ + c * z)

/-! ### Outputs (R286, R299, R300) -/

/-- The engine has finished a record (R286); one not refused is counted. -/
def recordDone (s : State) (b n : Nat) : State :=
  let k := s.brick n
  let t := s.setBrick n { k with working := false, partials := [], partialHandles := [], refused := false }
  if k.refused then t else t.count (attRecords b) 1

/-- One output: its tiles into the next buffer of its out stream, the handle posted as a POST would (R286). -/
def writeJob (s : State) (b n : Nat) (j : OutJob) : State :=
  let f := formatWord (s.brick n).conf 2
  (j.tiles.foldl (fun (t : State) x => t.writeTileSlot b n j.stream reqFunction f { tile := x.1, record := x.2, flags := [] } j.tag)
    s).postSlot b n j.stream reqFunction

/-- The outputs in order: the engine stalls at one whose stream has no buffer, and has finished the record after the
last. -/
def emitJobs (b n : Nat) : Nat → State → State
  | 0, s => s
  | fuel + 1, s =>
    let k := s.brick n
    match k.outJobs with
    | [] => s.recordDone b n
    | j :: rest =>
      if s.slotReady n j.stream then
        let t := s.writeJob b n j
        emitJobs b n fuel (t.setBrick n { t.brick n with outJobs := rest })
      else s.stallOut n j.stream

/-- The engine turns to a record's outputs: at most two, and the end of the record. -/
def putJobs (s : State) (b n : Nat) (jobs : List OutJob) : State :=
  emitJobs b n 3 (s.setBrick n { s.brick n with outJobs := jobs })

/-- Tiles through format word 2, group by group: the state after, and each tile with its record. -/
def storeOut (s : State) (b n : Nat) (tiles : List ResultTile) : State × List (Bytes × Bytes) :=
  let size := groupTiles (formatWord (s.brick n).conf 2)
  (chunks size tiles.length tiles).foldl (fun (acc : State × List (Bytes × Bytes)) g =>
    let r := acc.1.storeThrough b n 2 (aget 0 (acc.1.brick n).layoutCounts 2) g
    (r.1, acc.2 ++ r.2.map fun x => (x.tile, x.record))) (s, [])

/-- An output of plain bytes. -/
def plainJob (s : State) (n i : Nat) (bs : Bytes) : OutJob := { stream := i, tiles := [(bs, [])], tag := (s.brick n).tag }

/-- k tiles of rows of values as results; rows beyond them are 0. -/
def outTiles (k tag : Nat) (rows : List (List Nat)) : List ResultTile :=
  let a := (rows.map List.toArray).toArray
  (List.range k).map fun c =>
    { raw := false, wide := false, tag := tag, words := []
      values := (List.range 1024).map fun e => (a.getD (e / 32) #[]).getD (32 * c + e % 32) 0 }

/-- The final outputs (R299): the rows through format word 2, and the stats record. -/
def emitFinal (s : State) (b n : Nat) (r : WorkRecord) (rows : List RowState) : State :=
  let k := s.brick n
  let scale := tensorScale k (formatWord k.conf 1)
  let fs := rows.zipIdx.map fun x => finishRow scale x.2 x.1
  let t := s.raise n (fs.flatMap (·.2.2))
  let u := t.storeOut b n (outTiles r.k k.tag (fs.map (·.1)))
  let stats := (List.range 32).flatMap fun i => leBytes 4 ((rows.map (·.m)).getD i 0) ++ leBytes 4 ((fs.map (·.2.1)).getD i 0)
  u.1.putJobs b n ({ stream := r.out, tiles := u.2, tag := k.tag } :: if r.stats then [u.1.plainJob n r.statsOut stats] else [])

/-- Release the partials a MERGE holds. -/
def releasePartials (s : State) (b n i : Nat) : State :=
  (s.brick n).partialHandles.foldl (fun (t : State) h => t.releaseBuffer b n i reqFunction h) s

/-- n bytes of canonical binary32 NaN. -/
def nanFill (n : Nat) : Bytes := (List.range n).map fun i => BitVec.ofNat 8 (canonical32 >>> (8 * (i % 4)))

/-- The outputs of a refused record, filled with NaN; a partial keeps its header (R290; log entry 62). -/
def emitNan (s : State) (b n : Nat) (r : WorkRecord) : State :=
  let k := s.brick n
  let m := k.conf
  let i := r.out % 16
  let room := slotBytes m i
  let u : State × List OutJob := if ¬ streamOk m i true then (s, [])
    else if finishes r then
      let fits := min r.k (room / max 1 (tileSize false (formatWord m 2).stored))
      let o := s.storeOut b n (outTiles fits k.tag (List.replicate 32 (List.replicate (32 * fits) canonical32)))
      (o.1, [{ stream := i, tiles := o.2, tag := k.tag }])
    else
      let head := if r.kind = 2 then [] else (partialBytes r []).take 64
      (s, [s.plainJob n i ((head ++ nanFill (outputBytes m r - head.length)).take room)])
  u.1.putJobs b n (u.2 ++ if r.stats ∧ finishes r ∧ streamOk m (r.statsOut % 16) true
    then [u.1.plainJob n (r.statsOut % 16) (nanFill 256)] else [])

/-- Refuse the record (R290). -/
def refuseRecord (s : State) (b n : Nat) (r : WorkRecord) (code : Code) : State :=
  let kind := if r.kind ≤ 3 then r.kind else 0
  let t := (((s.releasePartials b n (r.partials % 16)).raise n [(0, flInvalid)])).count (attRefused b) 1
  let u := t.setBay b { t.bay b with
    attInfo := BitVec.ofNat 32 (code.toNat + fieldAt 16 2 kind + fieldAt 18 12 n + 2 ^ 31)
    attSeq := BitVec.ofNat 32 r.seq }
  (u.setBrick n { u.brick n with refused := true }).emitNan b n r

/-! ### The staging buffer (R294–R296) -/

/-- Copy one row of a stored tile to a row of another in the column. -/
def copyRow (s : State) (b n z src srcRow dst dstRow : Nat) : State :=
  s.writeSpace b n .column (dst + dstRow * (z / 32)) (s.readSpace b n .column (src + srcRow * (z / 32)) (z / 32))

/-- Both sides, key and value, of every dimension block. -/
def sides (k : Nat) : List (Bool × Nat) := [false, true].flatMap fun v => (List.range k).map fun c => (v, c)

/-- A flush (R295, R296): slots 0–63 into the page, the lip moved down. -/
def flushPage (s : State) (b n z : Nat) (r : WorkRecord) (page u : Nat) : State :=
  match extentFor r page with
  | none => s
  | some e =>
    let t := (sides r.k).foldl (fun (t : State) x => [0, 1].foldl (fun (t : State) blk =>
      t.writeSpace b n .column (pageTile e page r.k z ((if x.1 then 2 * r.k else 0) + 2 * x.2 + blk))
        (t.readSpace b n .column (stagingTile r z x.1 blk x.2) z)) t) s
    let v := (sides r.k).foldl (fun (t : State) x => (List.range (u - 64)).foldl (fun (t : State) i =>
      t.copyRow b n z (stagingTile r z x.1 2 x.2) i (stagingTile r z x.1 0 x.2) i) t) t
    v.count (attFlushes b) 1

/-- Token i of the record into slot u. -/
def appendToken (s : State) (b n z : Nat) (r : WorkRecord) (h : Word) (i u : Nat) : State :=
  let z0 := tileSize false (formatWord (s.brick n).conf 0).stored
  (sides r.k).foldl (fun (t : State) x =>
    let src := 256 + r.k * z0 + ((if x.1 then r.k else 0) + x.2) * z + i * (z / 32)
    t.writeSpace b n .column (stagingTile r z x.1 (u / 32) x.2 + u % 32 * (z / 32)) (t.readBuffer b n h src (z / 32))) s

/-- The update of a home ATTEND record: its events in order, then the header. -/
def updateStaging (s : State) (b n : Nat) (r : WorkRecord) (h : Word) (hd : StagingHeader) : State :=
  if ¬ r.home then s
  else
    let z := tileSize false (formatWord (s.brick n).conf 1).stored
    let c := stagingCourse r hd
    let t := c.2.foldl (fun (t : State) e => match e with
      | .token i u => t.appendToken b n z r h i u
      | .flush p u => t.flushPage b n z r p u) s
    (t.writeSpace b n .column (r.staging * 256) (stagingHeaderBytes c.1)).count (attRollback b) r.rollback

/-! ### ATTEND (R297–R300) -/

/-- The draws of one stochastic word of the score chain: one for each score of a block, on its lane; no chapter gives a
score its element index, which is a free value (log entry 61). -/
def scoreDraws (s : State) (b n : Nat) (r : WorkRecord) (pos k : Nat) : List Word × State :=
  let w := epi (s.brick n).conf k
  s.drawsFor n ((List.range (32 * r.rows)).map fun e =>
    { lane := e % 128, stream := cvtStream w, elem := s.unstatedElem b n 1 (r.seq * 2 ^ 32 + pos) e, num := epiImm w, chunk := false })

/-- The draws of every such word, word by word. -/
def allScoreDraws (s : State) (b n : Nat) (r : WorkRecord) (pos : Nat) : List (Nat × Array Word) × State :=
  (drawingWords (s.brick n).conf).foldl (fun (acc : List (Nat × Array Word) × State) k =>
    let d := acc.2.scoreDraws b n r pos k
    (acc.1 ++ [(k, d.1.toArray)], d.2)) ([], s)

/-- The scores of a block, row by row, and their flags; masked ones are −infinity. -/
def blockScores (s : State) (n : Nat) (r : WorkRecord) (blk : KeyBlock) (draws : List (Nat × Array Word)) (qs ks : List TileVals) :
    List (List Nat) × LaneFlags :=
  let k := s.brick n
  let m := k.conf
  let scale := tensorScale k (formatWord m 0) * tensorScale k (formatWord m 1) * (decodeFmt 1 r.scale.toNat).num
  let rows := (List.range r.rows).map fun i => (List.range 32).map fun t =>
    scoreOf m scale (fun j => ((draws.find? fun d => d.1 == j).map fun d => d.2.getD (32 * i + t) 0).getD 0) qs ks i t
  (rows.zipIdx.map fun x => x.1.zipIdx.map fun y => if maskedKey r blk x.2 y.2 then negInf32 else y.1.1,
    rows.zipIdx.flatMap fun x => x.1.zipIdx.map fun y => ((32 * x.2 + y.2) % 128, y.1.2))

/-- One key block: its tiles read, its scores, and every row's state. -/
def attendBlock (b n : Nat) (r : WorkRecord) (qs : List TileVals) (acc : State × List RowState) (blk : KeyBlock) :
    State × List RowState :=
  if blockMasked r blk then acc
  else
    let s := acc.1
    let m := (s.brick n).conf
    let fmt := (formatWord m 1).compute
    let ks := s.loadVals b n 1 .column blk.keys
    let vs := ks.1.loadVals b n 1 .column blk.values
    let dr := vs.1.allScoreDraws b n r blk.pos
    let sc := dr.2.blockScores n r blk dr.1 qs ks.2
    let rs := (acc.2.zip sc.1).zipIdx.map fun x => rowBlock fmt x.2 x.1.1 x.1.2 vs.2
    (dr.2.raise n (sc.2 ++ rs.flatMap (·.2)), rs.map (·.1))

/-- ATTEND. -/
def attend (s : State) (b n : Nat) (h : Word) (r : WorkRecord) : State :=
  let hd := s.headerOf b n r
  let z := tileSize false (formatWord (s.brick n).conf 1).stored
  let t := s.updateStaging b n r h hd
  let q := t.loadInputs b n 0 h 256 r.k
  let x := (keyBlocks r (headerAfter r hd) z).foldl (attendBlock b n r q.2)
    (q.1, List.replicate r.rows (rowStart r.dim))
  if r.final then x.1.emitFinal b n r x.2 else x.1.putJobs b n [x.1.plainJob n r.out (partialBytes r x.2)]

/-! ### BACKWARD (R305) -/

/-- Add a chunk to each element of gradient tiles: f j t is the chunk of row t and dimension j. -/
def addGrad (s : State) (b n : Nat) (tiles : List Nat) (f : Nat → Nat → List (Option FVal)) : State × LaneFlags :=
  tiles.zipIdx.foldl (fun (acc : State × LaneFlags) x =>
    let old := tileCodes 1 (acc.1.readSpace b n .column x.1 4096)
    let rs := old.zipIdx.map fun y =>
      sumProducts (some (decodeFmt 1 y.1) :: f (32 * x.2 + y.2 % 32) (y.2 / 32))
    (acc.1.writeSpace b n .column x.1 (tileBytes 1 (rs.map (·.code))), acc.2 ++ rs.zipIdx.map fun y => (y.2 % 128, y.1.flags))) (s, [])

/-- Row facts of a BACKWARD record: m, lse and D (R289). -/
structure BackRow where
  m : Nat
  lse : Nat
  d : Nat
  deriving DecidableEq, Repr

/-- One key block of a BACKWARD record; the accumulated dq rows go with the state. -/
def backBlock (b n : Nat) (r : WorkRecord) (qs dos : List TileVals) (facts : List BackRow)
    (acc : State × List (List Nat)) (blk : KeyBlock) : State × List (List Nat) :=
  if blockMasked r blk then acc
  else
    let s := acc.1
    let fmt := (formatWord (s.brick n).conf 0).compute
    let ks := s.loadVals b n 1 .column blk.keys
    let vs := ks.1.loadVals b n 1 .column blk.values
    let sc := vs.1.blockScores n r blk [] qs ks.2
    let rows := (sc.1.zip facts).zipIdx
    let ps := rows.map fun x => x.1.1.zipIdx.map fun y =>
      if maskedKey r blk x.2 y.2 ∨ x.1.2.m = negInf32 then ({ code := 0, flags := 0 } : Rounded) else expDiff 1 y.1 x.1.2.lse
    let rnd (c : Rounded) : Rounded := convertTo fmt .nearestEven (decodeFmt 1 c.code)
    let vals (x : List (List Rounded)) : Array (Array FVal) := (x.map fun p => (p.map fun c => decodeFmt fmt c.code).toArray).toArray
    let pr := ps.map fun p => p.map rnd
    let pc := vals pr
    let ds := (ps.zip facts).zipIdx.map fun x => x.1.1.zipIdx.map fun y =>
      let dp := foldDot dos vs.2 x.2 y.2
      let diff := sumTerms false false [decodeFmt 1 dp.1, negVal (decodeFmt 1 x.1.2.d)]
      let prod := prodVal (decodeFmt 1 y.1.code) diff.1
      let e := sumProducts [prod]
      ({ code := e.code, flags := e.flags ||| dp.2 ||| diff.2 } : Rounded)
    let dr := ds.map fun p => p.map rnd
    let dsc := vals dr
    let zero : FVal := .fin 0
    let get (a : Array (Array FVal)) (i t : Nat) : FVal := (a.getD i #[]).getD t zero
    let live (i : Nat) : Bool := (facts.map (·.m)).getD i negInf32 != negInf32
    let rowIx := (List.range r.rows).filter live
    let g1 := vs.1.addGrad b n blk.gradValues fun j t => rowIx.map fun i => prodVal (get pc i t) (wideAt dos i j)
    let dq : List (List Rounded) := acc.2.zipIdx.map fun x => x.1.zipIdx.map fun y =>
      if live x.2 then
        sumProducts (some (decodeFmt 1 y.1) :: (List.range 32).map fun t => prodVal (get dsc x.2 t) (wideAt ks.2 t y.2))
      else { code := y.1, flags := 0 }
    let g2 := g1.1.addGrad b n blk.gradKeys fun j t => rowIx.map fun i => prodVal (get dsc i t) (wideAt qs i j)
    let fl := [ps, pr, ds, dr].flatMap fun l => (l.zipIdx.filter fun x => live x.2).flatMap fun x => x.1.zipIdx.map fun y =>
      ((32 * x.2 + y.2) % 128, y.1.flags)
    let fq := dq.zipIdx.flatMap fun x => x.1.zipIdx.map fun y => ((32 * x.2 + y.2) % 128, y.1.flags)
    (g2.1.raise n (sc.2 ++ fl ++ fq ++ g1.2 ++ g2.2), dq.map fun x => x.map (·.code))

/-- BACKWARD. -/
def backward (s : State) (b n : Nat) (h : Word) (r : WorkRecord) : State :=
  let k := s.brick n
  let hd := s.headerOf b n r
  let z0 := tileSize false (formatWord k.conf 0).stored
  let z1 := tileSize false (formatWord k.conf 1).stored
  let at_ := 256 + 2 * r.k * z0
  let stats := s.readBuffer b n h at_ 512
  let facts : List BackRow := (List.range r.rows).map fun i =>
    { m := fieldLE stats (8 * i) 4, lse := fieldLE stats (8 * i + 4) 4, d := fieldLE stats (256 + 4 * i) 4 }
  let q := s.loadInputs b n 0 h 256 r.k
  let g := q.1.loadInputs b n 0 h (256 + r.k * z0) r.k
  let x := (keyBlocks r hd z1).foldl (backBlock b n r q.2 g.2 facts) (g.1, List.replicate r.rows (List.replicate r.dim 0))
  let scale := (decodeFmt 1 r.scale.toNat).num * tensorScale k (formatWord k.conf 1)
  let out := x.2.map fun row => row.map fun c => scaleScore .nearestEven scale c
  let t := x.1.raise n (out.zipIdx.flatMap fun y => y.1.zipIdx.map fun w => ((32 * y.2 + w.2) % 128, w.1.flags))
  let tiles := outTiles r.k k.tag (out.map fun y => y.map (·.code))
  t.putJobs b n [t.plainJob n r.out (tiles.flatMap fun y => tileBytes 1 y.values)]

/-! ### MERGE (R303) -/

/-- A queued partial of the record's sequence and merge. -/
def matchingPartial (s : State) (b n : Nat) (r : WorkRecord) : Option Word :=
  ((s.brick n).stream r.partials).queue.find? fun h =>
    let p := s.readBuffer b n h 0 8
    fieldLE p 0 4 == r.seq && fieldLE p 4 4 == r.mergeId

/-- One partial of every part is held. -/
def partialsWhole (k : Brick) (r : WorkRecord) : Bool := (List.range r.n).all fun p => aget [] k.partials p ≠ []

/-- Take the partials that have arrived, in order, until one of every part is held; false where one disagrees. -/
def takePartials (b n : Nat) (r : WorkRecord) : Nat → State → State × Bool
  | 0, s => (s, true)
  | fuel + 1, s =>
    match if partialsWhole (s.brick n) r then none else s.matchingPartial b n r with
    | none => (s, true)
    | some h =>
      let k := s.brick n
      let e := k.stream r.partials
      let p := s.readBuffer b n h 0 (320 + 4 * r.dim * r.rows)
      let part := fieldLE p 8 1
      let t := s.setBrick n { k.setStream r.partials { e with queue := e.queue.erase h, count := e.count + 1 }
        with partials := aput [] k.partials part p, partialHandles := k.partialHandles ++ [h] }
      if fieldLE p 9 1 + 1 ≠ r.n ∨ fieldLE p 10 1 + 1 ≠ r.rows ∨ fieldLE p 11 1 + 1 ≠ r.k ∨ r.n ≤ part
          ∨ aget [] k.partials part ≠ [] then (t, false)
      else takePartials b n r fuel t

/-- MERGE: the partials that are there are taken; while some are missing the cycles waited are counted. -/
def mergeTake (s : State) (b n : Nat) (r : WorkRecord) (cycles : Nat) : State :=
  if partialsWhole (s.brick n) r then s
  else
    let t := takePartials b n r 32 (s.count (attMergeWait b) cycles)
    if t.2 then t.1 else t.1.refuseRecord b n r eKvMerge

/-- MERGE_COMBINE: the tree of R303, and the output as of a final record. -/
def mergeAll (s : State) (b n : Nat) (r : WorkRecord) : State :=
  let k := s.brick n
  if partialsWhole k r then
    let parts := (List.range r.n).map fun p => (List.range r.rows).map (partialRow (aget [] k.partials p) r.dim)
    let c := combineTree 5 parts
    ((s.raise n c.2).releasePartials b n r.partials).emitFinal b n r c.1
  else s

/-! ### One record -/

/-- Run the record of a kind: write the outputs it still has, refuse it, or do f. -/
def onRecord (s : State) (n : Nat) (kindOk : Nat → Bool) (f : State → Nat → Word → WorkRecord → State) : State :=
  s.whileRunning n fun s b =>
    match s.workOf b n with
    | none => s
    | some (h, r) =>
      if ¬ kindOk r.kind then s
      else
        let code := recordCode (s.brick n).conf r (s.headerOf b n r)
        if ¬ (s.brick n).outJobs.isEmpty then emitJobs b n 3 s
        else if code ≠ sOk then s.refuseRecord b n r code
        else f s b h r

end State

/-- ATTEND (R290, R295–R300); a record of a reserved kind is refused here. -/
def execAttend (brick : Nat) (ecc : Ecc) (s : State) : Out :=
  .next (s.onRecord brick (fun k => k != 2 && k != 3) fun t b h r => (t.attend b brick h r).consumeEcc b brick .column 0 ecc)

/-- BACKWARD (R305). -/
def execBackward (brick : Nat) (ecc : Ecc) (s : State) : Out :=
  .next (s.onRecord brick (· == 2) fun t b h r => (t.backward b brick h r).consumeEcc b brick .column 0 ecc)

/-- MERGE (R303). -/
def execMerge (brick cycles : Nat) (s : State) (ecc : Ecc := .clean) : Out :=
  .next (s.onRecord brick (· == 3) fun t b h r =>
    let p := (t.matchingPartial b brick r).getD h
    (t.mergeTake b brick r cycles).consumeEcc b brick (handleSpace p) (handleAddr p * 256) ecc)

/-- MERGE_COMBINE (R303). -/
def execMergeCombine (brick : Nat) (s : State) : Out :=
  .next (s.onRecord brick (· == 3) fun t b _ r => t.mergeAll b brick r)

end Sys2Proof.Machine
end

