-- ==== Sys2Proof/Machine/FootingImage.lean ====
section
/-!
DEFINITION. Footing images (R450–R454): the directory, the records, the fields and their ranges, and the ten steps of
verification; and firmware images (R449).
-/
namespace Sys2Proof.Machine

/-! ### The flash (R447, R448) -/

abbrev mib : Nat := 1048576

/-- Bytes of a Footing slot on a flash of a size in MiB. -/
def slotSize (m : Nat) : Nat := (m - 64) * mib / 2
def footingBase (m : Nat) (b : Bool) : Nat := 64 * mib + (if b then slotSize m else 0)
def firmwareBase (b : Bool) : Nat := if b then 32 * mib else mib

def flashBytes (flash : Memory) (at_ n : Nat) : Bytes := aread 0xFF flash at_ n

/-! ### Firmware images (R449) -/

/-- The verification of a firmware slot: its code, its svn, and the digests of both bodies. -/
def firmwareCheck (flash : Memory) (b : Bool) : Code × Nat × Bytes × Bytes :=
  let h := flashBytes flash (firmwareBase b) 128
  let size := fieldLE h 12 4
  let co := fieldLE h 16 4
  let cs := fieldLE h 20 4
  let mo := fieldLE h 24 4
  let ms := fieldLE h 28 4
  let bad := fieldLE h 0 4 ≠ 0x57464747 ∨ fieldLE h 4 2 ≠ 1 ∨ fieldLE h 6 2 ≠ 0x4E47 ∨ size < 256 ∨ 31 * mib < size
    ∨ ¬ allZero (slice h 32 96) ∨ co < 128 ∨ size - 128 < co + cs ∨ mo < 128 ∨ size - 128 < mo + ms
  if bad then (eFirmware, 0, [], [])
  else
    let img := flashBytes flash (firmwareBase b) size
    let sig := img.drop (size - 128)
    if allZero (sig.drop 114) && edVerify Config.rootKey "Gnolis firmware" (digest (img.take (size - 128))) (sig.take 114) then
      (sOk, fieldLE h 8 4, digest (slice img co cs), digest (slice img mo ms))
    else (eSignature, 0, [], [])

/-! ### Records (R453) -/

/-- A section's records: id and value. -/
def parseRecords : Nat → Bytes → Option (List (Nat × Bytes))
  | _, [] => some []
  | 0, _ :: _ => none
  | n + 1, b =>
    let len := fieldLE b 2 4
    if b.length < 6 + len then none
    else (parseRecords n (b.drop (6 + len))).map fun l => (fieldLE b 0 2, slice b 6 len) :: l

/-- Bytes of a table field's index; none for a field that appears once. -/
def tableIndex (id : Nat) : Option Nat :=
  if [0x0202, 0x0302, 0x0401, 0x0402, 0x0403, 0x0501, 0x0601, 0x0702, 0x0807].contains id then some 1
  else if id = 0x0804 ∨ id = 0x0805 then some 2
  else if id = 0x0901 then some 4
  else none

def recVal (rs : List (Nat × Bytes)) (id : Nat) : Bytes := ((rs.find? fun x => x.1 == id).map (·.2)).getD []
def recVals (rs : List (Nat × Bytes)) (id : Nat) : List Bytes := (rs.filter fun x => x.1 == id).map (·.2)

def isFlag (n : Nat) : Bool := n ≤ 1

/-- A bay record (R453) as a plan. -/
def bayOfRecord (v : Bytes) : Nat × BayPlan :=
  let n := fieldLE v 2 1
  (fieldLE v 0 1,
   { role := fieldLE v 1 1
     rects := (List.range n).map fun i =>
       let b := 48 + 4 * i
       { die := nbits (fieldLE v b 1) 5 2, row := nbits (fieldLE v b 1) 0 5, col := fieldLE v (b + 1) 1
         rows := fieldLE v (b + 2) 1 + 1, cols := fieldLE v (b + 3) 1 + 1 }
     base := fieldLE v 4 2, swapWaitLimit := fieldLE v 6 2, clayQuota := fieldLE v 8 4, loamQuota := fieldLE v 12 8
     marlQuota := fieldLE v 20 8, hodFirst := fieldLE v 28 2, hodCount := fieldLE v 30 1
     streamFirst := BitVec.ofNat 32 (fieldLE v 32 4), streamCount := fieldLE v 36 4, seed := BitVec.ofNat 64 (fieldLE v 40 8) })

/-- Length, reserved bytes and bit 7 of the rectangles of a bay record. -/
def bayRecordBad (v : Bytes) : Bool :=
  v.length < 48 || v.length != 48 + 4 * fieldLE v 2 1 || 64 ≤ fieldLE v 0 1 || fieldLE v 3 1 != 0 || fieldLE v 31 1 != 0
    || (List.range (fieldLE v 2 1)).any (fun i => 128 ≤ fieldLE v (48 + 4 * i) 1) || planBad (bayOfRecord v).2

/-- A channel record. -/
def channelBad (v : Bytes) : Bool :=
  let p := fieldLE v 1 1
  v.length < 8 || v.length != 8 + 20 * p || 32 ≤ fieldLE v 0 1 || 8 < p || fieldLE v 2 2 != 0 || 16 ≤ fieldLE v 4 4
    || (List.range p).any fun i => 128 < fieldLE v (8 + 20 * i + 16) 1 || fieldLE v (8 + 20 * i + 17) 1 != 0

/-- A field's length or a value of its own outside its range (R453 and the rules it names). -/
def fieldBad (id : Nat) (v : Bytes) : Bool :=
  let f (at_ n : Nat) : Nat := fieldLE v at_ n
  match id with
  | 0x0101 => v.length != 3 || (List.range 3).any (fun i => 32 ≤ f i 1) || 16384 < (f 0 1 + 1) * (f 1 1 + 1) * (f 2 1 + 1)
  | 0x0102 | 0x0103 => v.length != 1 || !isFlag (f 0 1)
  | 0x0104 => v.length != 2
  | 0x0105 => v.length != 2 || f 0 2 == 0 || 3600 < f 0 2
  | 0x0106 => v.length != 1 || f 0 1 < 10 || 24 < f 0 1
  | 0x0107 => v.length != 4
  | 0x0201 => v.length != 3
  | 0x0202 => v.length != 5 || 16 ≤ f 0 1 || 9 ≤ f 1 1 || !isFlag (f 2 1) || 16384 + 64 ≤ f 3 2
  | 0x0203 => v.length != 8 || 3 ≤ f 0 1 || !isFlag (f 1 1) || f 7 1 != 0
      || (List.range 4).any fun i => 16 ≤ f (3 + i) 1 && f (3 + i) 1 != 0xFF
  | 0x0204 => v.length != 6 || 2 ^ 20 ≤ f 2 4
  | 0x0301 => v.length != 36 || 128 < f 16 1 || f 17 1 != 0
  | 0x0302 => v.length != 34 || 2 ≤ f 0 1 || 128 < f 17 1
  | 0x0303 => v.length != 2
  | 0x0401 => v.length != 58 || 16 ≤ f 0 1
  | 0x0402 => v.length != 58 || f 0 1 == 0 || 4 < f 0 1
  | 0x0403 => v.length != 58
  | 0x0501 => bayRecordBad v
  | 0x0601 => channelBad v
  | 0x0701 => v.length != 24 || !isFlag (f 0 1) || f 1 1 == 0 || 8 < f 1 1 || f 2 2 != 0
  | 0x0702 => v.length != 132 || 16 ≤ f 0 1 || (16 ≤ f 1 1 && f 1 1 != 0xFF) || (64 ≤ f 2 1 && f 2 1 != 0xFF) || f 3 1 != 0
      || 1048576 < f 16 4
  | 0x0801 => v.length != 3
  | 0x0802 => v.length != 36 || f 14 2 != 0
  | 0x0803 => v.length != 80 || f 19 1 != 0 || f 78 2 != 0
  | 0x0804 => v.length != 36 || 64 ≤ f 2 1 || f 3 1 == 0 || 7 < f 3 1
  | 0x0805 => v.length != 68 || 64 ≤ f 2 1 || f 3 1 == 0 || 3 < f 3 1
  | 0x0806 => v.length != 24 || f 20 4 != 0
  | 0x0807 => v.length != 4 || 8 ≤ f 0 1 || 64 ≤ f 1 1 || f 2 2 != 0
  | 0x0901 => v.length < 8 || f 4 4 != 0
  | _ => true

/-- Two neighbouring records stand in order: ids ascend, and the indices of one table ascend. -/
def inOrder (a b : Nat × Bytes) : Bool :=
  a.1 < b.1 || (a.1 == b.1 && match tableIndex a.1 with
    | some n => fieldLE a.2 0 n < fieldLE b.2 0 n
    | none => false)

def recordsOrdered : List (Nat × Bytes) → Bool
  | a :: b :: rest => inOrder a b && recordsOrdered (b :: rest)
  | _ => true

/-- The fields a section must hold, with how many records: exactly once each, and the tables of fixed length. -/
def requiredFields : Nat → List (Nat × Nat × Nat)
  | 1 => (List.range 7).map fun i => (0x0101 + i, 1, 1)
  | 2 => [(0x0201, 1, 1), (0x0202, 16, 16), (0x0203, 1, 1), (0x0204, 1, 1)]
  | 3 => [(0x0301, 1, 1), (0x0302, 2, 2), (0x0303, 1, 1)]
  | 4 => [(0x0401, 1, 16), (0x0402, 0, 4), (0x0403, 0, 256)]
  | 5 => [(0x0501, 0, 64)]
  | 6 => [(0x0601, 0, 32)]
  | 7 => [(0x0701, 1, 1), (0x0702, 0, 16)]
  | 8 => [(0x0801, 1, 1), (0x0802, 1, 1), (0x0803, 1, 1), (0x0806, 1, 1)]
  | _ => []

/-- Step 6 on one section's records. -/
def sectionBad (typ : Nat) (rs : List (Nat × Bytes)) : Bool :=
  rs.any (fun r => r.1 / 256 != typ || fieldBad r.1 r.2) || !recordsOrdered rs
    || (requiredFields typ).any fun q => let n := (recVals rs q.1).length; n < q.2.1 || q.2.2 < n

/-! ### The fields as a Footing -/

def addrOf (v : Bytes) (at_ : Nat) : Nat := beNat (slice v at_ 16)

def trainOf (v : Bytes) : TrainPlan :=
  let f (at_ n : Nat) : Nat := fieldLE v at_ n
  { enable := f 0 1 == 1, ex := f 1 1, ey := f 2 1, ez := f 3 1, t := f 4 1, p := f 5 2, d := f 7 2, micro := f 9 2
    tagBits := f 11 1, ahead := f 12 1, ckpt := f 13 1 == 1, buddySectors := f 16 8, ckptTimeout := f 24 4, firstStep := f 28 8 }

def turnOf (v : Bytes) : TurnPlan :=
  let f (at_ n : Nat) : Nat := fieldLE v at_ n
  { enable := f 0 1 == 1, firstTurn := f 1 8, turnBay := f 9 1, scoreBays := BitVec.ofNat 64 (f 10 8), rewardSlots := f 18 1
    stepsPerTurn := f 20 2, seqPerMb := f 22 2, phaseLead := f 24 4, genLimit := f 28 4, scoreLimit := f 32 4
    learnLimit := f 36 4, redistLimit := f 40 4, genLayout := slice v 44 32, slotDelta := f 76 2 }

def modelOf (v : Bytes) : Nat × ModelSlot :=
  let f (at_ n : Nat) : Nat := fieldLE v at_ n
  (f 0 1, { draft := f 1 1, draftBay := f 2 1, bays := BitVec.ofNat 64 (f 4 8), vocab := f 12 4, context := f 16 4
            depths := (List.range 8).map fun c => f (20 + 2 * c) 2, weights := slice v 36 32, header := slice v 68 32
            layout := slice v 100 32 })

def channelOfRecord (v : Bytes) : Nat × Channel :=
  (fieldLE v 0 1, { kinds := BitVec.ofNat 32 (fieldLE v 4 4), prefixes := (List.range (fieldLE v 1 1)).map fun i =>
    (addrOf v (8 + 20 * i), fieldLE v (24 + 20 * i) 1, fieldLE v (26 + 20 * i) 2) })

/-- The Footing of an image's records, section 1 first; what a spare's coordinates field means is taken in at boot. -/
def footingOf (rs : List (Nat × Bytes)) : Footing :=
  let f (id at_ n : Nat) : Nat := fieldLE (recVal rs id) at_ n
  { present := true
    ex := f 0x0101 0 1 + 1, ey := f 0x0101 1 1 + 1, ez := f 0x0101 2 1 + 1
    cairns := f 0x0102 0 1 == 1, confidential := f 0x0103 0 1 == 1, treeRoot := f 0x0104 0 2, holdover := f 0x0105 0 2
    leadLog2 := f 0x0106 0 1, minSvn := f 0x0107 0 4
    coordX := f 0x0201 0 1, coordY := f 0x0201 1 1, coordZ := f 0x0201 2 1
    ports := arun {} 0 ((List.range 16).map fun p =>
      match (recVals rs 0x0202).find? fun v => fieldLE v 0 1 == p with
      | some v => { role := fieldLE v 1 1, outer := fieldLE v 2 1 == 1, aux := fieldLE v 3 2 }
      | none => {})
    timeSource := f 0x0203 0 1, ptpEthernet := f 0x0203 1 1 == 1, ptpDomain := f 0x0203 2 1
    upstreams := ((List.range 4).map fun i => f 0x0203 (3 + i) 1).filter (· ≠ 0xFF)
    dramRate := f 0x0204 0 2, dramExpect := f 0x0204 2 4
    mgmtAddr := addrOf (recVal rs 0x0301) 0, mgmtPrefix := f 0x0301 16 1, mgmtGateway := addrOf (recVal rs 0x0301) 18
    mgmtTcp := f 0x0301 34 2
    service := (recVals rs 0x0302).map fun v => (addrOf v 1, fieldLE v 17 1, addrOf v 18)
    svcUdp := f 0x0303 0 2
    operators := (recVals rs 0x0401).map fun v => (fieldLE v 0 1, v.drop 1)
    signers := (recVals rs 0x0402).map fun v => (fieldLE v 0 1, v.drop 1)
    clients := (recVals rs 0x0403).map fun v => (fieldLE v 0 1, v.drop 1)
    bays := (recVals rs 0x0501).map bayOfRecord
    channels := (recVals rs 0x0601).map channelOfRecord, hasEgress := !(recVals rs 0x0601).isEmpty
    clientAuth := f 0x0701 0 1 == 1, specDepth := f 0x0701 1 1, idleTicks := f 0x0701 4 4, retainTicks := f 0x0701 8 4
    svcHi := f 0x0701 12 4, svcLo := f 0x0701 16 4, svcHold := f 0x0701 20 4
    models := (recVals rs 0x0702).map modelOf
    originX := f 0x0801 0 1, originY := f 0x0801 1 1, originZ := f 0x0801 2 1
    train := trainOf (recVal rs 0x0802), turn := turnOf (recVal rs 0x0803)
    bonds := (recVals rs 0x0804).map fun v => (fieldLE v 0 2, fieldLE v 2 1, fieldLE v 3 1, slice v 4 32)
    images := (recVals rs 0x0805).map fun v => (fieldLE v 0 2, fieldLE v 2 1, fieldLE v 3 1, slice v 4 32, slice v 36 32)
    storageAddr := addrOf (recVal rs 0x0806) 0, storageUdp := f 0x0806 16 2, seedDevice := f 0x0806 18 2
    hasStorage := !(recVals rs 0x0806).isEmpty
    rewards := (recVals rs 0x0807).map fun v => (fieldLE v 0 1, fieldLE v 1 1)
    bundle := (recVals rs 0x0901).map fun v => (fieldLE v 0 4, v.drop 8) }

/-! ### Rules across fields (steps 6–10 of R454) -/

/-- A spare's coordinates field (R413). -/
def isSpareImage (f : Footing) : Bool := f.coordX == 0xFF && f.coordY == 0xFF

/-- Step 6 across fields: coordinates below the extents, or a cairn's number on a spare; the tree root a device; job
origin below the extents; only auxiliary ports and a spare's standby ports name a peer (R400). -/
def crossBad (f : Footing) (job : Bool) : Bool :=
  let cairns := f.ex / 2 * (f.ey / 2) * (f.ez / 2)
  (if isSpareImage f then cairns ≤ f.coordZ else f.ex ≤ f.coordX || f.ey ≤ f.coordY || f.ez ≤ f.coordZ)
    || f.ex * f.ey * f.ez ≤ f.treeRoot
    || (job && (f.ex ≤ f.originX || f.ey ≤ f.originY || f.ez ≤ f.originZ))
    || f.ports.any fun p => p.2.aux != 0 && !(p.2.role == 8 || (isSpareImage f && p.2.role == 7))

/-- R314. -/
def trainBad (v : Bytes) : Bool :=
  let t := trainOf v
  let e := t.ex * t.ey * t.ez
  if v.isEmpty then false
  else if fieldLE v 0 1 = 0 then v.any (· != 0)
  else
    fieldLE v 0 1 != 1 || 1 < fieldLE v 13 1 || [t.ex, t.ey, t.ez].any (fun x => x == 0 || 32 < x)
      || t.t == 0 || 8 < t.t || t.p == 0 || 256 < t.p || t.d == 0 || 16384 < t.d || t.micro == 0 || 4096 < t.micro
      || 4 < t.tagBits || t.micro < 2 ^ t.tagBits || 15 < t.ahead || t.ckptTimeout == 0 || 2 ^ 24 < t.ckptTimeout
      || t.firstStep == 0 || (if t.ckpt then t.buddySectors % 2 != 0 else t.buddySectors != 0)
      || t.t * t.p * t.d != e || !(t.ex % t.t == 0 || (t.t % t.ex == 0 && t.ex * t.ey % t.t == 0))
      || (t.ckpt && t.t * t.p * t.d == 1)

/-- R340, for the generator bonds whose image the bundle holds. -/
def turnBad (v : Bytes) (f : Footing) : Bool :=
  let t := turnOf v
  if v.isEmpty then false
  else if fieldLE v 0 1 = 0 then v.any (· != 0)
  else
    fieldLE v 0 1 != 1 || t.firstTurn == 0 || 64 ≤ t.turnBay || t.rewardSlots == 0 || 8 < t.rewardSlots
      || t.stepsPerTurn == 0 || 4096 < t.stepsPerTurn || t.seqPerMb == 0 || 4096 < t.seqPerMb
      || t.phaseLead < 2 ^ 11 || 2 ^ 20 < t.phaseLead
      || [t.genLimit, t.scoreLimit, t.learnLimit, t.redistLimit].any (fun x => x == 0 || 2 ^ 30 < x)
      || t.slotDelta == 0 || 4095 < t.slotDelta || t.scoreBays.getLsbD t.turnBay || !f.train.enable
      || f.bonds.any fun b => b.2.2.1 == 1 && f.bundle.any fun o =>
          fieldLE o.2 0 4 == bondMagic && bondDigest (bondGeom o.2) o.2 == b.2.2.2 && slice o.2 64 32 != t.genLayout

/-- R400 and R413. -/
def rolesBad (f : Footing) : Bool :=
  let role (p : Nat) : Nat := (aget {} f.ports p).role
  let countIn (r member : Nat) : Nat := ((List.range 8).filter fun i => role (8 * member + i) == r).length
  let extent (axis : Nat) : Nat := if axis = 0 then f.ex else if axis = 1 then f.ey else f.ez
  (f.cairns && (512 < f.ex * f.ey * f.ez || f.ex % 2 != 0 || f.ey % 2 != 0 || f.ez % 2 != 0))
    || (if isSpareImage f then !f.cairns || (List.range 16).any fun p => !(role p == 0 || role p == 7)
        else
          (List.range 6).any (fun i => [0, 1].any fun m =>
            let n := countIn (i + 1) m
            if extent (i / 2) = 1 then n != 0 else n == 0 || 2 < n)
          || (!f.cairns && (List.range 16).any fun p => role p == 7))

/-- Sectors of the Loam that Footing expects, less the buddy region (R248, R331; log entry 76). -/
def expectedLoam (f : Footing) : Nat :=
  ((List.range 20).filter fun n => f.dramExpect.testBit n).length * 1207959552
    - (if f.train.enable && f.train.ckpt && !isSpareImage f then f.train.buddySectors else 0)

/-- Step 10: rectangles, hod ranges, quota sums, svc_lo below svc_hi, egress in confidential mode. -/
def plansCode (f : Footing) (serve : Bool) (marl : Nat) : Code :=
  let plans := f.bays.map (·.2)
  if anyOverlap (plans.flatMap (·.rects)) then eBayOverlap
  else if (List.range plans.length).any fun i => (plans.drop (i + 1)).any (hodOverlap (plans.getD i {})) then eBayOverlap
  else if 16777216 < (plans.map (·.clayQuota)).sum ∨ expectedLoam f < (plans.map (·.loamQuota)).sum
      ∨ marl < (plans.map (·.marlQuota)).sum then eQuota
  else if serve ∧ f.svcHi ≤ f.svcLo then eBadField
  else if f.confidential ∧ f.channels.isEmpty then eBadField
  else sOk

/-! ### Verification (R454) -/

/-- Directory entry i of an image: type, scope, offset, length. -/
def dirEntry (img : Bytes) (i : Nat) : Nat × Nat × Nat × Nat :=
  let b := 128 + 16 * i
  (fieldLE img b 1, fieldLE img (b + 1) 1, fieldLE img (b + 4) 4, fieldLE img (b + 8) 4)

/-- The scope of a section type (R451): system-wide but for DEVICE and NETWORK. -/
def scopeOf (t : Nat) : Nat := if t = 2 ∨ t = 3 then 0 else 1

/-- Sections contiguous, in directory order. -/
def contiguous : Nat → List (Nat × Nat × Nat × Nat) → Bool
  | _, [] => true
  | a, e :: rest => e.2.2.1 == a && contiguous (a + e.2.2.2) rest

def ascendingTypes : List (Nat × Nat × Nat × Nat) → Bool
  | a :: b :: rest => a.1 < b.1 && ascendingTypes (b :: rest)
  | _ => true

/-- The digest of the system-wide sections (R452). -/
def systemDigestOf (secs : List (Nat × Bytes)) : Bytes :=
  digest ((secs.filter fun x => scopeOf x.1 == 1).flatMap fun x => leBytes 1 x.1 ++ leBytes 4 x.2.length ++ x.2)

/-- Verification of a Footing slot: the code of the first failing step, and the Footing it holds; marl is the Type 3 capacity
known (log entry 123). -/
def footingCheck (flash : Memory) (m : Nat) (b : Bool) (marl : Nat) : Code × Footing :=
  let base := footingBase m b
  let h := flashBytes flash base 128
  let n := fieldLE h 12 4
  let size := fieldLE h 24 8
  let small := 5 ≤ n && n ≤ 9
  let dirs := if small then flashBytes flash base (128 + 16 * n) else h
  let entries := if small then (List.range n).map (dirEntry dirs) else []
  let dirZero := !small || (List.range n).all fun i => fieldLE dirs (130 + 16 * i) 2 == 0 && fieldLE dirs (140 + 16 * i) 4 == 0
  if fieldLE h 0 4 ≠ 0x47544647 ∨ fieldLE h 4 2 ≠ 1 ∨ fieldLE h 6 2 ≠ 128 ∨ fieldLE h 11 1 ≠ 0 ∨ ¬ allZero (slice h 64 64)
      ∨ ¬ dirZero then (eFooting, {})
  else if fieldLE h 8 2 ≠ 0x4E47 ∨ fieldLE h 10 1 ≠ 0x11 then (eBondTarget, {})
  else if ¬ small ∨ slotSize m < size ∨ ¬ contiguous (128 + 16 * n) entries
      ∨ size ≠ 256 + 16 * n + (entries.map (·.2.2.2)).sum then (eBadLength, {})
  else
    let img := flashBytes flash base size
    let secs := entries.map fun e => (e.1, slice img e.2.2.1 e.2.2.2)
    let parsed := secs.map fun x => (x.1, parseRecords (x.2.length + 1) x.2)
    let sig := img.drop (size - 128)
    let signed := img.take (size - 128)
    if parsed.any (·.2.isNone) then (eBadLength, {})
    else if ¬ (allZero (sig.drop 114) && edVerify Config.ownerKey "Gnolis footing" (digest signed) (sig.take 114)) then (eSignature, {})
    else if systemDigestOf secs ≠ slice h 32 32 ∨ ¬ ascendingTypes entries ∨ entries.any (fun e => e.2.1 != scopeOf e.1)
        ∨ ¬ [1, 2, 3, 4, 5].all fun t => entries.any fun e => e.1 == t then (eFooting, {})
    else
      let rs := parsed.flatMap fun x => x.2.getD []
      let has (t : Nat) : Bool := entries.any fun e => e.1 == t
      let f : Footing := { footingOf rs with generation := fieldLE h 16 8, digest := digest signed, systemDigest := slice h 32 32 }
      let badTypes := entries.any fun (e : Nat × Nat × Nat × Nat) => e.1 == 0 || decide (9 < e.1)
      let badSections := parsed.any fun (x : Nat × Option (List (Nat × Bytes))) => sectionBad x.1 (x.2.getD [])
      if badTypes ∨ f.generation = 0 ∨ badSections ∨ crossBad f (has 8) then (eBadField, {})
      else if trainBad (recVal rs 0x0802) then (ePlanAxes, {})
      else if turnBad (recVal rs 0x0803) f then (eTurnPlan, {})
      else if rolesBad f then (eLinkRoles, {})
      else if plansCode f (has 7) marl ≠ sOk then (plansCode f (has 7) marl, {})
      else (sOk, f)

end Sys2Proof.Machine
end

