-- ==== Sys2Proof/Machine/MemUnits.lean ====
section
/-!
DEFINITION. The memory units (11_memory_interfaces.md): bringing DDR channels and CXL ports into service (R268–R271,
R279, R280), what a running unit reports (R271, R272, R275, R276, R282).
-/
namespace Sys2Proof.Machine
namespace State

/-- Sectors of a module (R268). -/
abbrev moduleSectors : Nat := 1207959552

/-- The data rate every channel runs at (R269): the largest supported one that Footing and every populated
module's SPD allow, as KD_CH_STATUS shows it. -/
def ddrRate (s : State) (rs : List DdrResult) : Nat :=
  let low := (rs.filter (·.present)).foldl (fun m r => min m r.spdRate) s.footing.dramRate
  if 12800 ≤ low then 3 else if 10400 ≤ low then 2 else if 8800 ≤ low then 1 else 0

/-- A channel's state after training (R270). -/
def ddrChannel (expected : Bool) (rate : Nat) (r : DdrResult) : MemUnit :=
  if !expected then {}
  else if r.present && r.sidebandOk && r.trained && rate != 0 then
    { state := .inService, rate := rate, capacity := moduleSectors }
  else { state := .mappedOut, cause := if r.present && !r.sidebandOk then 6 else 1 }

/-- Reserve the buddy region in equal shares on the channels in service (R331), or on a spare the 16 mirror slots
(R481): a slot takes the same run of sectors on each. -/
def reserveShares (s : State) : State :=
  let u := s.inService .loam
  if u.isEmpty then s
  else if s.system.spare then
    if s.footing.cairns ∧ s.footing.train.enable then
      { s with ckpt := { s.ckpt with shares := u, kept := List.range 16, slotSize := moduleSectors / 16 } }
    else s
  else if s.footing.train.enable ∧ s.footing.train.ckpt then
    { s with ckpt := { s.ckpt with
        shares := u, kept := [0, 1], slotSize := (s.footing.train.buddySectors / 2 + u.length - 1) / u.length, state := 1 } }
  else s

/-- DDR training ends: every channel that is not mapped out already takes its state, and the buddy region is reserved. -/
def ddrDone (s : State) (rs : List DdrResult) : State :=
  let rate := s.ddrRate rs
  let t := (List.range 20).foldl (fun x u =>
    let r := rs.getD u { present := false, spdRate := 0, sidebandOk := false, trained := false }
    let v := s.unit u
    let w := ddrChannel (s.footing.dramExpect.testBit u) rate r
    if v.state = .mappedOut then x
    else x.setUnit u { v with state := w.state, cause := w.cause, rate := w.rate, capacity := w.capacity }) s
  { t with boot := { t.boot with ddrDone := true } }.reserveShares

/-- A CXL port after link-up (R279, R280): the cause it is mapped out with, 0 where nothing speaks against it; the
decoder of step 3 is Mortar's. -/
def cxlCause (mortar : Bool) (f : CxlResult) : Nat :=
  if !f.flit256 || f.width < 8 then 1
  else if !f.configOk || !f.memCapable || f.cacheCapable || (mortar && !f.decoderOk) then 6
  else 0

/-- Bring-up of a CXL port as far as it goes: the firmware's steps 1 and 2, which discover the capacity, and from
Mortar's start the steps 3 and 4 as well. -/
def cxlUp (s : State) (u : Nat) (f : CxlResult) : State :=
  if !f.linkUp then s.setUnit u {}
  else if cxlCause s.boot.mortar f ≠ 0 then s.mapOut u (cxlCause s.boot.mortar f)
  else if !f.memoryActive ∨ !s.boot.mortar then s.setUnit u { (s.unit u) with found := min f.volatileSectors (2 ^ 34) }
  else
    let width := if 16 ≤ f.width then 16 else 8
    let t := s.setUnit u { (s.unit u) with
      state := .inService, rate := if f.rate64 then 2 else 1, width := width
      capacity := min f.volatileSectors (2 ^ 34), found := min f.volatileSectors (2 ^ 34) }
    if !f.rate64 ∨ width ≠ 16 then t.degrade 6 (ksSource (unitSouth u)) sOk u else t

def unitServes (s : State) (u : Nat) : Bool := (s.unit u).state == .inService

/-- The unit is in service, or on its way there. -/
def unitLives (s : State) (u : Nat) : Bool := s.unitServes u || (s.unit u).state == .training

/-- A violation on a CXL port (class 1), and the 16th timeout or poison since the last census tick (R282). -/
def cxlViolation (s : State) (u counter : Nat) : State :=
  let v := s.unit u
  let t := (s.setUnit u { v with violations := v.violations + 1 }).partner counter (ksSource (unitSouth u)) sOk
    (BitVec.ofNat 32 u)
  if 16 ≤ v.violations + 1 then t.mapOut u 2 else t

/-- The current read of a movement from a unit is spoilt. -/
def spoilRead (s : State) (u seq : Nat) : State :=
  s.withMove seq fun t c o => if sourceUnit c o = some u then t.setTierCmd { c with badReads := c.badReads + 1 } else t

/-- A module's temperature in quarter degrees (R272). -/
def ddrTemp (s : State) (u : Nat) (q : Int) : State :=
  let v := s.unit u
  let t := s.setUnit u { v with temp := q, hot := 340 ≤ q, throttled := 380 ≤ q }
  if 420 ≤ q then t.mapOut u 5
  else if 380 ≤ q ∧ !v.throttled then t.alarm 5 sOk (BitVec.ofNat 32 u)
  else t

end State

/-- DDR_TRAINING_DONE (R269–R271). -/
def execDdrTrainingDone (results : List DdrResult) (s : State) : Out :=
  .next (if s.awake ∧ s.boot.mortar ∧ ¬ s.boot.ddrDone then s.ddrDone results else s)

/-- DQS_OSCILLATOR_READ (R271): the third large drift in a row starts a full retrain. -/
def execDqsOscillatorRead (unit : Nat) (overLimit : Bool) (s : State) : Out :=
  .next (if s.awake ∧ s.unitServes unit ∧ ¬ (s.unit unit).held then
      let v := s.unit unit
      if !overLimit then s.setUnit unit { v with drift := 0 }
      else if v.drift < 2 then s.setUnit unit { v with drift := v.drift + 1 }
      else (s.setUnit unit { v with drift := 0, held := true }).count (chRetrain unit) 1
    else s)

/-- DDR_RETRAIN_DONE (R271). -/
def execDdrRetrainDone (unit : Nat) (ok : Bool) (s : State) : Out :=
  .next (if s.awake ∧ s.unitServes unit ∧ (s.unit unit).held then
      let t := s.setUnit unit { (s.unit unit) with held := false }
      if ok then t else t.mapOut unit 1
    else s)

/-- MODULE_TEMP_READ (R272). -/
def execModuleTempRead (unit : Nat) (quarterDegrees : Int) (s : State) : Out :=
  .next (if s.awake ∧ s.unitLives unit then s.ddrTemp unit quarterDegrees else s)

/-- DDR_ALERT (R275): each alert for one command is answered by a replay or a repeat; the fifth maps the channel
out. -/
def execDdrAlert (unit : Nat) (_writeCrc : Bool) (alerts : Nat) (s : State) : Out :=
  .next (if s.awake ∧ s.unitServes unit then
      let t := s.count (errCount 1) (min alerts 5)
      if 5 ≤ alerts then t.mapOut unit 1 else t
    else s)

/-- I3C_TRANSFER (R276): failures of one transfer, at most three retries; an ABSENT channel's are counted too. -/
def execI3cTransfer (unit failures : Nat) (s : State) : Out :=
  .next (if s.awake ∧ unit < 20 ∧ (s.unit unit).state ≠ .mappedOut then
      let t := s.count (chI3cErr unit) (min failures 4)
      if 4 ≤ failures then t.mapOut unit 6 else t
    else s)

/-- PMIC_INTERRUPT (R276). -/
def execPmicInterrupt (unit : Nat) (fault : Bool) (s : State) : Out :=
  .next (if s.awake ∧ fault then s.mapOut unit 4 else s)

/-- CXL_BRINGUP (R279, R280): from the firmware's verification on, when the ports enter TRAINING. -/
def execCxlBringup (unit : Nat) (facts : CxlResult) (s : State) : Out :=
  .next (if s.awake ∧ (s.unit unit).state = .training then s.cxlUp unit facts else s)

/-- MEMORY_ACTIVE_TIMEOUT (R280). -/
def execMemoryActiveTimeout (unit : Nat) (s : State) : Out :=
  .next (if s.awake ∧ (s.unit unit).state = .training then s.mapOut unit 6 else s)

/-- CXL_READ_TIMEOUT (R282): counted, and the movement's read is uncorrectable. -/
def execCxlReadTimeout (unit seq : Nat) (s : State) : Out :=
  .next (if s.awake ∧ s.unitServes unit then (s.spoilRead unit seq).cxlViolation unit (cxTimeout (unit - 32)) else s)

/-- CXL_WRITE_TIMEOUT (R282): counted, and the movement ends with E_TIER_IO. -/
def execCxlWriteTimeout (unit seq : Nat) (s : State) : Out :=
  .next (if s.awake ∧ s.unitServes unit then
      let t := s.withMove seq fun t c _ => if State.onUnit unit c.map c.mapLoc then t.abortCmd c eTierIo else t
      t.cxlViolation unit (cxTimeout (unit - 32))
    else s)

/-- CXL_RESPONSE (R282). -/
def execCxlResponse (unit : Nat) (kind : CxlKind) (seq : Nat) (s : State) : Out :=
  .next (if s.awake ∧ s.unitLives unit then
      match kind with
      | .readData true => (s.spoilRead unit seq).cxlViolation unit (cxPoison (unit - 32))
      | .readData false | .writeDone => s
      | .unknownTag | .malformed =>
        s.partner (cxIoErr (unit - 32)) (ksSource (State.unitSouth unit)) sOk (BitVec.ofNat 32 unit)
    else s)

/-- CXL_RECOVERY_ENTRY (R282): requests are held; the 16th entry since the last census tick maps the port out. -/
def execCxlRecoveryEntry (unit : Nat) (s : State) : Out :=
  .next (if s.awake ∧ s.unitLives unit then
      let v := s.unit unit
      let t := (s.setUnit unit { v with held := true, recoveries := v.recoveries + 1 }).partner
        (cxRecovery (unit - 32)) (ksSource (State.unitSouth unit)) sOk (BitVec.ofNat 32 unit)
      if 16 ≤ v.recoveries + 1 then t.mapOut unit 5 else t
    else s)

/-- CXL_LINK_DOWN_TIMEOUT (R282). -/
def execCxlLinkDownTimeout (unit : Nat) (s : State) : Out :=
  .next (if s.awake ∧ s.unitLives unit ∧ (s.unit unit).linkDown then s.mapOut unit 5 else s)

/-- CXL_FATAL_ERROR (R282). -/
def execCxlFatalError (unit : Nat) (s : State) : Out := .next (if s.awake then s.mapOut unit 4 else s)

/-- CXL_LINK_DOWN (R282). -/
def execCxlLinkDown (unit : Nat) (s : State) : Out :=
  .next (if s.awake ∧ s.unitLives unit then s.setUnit unit { (s.unit unit) with held := true, linkDown := true } else s)

/-- CXL_RECOVERY_EXIT (R282). -/
def execCxlRecoveryExit (unit : Nat) (s : State) : Out :=
  .next (if s.awake ∧ s.unitLives unit then s.setUnit unit { (s.unit unit) with held := false, linkDown := false } else s)

end Sys2Proof.Machine
end

