-- ==== Sys2Proof/Machine/Power.lean ====
section
/-!
DEFINITION. Power, reset and the TAP (20_electrical.md, R441): the reset entry (R495, R496), the power window (R501,
R504, R505), PWR_CAP_N (R502), PMB_ALERT_N (R504), the thermal trip (R506) and TAP instructions (R441, R508).
-/
namespace Sys2Proof.Machine
namespace State

/-! ### Entering reset (R495–R497) -/

/-- The device enters reset: everything is lost but the boot flash, the fused values, the input pins as driven, and
BOOT_FAIL_N where a failed rail check holds the device (R494, R497), and the TAP's instruction while power stays. The
model's own log, queue and free-value counter go on, and whether the system the device left was running (log entry 100). -/
def enterReset (s : State) (pwrOk resetIn : Bool) : State :=
  { State.reset with
    flash := s.flash
    boot := { State.reset.boot with rejoins := s.boot.rejoins || s.boot.stage == .ready }
    pins := { State.reset.pins with pwrOk := pwrOk, resetIn := resetIn, capLow := s.pins.capLow
                                    bootFail := s.inReset && s.pins.bootFail }
    power := { State.reset.power with vid := s.power.vid, tapIr := if pwrOk then s.power.tapIr else State.reset.power.tapIr }
    out := s.out, pending := s.pending, freeCtr := s.freeCtr }

/-! ### The power window (R501, R504, R505) -/

/-- Milliwatts a page counts as where it is left unread: maximum current at nominal voltage (R492, R504). -/
def pageMax : List Nat :=
  [910000, 910000, 910000, 910000, 75000, 75000, 75000, 75000, 105000, 105000, 54000, 54000, 27500, 27500, 3600, 2700]

/-- The limit in use: 1,000 to 4,200 W. -/
def clampLimit (n : Nat) : Nat := max 1000 (min 4200 n)

/-- The device-wide gate after a window of p watts (R501). -/
def gateAfter (p limit gp : Nat) : Nat :=
  if limit < p then min 56 (gp + 4) else if p + 100 < limit then gp - 1 else gp

/-- A thermal gate after a window, temperatures in quarter degrees (R505). -/
def thermalAfter (ta ca : Int) (g : Nat) : Nat :=
  if 400 ≤ ta ∨ 412 ≤ ca then min 56 (g + 8) else if ta ≤ 380 ∧ ca ≤ 392 then g - 1 else g

/-- The regulators' addresses and pages (R492). -/
def regulators : List (Nat × Nat) :=
  [(0x40, 0), (0x41, 0), (0x42, 0), (0x43, 0), (0x44, 0), (0x44, 1), (0x44, 2), (0x44, 3), (0x45, 0), (0x46, 0), (0x47, 0),
   (0x47, 1), (0x48, 0), (0x48, 1), (0x49, 0), (0x49, 1)]

/-- CLEAR_FAULTS to every regulator (R504). -/
def clearFaults (s : State) : State :=
  { s with out := s.out ++ regulators.map fun (r : Nat × Nat) => Output.pmbus r.1 r.2 0x03 0 }

/-- A power window ends. -/
def window (s : State) (f : PowerFacts) : State :=
  let mw := f.milliwatts + (f.unread.map fun i => pageMax.getD i 0).sum
  let p := mw / 1000
  let limit := clampLimit s.power.limit
  let warn := s.power.ocWarn && f.overCurrent
  let gp := gateAfter p limit s.power.gp
  let t := { s with power := { s.power with
    now := min p 8191, limitUsed := limit, ocWarn := warn, gp := if warn then max gp 32 else gp
    gt := (List.range 4).map fun a => thermalAfter (f.ashlar.getD a 0) (f.clay.getD a 0) (s.power.gt.getD a 0)
    tempAshlar := (List.range 4).map fun a => f.ashlar.getD a 0
    tempClay := (List.range 4).map fun a => f.clay.getD a 0
    tempKsN := f.ksN, tempKsS := f.ksS } }.count pmbErr f.failures
  if s.power.ocWarn ∧ ¬ f.overCurrent then t.clearFaults else t

/-! ### The TAP (R441, R508) -/

/-- The instruction drives or isolates pins. -/
def drivesPins (ir : Byte) : Bool := [0x00, 0x04, 0x05, 0x06, 0x07].contains ir.toNat

/-- The instruction as loaded: reserved ones as BYPASS, private ones too while they are locked, and in confidential mode
every one but BYPASS, IDCODE and SAMPLE/PRELOAD. -/
def loadedAs (s : State) (ir : Byte) : Byte :=
  let n := ir.toNat
  let closed := s.footing.present && s.footing.confidential
  if n = 1 ∨ n = 2 ∨ n = 0xFF then ir
  else if drivesPins ir then (if closed then 0xFF else ir)
  else if 0x80 ≤ n then (if s.cs.debugLocked || closed then 0xFF else ir)
  else 0xFF

/-- The boot ROM leaves stage 1 once the firmware is verified and no pin-driving instruction is current (R508): the
VDD_A setpoint is written to its regulators (R493). -/
def leaveStage1 (s : State) : State :=
  if s.boot.stage = .firmware ∧ s.boot.fwVerified ∧ ¬ drivesPins s.power.tapIr then
    { s with
      boot := { s.boot with stage := .selfTest }
      out := s.out ++ (List.range 4).map fun a => Output.pmbus (0x40 + a) 0 0x21 s.power.vid }
  else s

/-- What IDCODE reads (R508). -/
def idcode : Word := 0x14E4758B

/-- A TAP instruction: IDCODE shifts its register out; one that drives pins in confidential mode, after Footing has been
read, is a tamper event. -/
def tapLoad (s : State) (ir : Byte) : State :=
  let u := { s with power := { s.power with tapIr := s.loadedAs ir } }
  let t := if u.power.tapIr = 0x01 then u.emit (.tapData idcode) else u
  if s.footing.present ∧ s.footing.confidential ∧ drivesPins ir then t.clearKeys.fatalError eTamper 4 0 else t.leaveStage1

end State

/-- PWR_OK_FALL (R495, R497). -/
def execPwrOkFall (s : State) : Out := .next (s.enterReset false s.pins.resetIn)

/-- RESET_IN_N_ASSERT (R496): a device that has tripped answers nothing (R506). -/
def execResetInNAssert (s : State) : Out := .next (if s.stopped then s else s.enterReset s.pins.pwrOk true)

/-- POWER_WINDOW (R501, R504, R505). -/
def execPowerWindow (facts : PowerFacts) (s : State) : Out := .next (if s.powered then s.window facts else s)

/-- PWR_CAP_CHANGE (R502). -/
def execPwrCapChange (low : Bool) (s : State) : Out := .next { s with pins := { s.pins with capLow := low } }

/-- PMB_ALERT (R504). -/
def execPmbAlert (overCurrent : Bool) (failures : Nat) (s : State) : Out :=
  .next (if s.powered then
      let t := s.count pmbErr failures
      if overCurrent then { t with power := { t.power with ocWarn := true, gp := max t.power.gp 32 } } else t
    else s)

/-- THERMAL_TRIP (R506). -/
def execThermalTrip (s : State) : Out :=
  .next (if s.stopped then s else { s with stopped := true, pins := { s.pins with thermTrip := true } })

/-- TAP_INSTRUCTION (R441, R508). -/
def execTapInstruction (ir : Byte) (s : State) : Out := .next (if s.pins.pwrOk ∧ ¬ s.stopped then s.tapLoad ir else s)

end Sys2Proof.Machine
end

