-- ==== Sys2Proof/Machine/Links.lean ====
section
/-!
DEFINITION. The Hethes link layer and routing (16_hethes_links.md, R391–R418, R482): flit headers, credits, retry,
reassembly, dimension-order routes with detours and bypasses, and sending a message (R399).
-/
namespace Sys2Proof.Machine

/-! ### Flit headers (R394, R395) -/

structure FlitHdr where
  kind : Nat := 1
  vc : Nat := 0
  last : Bool := false
  member : Nat := 0
  keyPhase : Bool := false
  detour : Bool := false
  length : Nat := 0
  hops : Nat := 0
  dest : Nat := 0
  source : Nat := 0
  fsn : Nat := 0
  ack : Nat := 0
  ackValid : Bool := false
  creditVc : Nat := 0
  creditValid : Bool := false
  creditDetour : Bool := false
  creditCount : Nat := 0
  deriving DecidableEq, Repr

/-- The 16 header bytes. -/
def flitHdrBytes (h : FlitHdr) : Bytes :=
  leBytes 16 (fieldAt 0 4 h.kind + fieldAt 4 3 h.vc + fieldAt 7 1 (bit01 h.last) + fieldAt 8 1 h.member
    + fieldAt 9 1 (bit01 h.keyPhase) + fieldAt 10 1 (bit01 h.detour) + fieldAt 16 10 h.length + fieldAt 26 6 h.hops
    + fieldAt 32 14 h.dest + fieldAt 48 14 h.source + fieldAt 64 12 h.fsn + fieldAt 76 12 h.ack
    + fieldAt 88 1 (bit01 h.ackValid) + fieldAt 89 3 h.creditVc + fieldAt 92 1 (bit01 h.creditValid)
    + fieldAt 93 1 (bit01 h.creditDetour) + fieldAt 94 10 h.creditCount)

/-- The header of a flit. -/
def flitHdr (f : Bytes) : FlitHdr :=
  let n := leNat (f.take 16)
  { kind := nbits n 0 4, vc := nbits n 4 3, last := n.testBit 7, member := nbits n 8 1, keyPhase := n.testBit 9,
    detour := n.testBit 10, length := nbits n 16 10, hops := nbits n 26 6, dest := nbits n 32 14,
    source := nbits n 48 14, fsn := nbits n 64 12, ack := nbits n 76 12, ackValid := n.testBit 88,
    creditVc := nbits n 89 3, creditValid := n.testBit 92, creditDetour := n.testBit 93,
    creditCount := nbits n 94 10 }

/-- Every reserved header bit is 0 (R395). -/
def flitReservedZero (f : Bytes) : Bool :=
  let n := leNat (f.take 16)
  nbits n 11 5 == 0 && nbits n 46 2 == 0 && nbits n 62 2 == 0 && nbits n 104 24 == 0

/-- The CRC of R394 over bytes 0–623 and 628–639. -/
def flitCrc (f : Bytes) : Nat := crc32 (f.take 624 ++ f.drop 628)
def flitCrcOk (f : Bytes) : Bool := f.length == 640 && fieldLE f 624 4 == flitCrc f

/-- A whole flit of header, payload and tag. -/
def flitBytes (h payload tag : Bytes) : Bytes :=
  let front := h ++ slice payload 0 608
  let tail := slice tag 0 12
  front ++ leBytes 4 (crc32 (front ++ tail)) ++ tail

/-! ### Channels (R397) -/

/-- The credit channel of a flit: its virtual channel, or 8 for the detour buffer. -/
def channelOf (vc : Nat) (detour : Bool) : Nat := if detour then 8 else vc

/-- Buffer entries of a channel. -/
def channelCap (ch : Nat) : Nat := if ch = 8 then 32 else if ch < 4 then 16 else 512

/-! ### Coordinates and directions (R401, R403) -/

namespace State

def extent (s : State) (axis : Nat) : Nat :=
  if axis = 0 then s.footing.ex else if axis = 1 then s.footing.ey else s.footing.ez

/-- A coordinate triple as a list. -/
def coordsOf (s : State) (d : Nat) : List Nat :=
  [d % s.footing.ex, d / s.footing.ex % s.footing.ey, d / (s.footing.ex * s.footing.ey)]

def devAt (s : State) (c : List Nat) : Nat :=
  c.getD 0 0 + s.footing.ex * (c.getD 1 0 + s.footing.ey * c.getD 2 0)

def isDevice (s : State) (d : Nat) : Bool := d < s.footing.ex * s.footing.ey * s.footing.ez

def selfCoords (s : State) : List Nat := [s.system.x, s.system.y, s.system.z]

/-- One step from a place along a direction (axis, plus sense), modulo the extent. -/
def move (s : State) (c : List Nat) (d : Nat × Bool) : List Nat :=
  let e := s.extent d.1
  lset c d.1 (if d.2 then (c.getD d.1 0 + 1) % e else (c.getD d.1 0 + e - 1) % e)

def back (s : State) (c : List Nat) (d : Nat × Bool) : List Nat := s.move c (d.1, !d.2)

/-- The direction R403 takes from a place toward a destination, none once there. -/
def dirTo (s : State) (c t : List Nat) : Option (Nat × Bool) :=
  ((List.range 3).find? fun a => c.getD a 0 ≠ t.getD a 0).map fun a =>
    let e := s.extent a
    let plus := (t.getD a 0 + e - c.getD a 0) % e
    (a, plus ≤ e - plus)

/-- The role code of a direction (R400). -/
def roleOf (d : Nat × Bool) : Nat := 1 + 2 * d.1 + bit01 (!d.2)

/-- The hop in a direction crosses the wraparound link (R405). -/
def crosses (s : State) (c : List Nat) (d : Nat × Bool) : Bool :=
  if d.2 then c.getD d.1 0 + 1 == s.extent d.1 else c.getD d.1 0 == 0

/-! ### Cairns, substitution and removal (R413–R415, R482) -/

/-- The origin of the 2 × 2 × 2 block of a place. -/
def cairnOf (c : List Nat) : List Nat := c.map fun v => v / 2 * 2

/-- The cairn number of a place, counted like devices over the grid of blocks. -/
def cairnNum (s : State) (c : List Nat) : Nat :=
  c.getD 0 0 / 2 + s.footing.ex / 2 * (c.getD 1 0 / 2 + s.footing.ey / 2 * (c.getD 2 0 / 2))

def substituted (s : State) (c : List Nat) : Bool := s.system.subst.any fun x => x.1 == s.devAt c
def removedAt (s : State) (c : List Nat) : Bool := s.system.removed.contains (s.devAt c)

/-- The axes other than a direction's, in the order X, Y, Z. -/
def otherAxes (axis : Nat) : List Nat := (List.range 3).filter (· ≠ axis)

/-- E of R415 for a substituted place c and direction D. -/
def detourDir (s : State) (c : List Nat) (d : Nat × Bool) : Option (Nat × Bool) :=
  ((otherAxes d.1).map fun a => (a, c.getD a 0 % 2 == 0)).find? fun e =>
    !(s.substituted (s.move (s.back c d) e)) && !(s.substituted (s.move (s.move c e) d))

/-- E of R482 for a removed place c and direction D. -/
def bypassDir (s : State) (c : List Nat) (d : Nat × Bool) : Option (Nat × Bool) :=
  ((otherAxes d.1).flatMap fun a => [(a, true), (a, false)]).find? fun e =>
    s.extent e.1 ≠ 1 && !(s.removedAt (s.move c e))

/-! ### Choosing a port -/

def portRole (s : State) (p : Nat) : PortRole := aget {} s.footing.ports p

/-- The ports of one Keystone in a role. -/
def portsIn (s : State) (role member : Nat) : List Nat :=
  ((List.range 8).map (· + 8 * member)).filter fun p => (s.portRole p).role == role

/-- Of one Keystone's ports in a role, the one R403 gives a flit. -/
def pickPort (s : State) (role member src dst : Nat) : Option Nat :=
  match s.portsIn role member with
  | [] => none
  | [p] => some p
  | p :: q :: _ => some (if (src ^^^ dst) % 2 = 0 then p else q)

def isUp (s : State) (p : Nat) : Bool := (s.port p).state == .up

/-- The port that takes a flit in a direction: its own member's, or the other member's where that is not UP
(R407). -/
def portToward (s : State) (d : Nat × Bool) (member src dst : Nat) : Option Nat :=
  let try1 := (s.pickPort (roleOf d) member src dst).filter s.isUp
  if try1.isSome then try1 else (s.pickPort (roleOf d) (1 - member) src dst).filter s.isUp

/-- The standby port of a member toward a device: a member's own, or on a spare the one Footing lists for it. -/
def standbyPort (s : State) (member : Nat) (target : Option Nat) : Option Nat :=
  (s.portsIn 7 member).find? fun p =>
    s.isUp p && (match target with
      | none => true
      | some d => (s.portRole p).aux == d)

/-- The virtual channel a flit has on an axis (R405): dateline bit 0 on entering it; on one it has moved along since its
source it keeps its bit. -/
def axisVc (s : State) (h : FlitHdr) (d : Nat × Bool) : Nat :=
  2 * (h.vc / 2) + if (s.coordsOf h.source).getD d.1 0 = s.selfCoords.getD d.1 0 then 0 else h.vc % 2

/-- The dateline bit is set by the wraparound link (R405). -/
def passVc (s : State) (vc : Nat) (d : Nat × Bool) : Nat := if s.crosses s.selfCoords d then vc / 2 * 2 + 1 else vc

/-- Where a flit goes next: the port, whether it travels on a detour, and its virtual channel. -/
structure Hop where
  port : Nat
  detour : Bool
  vc : Nat
  deriving DecidableEq, Repr

/-- A hop in a direction with a virtual channel. -/
def hopOn (s : State) (h : FlitHdr) (d : Nat × Bool) (detour : Bool) (vc : Nat) : Option Hop :=
  (s.portToward d h.member h.source h.dest).map fun p => { port := p, detour := detour, vc := vc }

/-- A hop of a detour on a standby port of the flit's member. -/
def hopStandby (s : State) (h : FlitHdr) (target : Option Nat) (vc : Nat) : Option Hop :=
  (s.standbyPort h.member target).map fun p => { port := p, detour := true, vc := vc }

/-- The next hop of the route of R403 from this device, with the replacement paths of R415 and R482. A detour takes the flit
along E with the virtual channel of its axis, and its bit is set where it crosses the wraparound link of that axis. -/
def route (s : State) (h : FlitHdr) : Option Hop :=
  let here := s.selfCoords
  let dest := s.coordsOf h.dest
  match s.dirTo here dest with
  | none => none
  | some d =>
    let c := s.move here d
    if s.system.substituting then
      -- the spare in F's place: its links are its standby ports
      if cairnOf c = cairnOf here then
        s.hopStandby h (some (s.devAt c)) (s.axisVc h d)
      else
        match s.detourDir here d with
        | some e => s.hopStandby h (some (s.devAt (s.move here e))) (s.axisVc h d)
        | none => none
    else if s.substituted c then
      if cairnOf c = cairnOf here then s.hopStandby h none (s.axisVc h d)
      else
        match s.detourDir c d with
        | some e => s.hopOn h e true (s.axisVc h d)
        | none => none
    else if s.removedAt c then
      match s.bypassDir c d with
      | some e => s.hopOn h e true (s.axisVc h d)
      | none => none
    else s.hopOn h d false (s.passVc (s.axisVc h d) d)

/-- The direction a flit moved in to arrive on a torus port: the opposite of the port's own. -/
def arrivalDir (s : State) (p : Nat) : Option (Nat × Bool) :=
  let r := (s.portRole p).role
  if 1 ≤ r ∧ r ≤ 6 then some ((r - 1) / 2, r % 2 == 0) else none

def signs : List Bool := [true, false]

/-- The next hop of a flit on a detour or bypass that arrived on port p; it ends where none of R415 and R482
continues it, and the flit is routed again with detour clear. -/
def routeDetour (s : State) (h : FlitHdr) (p : Nat) : Option Hop :=
  let here := s.selfCoords
  let dest := s.coordsOf h.dest
  match s.arrivalDir p with
  | none =>
    -- at the spare that stands in c the route goes on from there; at a member, from the spare on a standby port
    if s.system.substituting then s.route h else
    let c := s.coordsOf ((s.system.subst.find? fun x =>
      cairnOf (s.coordsOf x.1) == cairnOf here).map (·.1) |>.getD 0)
    match s.dirTo c dest with
    | none => s.route h
    | some d => if s.move c d = here then s.route h else s.hopOn h d true (s.passVc h.vc d)
  | some m =>
    -- at A + E: one step back along E lies A, whose next hop c is away
    let a := s.back here m
    let atAE := match s.dirTo a dest with
      | none => none
      | some d =>
        let c := s.move a d
        if (s.substituted c && s.detourDir c d == some m) || (s.removedAt c && s.bypassDir c d == some m)
        then some d else none
    match atAE with
    | some d => s.hopOn h d true (s.passVc h.vc d)
    | none =>
      -- at c + E: one step back along D and one along E lies A
      let es := (otherAxes m.1).flatMap fun x => signs.map fun g => (x, g)
      let atCE := es.find? fun e =>
        let a := s.back (s.back here m) e
        let c := s.move a m
        s.dirTo a dest == some m &&
          ((s.substituted c && s.detourDir c m == some e) || (s.removedAt c && s.bypassDir c m == some e))
      match atCE with
      | some e =>
        if s.removedAt (s.back here e) then s.hopOn h m true (s.passVc h.vc m)
        else s.hopStandby h none h.vc
      | none =>
        -- at c + E + D, outbound from the spare: the last hop is back along E
        let atCED := es.find? fun e =>
          let c := s.back (s.back here m) e
          s.substituted c && s.dirTo c dest == some m && s.detourDir c m == some e
        match atCED with
        | some e => s.hopOn h (e.1, !e.2) true h.vc
        | none => s.route h

/-! ### Sending -/

/-- Add n to a counter of a sparse map. -/
def bumpAt (m : Assoc Nat) (k n : Nat) : Assoc Nat := aput 0 m k (aget 0 m k + n)

/-- The channel whose credits go with the next flit. -/
def owedChannel (q : HxPort) : Option Nat := (List.range 9).find? fun c => aget 0 q.owed c ≠ 0

/-- A header with the acknowledgement and one channel's owed credits (R395, R398), and the port after it. -/
def withAck (q : HxPort) (h : FlitHdr) : FlitHdr × HxPort :=
  let h1 := { h with ack := (q.rxFsn + 4095) % 4096, ackValid := q.rxAny }
  match owedChannel q with
  | none => (h1, { q with ackDue := false })
  | some c =>
    let n := min (aget 0 q.owed c) 1023
    ({ h1 with creditVc := if c = 8 then 0 else c, creditValid := true, creditDetour := c = 8, creditCount := n },
     { q with ackDue := false, owed := aput 0 q.owed c (aget 0 q.owed c - n) })

/-- A link-control flit (R396): one hop, no fsn, in clear. -/
def sendControl (s : State) (p kind : Nat) (payload : Bytes) : State :=
  let q := s.port p
  let r := withAck q { kind := kind, length := payload.length, dest := q.peerDev, source := s.system.device }
  (s.setPort p r.2).emit (.flit p (flitBytes (flitHdrBytes r.1) payload []))

/-- CTRL flits until no acknowledgement or credit is owed (R398). -/
def flushAcks (s : State) (p : Nat) : Nat → State
  | 0 => s
  | n + 1 =>
    let q := s.port p
    if q.ackDue || (owedChannel q).isSome then (s.sendControl p 2 []).flushAcks p n else s

/-- The GCM nonce of a key's n-th flit (R410). -/
def flitNonce (k : LinkKey) (n : Nat) : Bytes := xorBytes (k.iv.take 8) (leBytes 8 n) ++ k.iv.drop 8

/-- A channel may send its next flit: a credit is held. -/
def hasCredit (q : HxPort) (ch : Nat) : Bool := aget 0 q.spent ch < channelCap ch

/-- The first waiting flit of the detour buffer is of class 0. -/
def detourSystem (q : HxPort) : Bool := (q.wait.find? (·.detour)).any (·.vc < 2)

/-- The waiting flit the output takes next (R398): class 0 first, on a detour too, then the rotating pointer over the
others. -/
def nextWaiting (q : HxPort) : Option Nat :=
  let order := [0, 1] ++ (if detourSystem q then [8] else []) ++ (List.range 7).map fun k => 2 + (q.rrPtr + k) % 7
  (order.find? fun ch => hasCredit q ch && q.wait.any fun w => channelOf w.vc w.detour == ch).bind fun ch =>
    q.wait.findIdx? fun w => channelOf w.vc w.detour == ch

/-- The port's key for its next flit: a pending key is taken with key_phase inverted (R410). -/
def turnKey (q : HxPort) : HxPort :=
  match q.txNext with
  | some k => { q with tx := some k, txNext := none, txPhase := !q.txPhase }
  | none => q

/-- Send one waiting sequenced flit. -/
def sendWaiting (s : State) (p i : Nat) : State :=
  let q0 := turnKey (s.port p)
  match q0.wait[i]? with
  | none => s
  | some w =>
    let ch := channelOf w.vc w.detour
    let hd := flitHdr w.bytes
    let r := withAck q0 { hd with fsn := q0.txFsn, keyPhase := q0.txPhase, detour := w.detour, vc := w.vc }
    let hb := flitHdrBytes r.1
    let payload := slice w.bytes 16 608
    let bytes := match q0.tx with
      | none => flitBytes hb payload []
      | some k =>
        let nonce := flitNonce k k.count
        let sealed := gcmSeal k.key nonce hb payload
        flitBytes hb sealed.1 (sealed.2.take 12)
    let q := { r.2 with
      txFsn := (q0.txFsn + 1) % 4096
      wait := q0.wait.eraseIdx i
      spent := bumpAt q0.spent ch 1
      retry := q0.retry ++ [{ fsn := q0.txFsn, vc := ch, bytes := bytes }]
      tx := q0.tx.map fun k => { k with count := k.count + 1 }
      rrPtr := if w.vc < 2 then q0.rrPtr else (ch - 2 + 1) % 7 }
    let t := ((s.setPort p q).emit (.flit p bytes)).count (hxTxFlits p) 1
    match w.origin with
    | none => t
    | some (op, oc) =>
      let o := t.port op
      t.setPort op { o with owed := bumpAt o.owed oc 1 }

/-- The port sends sequenced flits: UP, or in the handshake, and not in a retrain. -/
def canSend (q : HxPort) : Bool := (q.state == .up || q.state == .handshake) && !q.retraining

/-- Send waiting flits while the retry buffer (512) and the credits allow. -/
def pump (s : State) (p : Nat) : Nat → State
  | 0 => s
  | n + 1 =>
    let q := s.port p
    if canSend q && q.retry.length < 512 then
      match nextWaiting q with
      | none => s
      | some i => (s.sendWaiting p i).pump p n
    else s

/-- Queue a flit on a port and send what can be sent. -/
def enqueue (s : State) (p : Nat) (w : WaitFlit) : State :=
  let q := s.port p
  let t := s.setPort p { q with wait := q.wait ++ [w] }
  t.pump p (q.wait.length + 1)

/-- The class of a message type (R399). -/
def msgClass (typ : Nat) : Nat :=
  if typ = 1 ∨ typ = 2 ∨ typ = 4 ∨ typ = 0x21 then 1
  else if typ = 3 then 2
  else if typ = 0x20 ∨ typ = 0x30 then 3
  else 0

/-- The member of a class 0 or MORTAR message (R404). -/
def memberFor (dest : Nat) : Nat := dest % 2

/-- A message header (R399). -/
structure MsgHdr where
  typ : Nat
  dstCh : Nat := 0
  srcCh : Nat := 0
  xfer : Nat := 0
  arg : Nat := 0
  deriving DecidableEq, Repr

def msgBytes (h : MsgHdr) (body : Bytes) : Bytes :=
  leBytes 1 h.typ ++ leBytes 1 h.dstCh ++ leBytes 1 h.srcCh ++ [0] ++ leBytes 4 body.length ++ leBytes 4 h.xfer
    ++ leBytes 4 h.arg ++ body

/-- Queue the flits of a byte string as DATA flits along a route already chosen. -/
def sendSegments (s : State) (p : Nat) (h : FlitHdr) (detour : Bool) : List Bytes → State
  | [] => s
  | seg :: rest =>
    let hd := { h with last := rest.isEmpty, length := seg.length }
    (s.enqueue p { vc := h.vc, detour := detour, bytes := flitHdrBytes hd ++ slice seg 0 608, origin := none }).sendSegments
      p h detour rest

/-- Keystone of the port a counter of a lost flit belongs to. -/
def lowPort (member : Nat) : Nat := 8 * member

/-- R408 at the sender: the flits are counted, and a message of class 1 or 2 is answered with E_LINK_UNREACH. -/
def unsent (s : State) (member flits : Nat) (h : MsgHdr) (body : Bytes) : State :=
  let t := s.count (hxUnroutable (lowPort member)) flits
  if msgClass h.typ = 1 ∨ msgClass h.typ = 2 then
    t.emit (.delivered (lowPort member) s.system.device (msgBytes
      { typ := 4, dstCh := h.srcCh, srcCh := h.dstCh, xfer := h.xfer, arg := eLinkUnreach.toNat }
      (leBytes 4 (if h.typ = 3 then h.arg else fieldLE body 0 4))))
  else t

/-- The hop over a first-hop port given: an axis's port, or an auxiliary or standby one. -/
def firstHop (s : State) (p : Nat) (h : FlitHdr) : Hop :=
  let r := (s.portRole p).role
  { port := p, detour := false, vc := if 1 ≤ r ∧ r ≤ 6 then s.passVc h.vc ((r - 1) / 2, r % 2 == 1) else h.vc }

/-- Send a message to a device (R399, R403, R404): the member given, through a first-hop port where one is given.
A message that cannot be routed is treated under R408. -/
def sendVia (s : State) (first : Option Nat) (member dest : Nat) (h : MsgHdr) (body : Bytes) : State :=
  let hd : FlitHdr := { kind := 1, vc := 2 * msgClass h.typ, member := member, dest := dest,
                        source := s.system.device }
  let segs := chunks 608 ((16 + body.length) / 608 + 1) (msgBytes h body)
  if dest = s.system.device then s.emit (.delivered (lowPort member) dest (msgBytes h body))
  else
    let hop := match first with
      | some p => if s.isUp p then some (s.firstHop p hd) else none
      | none => s.route hd
    match hop with
    | none => s.unsent member segs.length h body
    | some o => s.sendSegments o.port { hd with vc := o.vc, detour := o.detour } o.detour segs

def sendMsg (s : State) (dest : Nat) (h : MsgHdr) (body : Bytes) : State :=
  s.sendVia none (memberFor dest) dest h body

/-- Send a message to every device of a list. -/
def sendAll (s : State) (dests : List Nat) (h : MsgHdr) (body : Bytes) : State :=
  dests.foldl (fun t d => t.sendMsg d h body) s

/-- Send one message over a standby port (R414). -/
def sendOnPort (s : State) (p dest : Nat) (h : MsgHdr) (body : Bytes) : State :=
  s.sendVia (some p) (p / 8) dest h body

/-! ### Ports going down and retraining (R392, R407) -/

/-- Send a flit that has been taken in from port p on toward its destination, or discard it under R408. -/
def firstOfRelay (s : State) (p : Nat) (h : FlitHdr) : Bool :=
  !(aget false (s.port p).mid (h.source * 8 + h.vc / 2 * 2 + h.member)) && (h.vc / 2 == 1 || h.vc / 2 == 2)

/-- R408: discard, count, and answer the first flit of a class 1 or class 2 message with E_LINK_UNREACH. -/
def unroutable (s : State) (p : Nat) (h : FlitHdr) (payload : Bytes) : State :=
  let t := s.count (hxUnroutable p) 1
  if s.firstOfRelay p h then
    let idx := if fieldLE payload 0 1 = 3 then fieldLE payload 12 4 else fieldLE payload 16 4
    t.sendVia none h.member h.source
      { typ := 4, dstCh := fieldLE payload 2 1, srcCh := fieldLE payload 1 1, xfer := fieldLE payload 8 4,
        arg := eLinkUnreach.toNat } (leBytes 4 idx)
  else t

/-- Note whether a message is in the middle at this port. -/
def markMid (s : State) (p : Nat) (h : FlitHdr) : State :=
  let q := s.port p
  s.setPort p { q with mid := aput false q.mid (h.source * 8 + h.vc / 2 * 2 + h.member) (!h.last) }

/-- Forward a DATA flit that arrived on port p (R406). -/
def forward (s : State) (p : Nat) (h : FlitHdr) (payload : Bytes) (origin : Option (Nat × Nat)) : State :=
  let release (t : State) : State :=
    match origin with
    | none => t
    | some (op, oc) => t.setPort op { t.port op with owed := bumpAt (t.port op).owed oc 1 }
  let hop := if 63 ≤ h.hops ∨ !s.isDevice h.dest then none
    else if h.detour then s.routeDetour h p else s.route h
  match hop with
  | none => release ((s.unroutable p h payload).markMid p h)
  | some o =>
    let hd := { h with hops := h.hops + 1, vc := o.vc, detour := o.detour }
    (s.markMid p h).enqueue o.port { vc := o.vc, detour := o.detour, bytes := flitHdrBytes hd ++ slice payload 0 608,
                                     origin := origin }

/-- Send the flits that waited on a port along the ways left (R407). -/
def rerouteAll (s : State) (p : Nat) : List WaitFlit → State
  | [] => s
  | w :: ws =>
    let h := flitHdr w.bytes
    let t := if h.kind = 1 then
        s.forward p { h with hops := h.hops - 1, detour := false } (slice w.bytes 16 608) w.origin
      else s
    t.rerouteAll p ws

/-- A port goes DOWN with a code: degraded (R431 bit 4), its traffic takes the other way round, and training is
tried again after 2^20 ticks (R392). -/
def portDown (s : State) (p : Nat) (code : Code) : State :=
  let q := s.port p
  let t := s.setPort p { q with
    state := .down, lanes := 0, keyed := false, tx := none, txNext := none, rx := none, rxNext := none,
    peerValid := false, retraining := false, retry := [], wait := [], spent := [], owed := [], asm := [], mid := [],
    lastCode := code, downSince := some s.tb.up, suspectSent := false, nextTry := s.tb.up + 2 ^ 20 }
  (t.rerouteAll p q.wait).degrade 4 (ksSource (8 ≤ p)) code p

/-- A retrain is required (R392): the third within 2^22 ticks takes the port DOWN. -/
def retrain (s : State) (p : Nat) : State :=
  let q := s.port p
  let recent := q.retrains.filter fun t => s.tb.up < t + 2 ^ 22
  if q.retraining || !(q.state == .up || q.state == .handshake) then s
  else if 2 ≤ recent.length then s.portDown p eLinkDown
  else
    (s.setPort p { q with state := .training, retraining := true, retrains := recent ++ [s.tb.up], crcFails := [],
                          retryRow := 0 }).count (hxRetrain p) 1

/-- A violation of R418 counted in HX_BAD_FLIT or HX_BAD_MSG; the 64th of a period makes a retrain. -/
def badPartner (s : State) (p counter : Nat) : State :=
  let t := s.partner counter (ksSource (8 ≤ p)) eLinkPeer (BitVec.ofNat 32 p)
  if (t.stat (hxBadFlit p)).toNat + (t.stat (hxBadMsg p)).toNat = 64 then t.retrain p else t

/-- A flit that fails its code or CRC (R398): counted, NAKed, later flits discarded until the expected one; 1,024
within 2^16 ticks make a retrain. -/
def crcFail (s : State) (p : Nat) : State :=
  let q := s.port p
  let fails := (q.crcFails.filter fun t => s.tb.up < t + 2 ^ 16) ++ [s.tb.up]
  let t := ((s.setPort p { q with discarding := true, crcFails := fails }).corrected (hxCrcErr p) 1)
  let u := t.sendControl p 3 (leBytes 2 q.rxFsn)
  if 1024 ≤ fails.length then u.retrain p else u

/-! ### Receiving -/

/-- Take the acknowledgement and the credits a header carries (R398); credits beyond those spent are ignored and
counted (R418). -/
def takeAck (s : State) (p : Nat) (h : FlitHdr) : State :=
  let q := s.port p
  let k := if h.ackValid then (q.retry.findIdx? fun e => e.fsn == h.ack).map (· + 1) |>.getD 0 else 0
  let ch := channelOf h.creditVc h.creditDetour
  let spent := aget 0 q.spent ch
  let back := if h.creditValid then min h.creditCount spent else 0
  let t := s.setPort p { q with retry := q.retry.drop k, retryRow := if k = 0 then q.retryRow else 0,
                                spent := aput 0 q.spent ch (spent - back) }
  let u := if h.creditValid ∧ spent < h.creditCount then t.badPartner p (hxBadFlit p) else t
  u.pump p (q.wait.length + 1)

/-- Entries of a receive buffer of port p still occupied: its flits that wait on any port. -/
def occupied (s : State) (p ch : Nat) : Nat :=
  (s.ports.map fun c => (c.2.wait.filter fun w => w.origin == some (p, ch)).length).sum

/-- Return the credit of a flit that left its buffer at once. -/
def freeEntry (s : State) (p ch : Nat) : State :=
  let q := s.port p
  s.setPort p { q with owed := bumpAt q.owed ch 1 }

/-- A message has arrived whole (R399): handed in, or discarded where its header or length breaks R418. -/
def messageIn (s : State) (p source : Nat) (m : Bytes) : State :=
  let typ := fieldLE m 0 1
  let known := [1, 2, 3, 4, 0x10, 0x11, 0x12, 0x13, 0x14, 0x15, 0x20, 0x21, 0x30].contains typ
  if known && 16 ≤ m.length && fieldLE m 4 4 == m.length - 16 then s.emit (.delivered p source m)
  else s.badPartner p (hxBadMsg p)

/-- Take in a segment: reassembly by source, class and member; LINK_HELLO segments under a key of their own. -/
def takeIn (s : State) (p : Nat) (h : FlitHdr) (payload : Bytes) : State :=
  let key := if h.kind = 7 then 16384 * 8 else h.source * 8 + h.vc / 2 * 2 + h.member
  let q := s.port p
  let m := (aget none q.asm key).getD [] ++ payload.take h.length
  let t := s.setPort p { q with asm := aput none q.asm key (if h.last then none else some m) }
  if !h.last then t
  else if h.kind = 7 then t.emit (.delivered p h.source m)
  else t.messageIn p h.source m

/-- The key a received flit is under, and whether it starts the next key (R410). -/
def rxKeyFor (q : HxPort) (phase : Bool) : Option LinkKey × Bool :=
  if phase = q.rxPhase then (q.rx, false) else (q.rxNext, true)

/-- Open a sequenced flit of an outer port; none where the tag fails. Ports without keys pass it as it is. -/
def openFlit (q : HxPort) (f : Bytes) (phase : Bool) : Option (Bytes × HxPort) :=
  if q.rx.isNone && q.rxNext.isNone then some (slice f 16 608, q)
  else
    match rxKeyFor q phase with
    | (none, _) => none
    | (some k, fresh) =>
      let nonce := flitNonce k k.count
      let ct := slice f 16 608
      if (gcmTag k.key nonce (f.take 16) ct).take 12 = slice f 628 12 then
        let k1 := { k with count := k.count + 1 }
        some (gcmCrypt k.key nonce ct,
          if fresh then { q with rx := some k1, rxNext := none, rxPhase := phase } else { q with rx := some k1 })
      else none

/-- A sequenced flit that came in order, with its payload opened (R398, R418, R406). -/
def acceptFlit (s : State) (p : Nat) (f : Bytes) (h : FlitHdr) (payload : Bytes) : State :=
  let ch := channelOf h.vc h.detour
  if !(h.kind == 1 || h.kind == 7) || !flitReservedZero f || 608 < h.length || (h.kind == 7 && h.vc ≠ 0) then
    (s.freeEntry p ch).badPartner p (hxBadFlit p)
  else if channelCap ch ≤ s.occupied p ch + aget 0 (s.port p).owed ch then s.badPartner p (hxBadFlit p)
  else if h.kind = 7 ∨ h.dest = s.system.device then (s.freeEntry p ch).takeIn p h payload
  else s.forward p h payload (some (p, ch))

/-- A sequenced flit arrives on a port (R396, R398). -/
def receiveFlit (s : State) (p : Nat) (f : Bytes) : State :=
  let q := s.port p
  let h := flitHdr f
  let ahead := (h.fsn + 4096 - q.rxFsn) % 4096
  if !flitCrcOk f then s.crcFail p
  else if ahead ≠ 0 then
    -- out of order: a repeat is acknowledged again, a gap is NAKed
    if q.discarding then s
    else if ahead < 2048 then (s.setPort p { q with discarding := true }).sendControl p 3 (leBytes 2 q.rxFsn)
    else s.setPort p { q with ackDue := true }
  else
    match openFlit q f h.keyPhase with
    | none =>
      let t := s.partner (hxAuthFail p) (ksSource (8 ≤ p)) eLinkAuth (BitVec.ofNat 32 p)
      if (t.stat (hxAuthFail p)).toNat = 16 then t.portDown p eLinkAuth
      else (t.setPort p { q with discarding := true }).sendControl p 3 (leBytes 2 q.rxFsn)
    | some (payload, q1) =>
      let t := (s.setPort p { q1 with rxFsn := (q.rxFsn + 1) % 4096, rxAny := true, ackDue := true,
                                      discarding := false }).count (hxRxFlits p) 1
      (t.takeAck p h).acceptFlit p f h payload

/-- A link-control flit that arrives whole: its acknowledgement and credits. -/
def receiveControl (s : State) (p : Nat) (f : Bytes) : State :=
  if !flitCrcOk f then s.crcFail p
  else if !flitReservedZero f || 608 < (flitHdr f).length || (flitHdr f).vc ≠ 0 then s.badPartner p (hxBadFlit p)
  else s.takeAck p (flitHdr f)

/-- Resend every kept flit from an fsn on (R398). -/
def resendFrom (s : State) (p fsn : Nat) : State :=
  let q := s.port p
  match q.retry.findIdx? fun e => e.fsn == fsn with
  | none => s
  | some i =>
    let list := q.retry.drop i
    let t := { s with out := s.out ++ list.map fun (e : SentFlit) => Output.flit p e.bytes }.corrected (hxRetry p) list.length
    let row := q.retryRow + 1
    let u := t.setPort p { t.port p with retryRow := row }
    if 16 ≤ row then u.retrain p else u

end State
end Sys2Proof.Machine
end

