-- ==== Sys2Proof/Machine/Handshake.lean ====
section
/-!
DEFINITION. The port handshake (R402, R409, R410): building and checking LINK_HELLO, deriving link keys, and issuing
the attestation-key certificate on which handshakes wait (R425, R456).
-/
namespace Sys2Proof.Machine
namespace State

/-- The role a port's peer must have: the opposite direction, or the same (R402). -/
def peerRoleOf (role : Nat) : Nat :=
  if 1 ≤ role ∧ role ≤ 6 then (if role % 2 = 1 then role + 1 else role - 1) else role

/-- The number of the spare of this device's cairn (R413). -/
def spareNum (s : State) : Nat := 16320 + s.cairnNum s.selfCoords

/-- The device Footing implies at the other end of a port (R402); the cairn's spare goes by the number it has taken once it
has substituted (R414, R421). -/
def expectedPeer (s : State) (p : Nat) : Nat :=
  let r := s.portRole p
  if 1 ≤ r.role ∧ r.role ≤ 6 then s.devAt (s.move s.selfCoords ((r.role - 1) / 2, r.role % 2 == 1))
  else if r.role = 7 ∧ !s.system.spare && !s.system.substituting then (if s.system.substValid then s.system.substDev else s.spareNum)
  else r.aux

/-- The signed part and the rest of this device's LINK_HELLO body (R409). -/
def helloBody (s : State) (p : Nat) (eph nonce : Bytes) : Bytes :=
  let r := s.portRole p
  let head := leBytes 2 s.system.device ++ leBytes 1 r.role ++ leBytes 1 (p / 8)
    ++ leBytes 1 (bit01 s.footing.confidential) ++ zeros 3
    ++ (if r.outer then x448Public eph else zeros 56) ++ nonce ++ s.footing.systemDigest
  head ++ edSign s.cs.akPriv "Gnolis link" (digest head) ++ s.cs.akCert

/-- Queue a LINK_HELLO as sequenced flits of kind 7 on vc 0. -/
def helloSegments (s : State) (p : Nat) : List Bytes → State
  | [] => s
  | seg :: rest =>
    let hd : FlitHdr := { kind := 7, vc := 0, last := rest.isEmpty, member := p / 8, length := seg.length,
                          dest := s.expectedPeer p, source := s.system.device }
    (s.enqueue p { vc := 0, detour := false, bytes := flitHdrBytes hd ++ slice seg 0 608,
                   origin := none }).helloSegments p rest

/-- Send this device's LINK_HELLO on a port, with a fresh ephemeral key and nonce (R409); while the DRBG of the port's
Keystone does not serve, it waits with none of its own (R427). -/
def sendHello (s : State) (p : Nat) : State :=
  if s.drbgServes (8 ≤ p) then
    let r := s.drawBytes 88
    let t := s.drew 88
    let body := s.helloBody p (r.take 56) (r.drop 56)
    let u := t.setPort p { t.port p with ownHello := body, ownPriv := r.take 56 }
    u.helloSegments p (chunks 608 3 body)
  else s.setPort p { s.port p with ownHello := [], ownPriv := [] }

/-- The keys of the two directions of an outer port (R410): this device's sending and receiving keys. -/
def linkKeys (own peer priv : Bytes) : LinkKey × LinkKey :=
  let z := x448 priv (slice peer 8 56)
  let low := fieldLE own 0 2 < fieldLE peer 0 2
  let h := digest (if low then own ++ peer else peer ++ own)
  let k := shake 88 (ascii "Gnolis link keys" ++ z ++ h)
  let a : LinkKey := { key := slice k 0 32, iv := slice k 64 12, count := 0 }
  let b : LinkKey := { key := slice k 32 32, iv := slice k 76 12, count := 0 }
  if low then (a, b) else (b, a)

/-- A port not brought into service: it keeps out with a code; a miswired one raises the link alarm and degraded
operation (R402, R409). -/
def refusePort (s : State) (p : Nat) (code : Code) : State :=
  let t := s.setPort p { s.port p with lastCode := code, peerValid := false }
  if code = eLinkMiswire then (t.degrade 4 (ksSource (8 ≤ p)) code p).alarm 6 code (BitVec.ofNat 32 p) else t

/-- Why a peer's LINK_HELLO is refused, if it is (R402, R409). -/
def helloFault (s : State) (p : Nat) (b : Bytes) : Option Code :=
  match verifyCert (b.drop 242) with
  | none => some eLinkAuth
  | some (ak, _) =>
    if !edVerify ak "Gnolis link" (digest (b.take 128)) (slice b 128 114) then some eLinkAuth
    else if fieldLE b 4 1 ≠ bit01 s.footing.confidential ∨ slice b 96 32 ≠ s.footing.systemDigest then
      some eLinkMiswire
    else if fieldLE b 0 2 ≠ s.expectedPeer p ∨ fieldLE b 2 1 ≠ peerRoleOf (s.portRole p).role
        ∨ fieldLE b 3 1 ≠ p / 8 then some eLinkMiswire
    else none

/-- The peer's LINK_HELLO is complete (R409, R410): the port comes UP, or on a running port the next keys are
ready. -/
def acceptHello (s : State) (p : Nat) (b : Bytes) : State :=
  match s.helloFault p b with
  | some code =>
    let t := s.refusePort p code
    if (s.port p).state == .up then t.portDown p code else t
  | none =>
    let q := s.port p
    let bk := ((verifyCert (b.drop 242)).map (·.2)).getD []
    let q1 := { q with peerDev := fieldLE b 0 2, peerRole := fieldLE b 2 1, peerValid := true, peerBk := bk,
                       peerHello := b, lastCode := sOk }
    if (s.portRole p).outer then
      let k := linkKeys q.ownHello b q.ownPriv
      if q.state == .up then
        s.setPort p { q1 with txNext := some k.1, rxNext := some k.2, keyTick := s.tb.up }
      else
        s.setPort p { q1 with state := .up, keyed := true, tx := some k.1, rx := some k.2, txPhase := false,
                              rxPhase := false, keyTick := s.tb.up, downSince := none }
    else s.setPort p { q1 with state := .up, downSince := none }

/-- Send LINK_HELLO; a peer's message that came first is taken then. -/
def beginHello (s : State) (p : Nat) : State :=
  let t := s.sendHello p
  if (s.port p).peerHello.isEmpty || (t.port p).ownHello.isEmpty then t else t.acceptHello p (s.port p).peerHello

/-- A handshake of a port waits for its own LINK_HELLO: before the port comes UP, or a new one on an outer port. -/
def awaitsHello (s : State) (p : Nat) : Bool :=
  let q := s.port p
  q.ownHello.isEmpty && (q.state == .handshake || (q.state == .up && (s.portRole p).outer))

/-- Begin the handshakes that wait on the ports of a list. -/
def startHandshakes (s : State) : List Nat → State
  | [] => s
  | p :: ps => (if s.awaitsHello p then s.beginHello p else s).startHandshakes ps

/-- On the first entry to LOCKED the Cornerstone issues the attestation-key certificate, and the port handshakes
begin (R425, R456). -/
def issueCert (s : State) : State :=
  if s.cs.akReady || s.cs.akPriv.isEmpty || !s.footing.present then s
  else
    let t := { s with cs := { s.cs with bootTick := s.tb.tick } }
    let u := { t with cs := { t.cs with akCert := akCert t t.cs.akPub, akReady := true } }
    u.startHandshakes (List.range 16)

end State
end Sys2Proof.Machine
end

