-- ==== Sys2Proof/Machine/Reports.lean ====
section
/-!
DEFINITION. The attestation report (R428–R432), and the two Cornerstones' entropy sources (R427).
-/
namespace Sys2Proof.Machine
namespace State

/-! ### The report -/

/-- A program entry and a weight entry as the report carries them (R430). -/
def progBytes (e : ProgEntry) : Bytes := slice e.digest 0 32 ++ leBytes 1 e.kind ++ zeros 7 ++ leBytes 8 e.tick

def weightBytes (e : WeightEntry) : Bytes :=
  slice e.digest 0 32 ++ slice e.binding 0 32 ++ leBytes 1 (bit01 e.claimed) ++ [0] ++ leBytes 2 e.device ++ zeros 4
    ++ leBytes 8 e.tick

def reportSize (s : State) : Nat := 640 + 48 * s.cs.progs.length + 80 * s.cs.weights.length

/-- A report taken now for a verifier nonce, up to its signature (R429). -/
def reportBody (s : State) (nonce : Bytes) : Bytes :=
  leBytes 4 0x54544147 ++ leBytes 2 1 ++ zeros 2 ++ leBytes 4 s.reportSize ++ leBytes 4 mgDeviceId.toNat
    ++ slice s.cs.deviceId 0 16 ++ dikPub ++ slice s.cs.akPub 0 57
    ++ leBytes 1 (bit01 s.footing.confidential) ++ leBytes 1 (bit01 s.boot.ftSlot) ++ leBytes 4 s.rel.degraded.toNat
    ++ slice s.footing.digest 0 32 ++ digest Config.ownerKey ++ slice s.cs.fwDigest 0 32 ++ slice s.cs.mortarDigest 0 32
    ++ slice s.cs.bootNonce 0 32 ++ leBytes 8 s.cs.bootTick ++ slice s.journal.head 0 32 ++ leBytes 8 s.journal.seq
    ++ leBytes 8 s.tb.tick ++ leBytes 8 s.turn.turn ++ slice nonce 0 32
    ++ slice s.cs.origin 0 32 ++ leBytes 8 s.cs.updates ++ slice s.cs.optDigest 0 32 ++ leBytes 1 s.cs.lineageFlags
    ++ zeros 3 ++ leBytes 4 s.cs.progs.length ++ leBytes 4 s.cs.weights.length ++ zeros 20
    ++ s.cs.progs.flatMap progBytes ++ s.cs.weights.flatMap weightBytes

/-- The signed report. -/
def signReport (s : State) (body : Bytes) : Bytes :=
  body ++ edSign s.cs.akPriv "Gnolis report" (digest body) ++ zeros 14

/-- The content digest of a report's body (R432). -/
def contentDigest (body : Bytes) : Bytes := digest (body.take 360 ++ body.drop 408)

/-- A report may be asked for: the attestation key's certificate is issued, and fewer than 16 requests wait (R428,
R457). -/
def reportRoom (s : State) : Bool := s.cs.akReady && s.cs.reports.length < 16

/-- Take a report request in this cycle. -/
def askReport (s : State) (nonce : Bytes) (who : ReportFor) : State :=
  { s with cs := { s.cs with reports := s.cs.reports ++ [{ nonce := nonce, who := who, body := s.reportBody nonce }] } }

def setEntropy (s : State) (south : Bool) (v : Nat) : State :=
  { s with cs := if south then { s.cs with entropyS := v } else { s.cs with entropyN := v } }

/-- A health test fails at run time (R427): counted; a second failure within 2^20 ticks is fatal. -/
def healthFail (s : State) (south : Bool) : State :=
  let last := if south then s.cs.lastFailS else s.cs.lastFailN
  let t := (s.count (csEntropyFail south) 1).setEntropy south 2
  let u := { t with cs := if south then { t.cs with lastFailS := some s.tb.up, lastCode := eEntropy }
                          else { t.cs with lastFailN := some s.tb.up, lastCode := eEntropy } }
  if last.any (s.tb.up < · + 2 ^ 20) then (u.setEntropy south 3).fatalError eEntropy (ksSource south) 0 else u

end State

/-- ENTROPY_HEALTH_FAIL (R427). -/
def execEntropyHealthFail (keystone : Nat) (s : State) : Out :=
  .next (if s.awake ∧ keystone < 2 ∧ s.entropyOf (keystone == 1) = 1 then s.healthFail (keystone == 1) else s)

end Sys2Proof.Machine
end

