-- ==== Sys2Proof/Machine/Sampling.lean ====
section
/-!
DEFINITION. Sampling (15_serving.md): a row of scores divided by the temperature, its truncation and the choice of a token
(R378), the values kept of the token (R347), and the tokens of one step with or without drafts (R380).
-/
namespace Sys2Proof.Machine

namespace Request

/-- Flag bits of a SUBMIT (R371). -/
def speculate (r : Request) : Bool := r.flags.getLsbD 1
def greedy (r : Request) : Bool := r.flags.getLsbD 2

/-- The tokens before the next one. -/
def sofar (r : Request) : List Word := r.prompt ++ r.tokens.map (·.id)

/-- The number by which scores are divided; greedy ignores the temperature. -/
def divisor (r : Request) : Rat := if r.greedy then 1 else (b32 r.temperature).num

end Request

/-- A row divided by the request's temperature, one rounding to nearest even each (R347, R378; log entry 129). -/
def dividedRow (r : Request) (vocab : Nat) (score : Nat → Word) : List SortPair :=
  (List.range vocab).map fun i => { value := (toB32 .nearestEven (scaleBy (b32 (score i)) (1 / r.divisor))).code, index := i }

/-- The best k of a row, best first, ties by lower id (R197). -/
def bestOf (k : Nat) (row : List SortPair) : List SortPair := row.foldl (fun l x => (insertPair false x l).take k) []

/-- The token of the largest value, the lower id on a tie. -/
def largestToken (row : List SortPair) : Nat := ((bestOf 1 row).map (·.index)).headD 0

/-- exp(v − max) of a candidate, a number where the value is one. -/
def massOf (top : Nat) (x : SortPair) : Rat := (decodeFmt 1 (expDiff 1 x.value top).code).num

/-- The shortest prefix whose masses, after a sum, reach a goal; the first is always kept. -/
def prefixTo (goal : Rat) (mass : SortPair → Rat) : Rat → List SortPair → List SortPair
  | _, [] => []
  | sum, x :: rest => x :: if goal ≤ sum + mass x then [] else prefixTo goal mass (sum + mass x) rest

/-- The candidates a truncated draw keeps (R378). -/
def truncated (r : Request) (row : List SortPair) : List SortPair :=
  let c := bestOf (if r.topK = 0 then 1024 else min r.topK 1024) row
  let top := (c.map (·.value)).headD 0
  let d := c.filter fun x => !(massOf top x < (b32 r.minP).num)
  prefixTo ((b32 r.topP).num * (d.map (massOf top)).sum) (massOf top) 0 d

/-- The tokens the Gumbel-max draw of a request chooses from (R378). -/
def candidates (r : Request) (row : List SortPair) : List SortPair :=
  if r.topK = 0 ∧ r.topP = 0x3F800000 ∧ r.minP = 0 then row else truncated r row

/-- A candidate with the noise of its token added, at E = sample_seed × 2^32 + i and N = 8 + n (R177, R378). -/
def noised (key : List Word) (seed : Word) (n : Nat) (x : SortPair) : SortPair :=
  let g := gumbelDraw (indexedDraw key 0 (8 + n) (seed.toNat * 2 ^ 32 + x.index))
  { x with value := (addOf 1 .nearestEven (decodeFmt 1 x.value) (.fin g)).code }

/-- The token chosen from a row at generated index n (R378). -/
def chosenToken (key : List Word) (r : Request) (n : Nat) (row : List SortPair) : Nat :=
  if r.greedy then largestToken row else largestToken ((candidates r row).map (noised key r.seed n))

/-- Maximum and sum of exponentials of a row as ROWSTAT mode 1 gathers them, 32 columns at a time (R191). -/
def rowSums (row : List SortPair) : Nat × Nat :=
  (chunks 32 (row.length / 32 + 1) (row.map (·.value))).foldl (fun a vs =>
    let g := rowStep 1 1 a.1 a.2 vs
    (g.x, g.y)) (0xFF800000, 0)

/-- lse of a row (R347). -/
def lseOf (row : List SortPair) : Nat :=
  let a := rowSums row
  (addOf 1 .nearestEven (decodeFmt 1 a.1) (decodeFmt 1 (boundedOf 1 fnLog a.2).code)).code

/-- The record of a token chosen from a row (R347). -/
def recordOfToken (row : List SortPair) (c : Nat) : TokenRec :=
  let lse := lseOf row
  let v := (row.getD c { value := 0, index := 0 }).value
  { id := BitVec.ofNat 32 c, lse := BitVec.ofNat 32 lse
    logprob := BitVec.ofNat 32 (addOf 1 .nearestEven (decodeFmt 1 v) (negVal (decodeFmt 1 lse))).code }

/-- The token a model gives a request at generated index n after some tokens. -/
def nextToken (key : List Word) (weights : List (Nat × Bytes)) (vocab : Nat) (r : Request) (n : Nat) (before : List Word) : TokenRec :=
  let row := dividedRow r vocab (Config.score weights before)
  recordOfToken row (chosenToken key r n row)

/-- The tokens of one step that proposes some drafts (R380): drafts are accepted while each is the token the large model
chooses, and the large model's token at the first mismatch, or after the last draft, is kept. -/
def stepTokens (large draft : Nat → List Word → TokenRec) : (drafts n : Nat) → (before : List Word) → List TokenRec
  | 0, n, before => [large n before]
  | k + 1, n, before =>
    let t := large n before
    t :: if (draft n before).id = t.id then stepTokens large draft k (n + 1) (before ++ [t.id]) else []

end Sys2Proof.Machine
end

