-- ==== Sys2Proof/Machine/Serving.lean ====
section
/-!
DEFINITION. Serving (15_serving.md): the service ports (R365), sealed sessions (R366–R373), egress (R385–R387), and
requests from SUBMIT to DONE (R374–R383).
-/
namespace Sys2Proof.Machine

/-! ### Service frames (R365, R366) -/

/-- Ones' complement sum of 16-bit words, most significant byte first. -/
def sum16 : Bytes → Nat
  | a :: b :: rest => 256 * a.toNat + b.toNat + sum16 rest
  | [a] => 256 * a.toNat
  | [] => 0

/-- The UDP checksum over IPv6's pseudo header is right: it is not zero, and the sum folds to 0xFFFF. -/
def udpSumOk (src dst udp : Bytes) : Bool :=
  let total := sum16 (src ++ dst ++ beBytes 4 udp.length ++ [0, 0, 0, 17] ++ udp)
  beNat (slice udp 6 2) != 0 && total != 0 && total % 65535 == 0

/-- A prefix of a length holds an address of 128 bits. -/
def inPrefix (addr pre len : Nat) : Bool := addr >>> (128 - len) == pre >>> (128 - len)

def frameType (f : Bytes) : Nat := fieldLE f 0 1

/-- Type, version and length of a service frame (R366). -/
def frameOk (f : Bytes) : Bool :=
  20 ≤ f.length && [1, 2, 3, 16].contains (frameType f) && fieldLE f 1 1 == 1 && fieldLE f 2 2 == f.length

def frameHead (typ len session seq : Nat) : Bytes :=
  leBytes 1 typ ++ leBytes 1 1 ++ leBytes 2 len ++ leBytes 8 session ++ leBytes 8 seq

/-- The GCM nonce of a direction's seq (R368). -/
def recNonce (iv : Bytes) (seq : Nat) : Bytes := xorBytes (iv.take 8) (leBytes 8 seq) ++ iv.drop 8

/-- A record (R370). -/
def sealedRecord (op flags request : Nat) (body : Bytes) : Bytes :=
  leBytes 1 op ++ leBytes 1 flags ++ leBytes 2 body.length ++ leBytes 4 request ++ zeros 4 ++ body

namespace State

def svPort (s : State) (e : Nat) : SvPort := if e = 1 then s.serving.port1 else s.serving.port0

def setSvPort (s : State) (e : Nat) (v : SvPort) : State :=
  { s with serving := if e = 1 then { s.serving with port1 := v } else { s.serving with port0 := v } }

/-- A client's violation (R373): class 1, at a counter of its port. -/
def clientFault (s : State) (e counter : Nat) : State := s.partner counter (ksSource (e == 1)) sOk (BitVec.ofNat 32 e)

def serviceAddr (s : State) (e : Nat) : Nat := (s.footing.service.getD e (0, 0, 0)).1
def serviceGateway (s : State) (e : Nat) : Nat := (s.footing.service.getD e (0, 0, 0)).2.2

/-- What the checks of R365 make of a frame: a service frame with its source, another port command's business, or
discarded. -/
inductive FrameClass where
  | service (addr udp : Nat) (payload : Bytes)
  | neighbour
  | drop
  deriving DecidableEq, Repr

def classify (s : State) (e : Nat) (f : Bytes) : FrameClass :=
  let ip := f.drop 14
  let len := beNat (slice ip 4 2)
  let body := slice ip 40 len
  let dst := beNat (slice ip 24 16)
  let next := fieldLE ip 6 1
  if 9216 < f.length ∨ f.length < 54 ∨ beNat (slice f 12 2) ≠ 0x86DD ∨ fieldLE ip 0 1 / 16 ≠ 6 ∨ ip.length < 40 + len then .drop
  else if next = 58 then
    if len < 24 then .drop
    else if fieldLE body 0 1 = 135 ∨ fieldLE body 0 1 = 136 then .neighbour else .drop
  else if next ≠ 17 ∨ dst ≠ s.serviceAddr e ∨ len < 8 then .drop
  else
    let payload := body.drop 8
    if beNat (slice body 2 2) = s.footing.svcUdp + 1 ∧ s.footing.hasStorage ∧ beNat (slice body 4 2) = len
        ∧ udpSumOk (slice ip 8 16) (slice ip 24 16) body then .neighbour
    else if beNat (slice body 2 2) ≠ s.footing.svcUdp ∨ beNat (slice body 4 2) ≠ len ∨ ¬ udpSumOk (slice ip 8 16) (slice ip 24 16) body
        ∨ payload.length < 64 ∨ 8192 < payload.length ∨ ¬ frameOk payload then .drop
    else .service (beNat (slice ip 8 16)) (beNat (slice body 0 2)) payload

/-! ### Egress (R385–R387) -/

/-- A channel as it is in force: outside confidential mode an empty table has one implicit channel 0. -/
def chan (s : State) (c : Nat) : Option Channel :=
  if s.footing.channels.isEmpty ∧ ¬ s.footing.confidential then
    if c = 0 then some { kinds := 0xF, prefixes := [(0, 0, 0)] } else none
  else (s.footing.channels.find? fun (x : Nat × Channel) => x.1 == c).map (·.2)

def kindAllowed (s : State) (c kind : Nat) : Bool := (s.chan c).any fun h => h.kinds.getLsbD kind

def addrAllowed (s : State) (c addr : Nat) : Bool := (s.chan c).any fun h => h.prefixes.any fun p => inPrefix addr p.1 p.2.1

def destAllowed (s : State) (c addr udp : Nat) : Bool :=
  (s.chan c).any fun h => h.prefixes.any fun p => inPrefix addr p.1 p.2.1 && (p.2.2 == 0 || p.2.2 == udp)

/-- Send a datagram of a channel, or withhold it (R386). -/
def sendDatagram (s : State) (e c addr udp : Nat) (payload : Bytes) : State :=
  if s.destAllowed c addr udp then s.emit (.datagram e addr udp payload) else s.count (svEgressDeny e) 1

/-! ### Sessions -/

def sess (s : State) (e id : Nat) : Option Session := s.serving.sessions.find? fun x => x.port == e && x.id == id

def setSess (s : State) (v : Session) : State :=
  { s with serving := { s.serving with sessions := s.serving.sessions.map fun (x : Session) => if x.port = v.port ∧ x.id = v.id then v else x } }

/-- Remove a session: its live requests are cancelled, its ended ones released (R373). -/
def dropSession (s : State) (e id : Nat) : State :=
  { s with serving := { s.serving with
    sessions := s.serving.sessions.filter fun (x : Session) => x.port != e || x.id != id
    requests := (s.serving.requests.filter fun (r : Request) => r.port != e || r.session != id || r.stage != .ended).map
      fun (r : Request) => if r.port = e ∧ r.session = id then { r with cancel := true } else r } }

/-- Seal and send one record of a session. -/
def sealRecord (s : State) (v : Session) (record : Bytes) : State :=
  let head := frameHead 0x10 (36 + record.length) v.id v.txSeq
  let c := gcmSeal v.txKey (recNonce v.txIv v.txSeq) head record
  (s.setSess { v with txSeq := v.txSeq + 1 }).emit (.datagram v.port v.addr v.udp (head ++ c.1 ++ c.2))

/-- The kind of a record that a channel must permit (R385). -/
def recordKind (op : Nat) : Option Nat := if op = 0x12 then some 0 else if op = 0x14 then some 2 else none

/-- Send a record on a session, or withhold it (R386); the last record a direction may number is a CLOSE (R368). -/
def sendRecord (s : State) (e id op flags request : Nat) (body : Bytes) : State :=
  match s.sess e id with
  | none => s
  | some v =>
    if ¬ (recordKind op).all (s.kindAllowed v.channel) ∨ ¬ s.destAllowed v.channel v.addr v.udp then s.count (svEgressDeny e) 1
    else if 2 ^ 32 ≤ v.txSeq + 1 then
      (s.sealRecord v (sealedRecord 0x07 0 0 (leBytes 2 eSessExpired.toNat))).dropSession e id
    else s.sealRecord v (sealedRecord op flags request body)

/-- Close a session with a code. -/
def closeSession (s : State) (e id : Nat) (code : Code) : State :=
  (s.sendRecord e id 0x07 0 0 (leBytes 2 code.toNat)).dropSession e id

def sendStatus (s : State) (e id request cls : Nat) (code : Code) : State :=
  s.sendRecord e id 0x11 0 request (leBytes 2 code.toNat ++ leBytes 1 cls ++ [0])

/-! ### The handshake (R367–R369) -/

/-- Why a HELLO is rejected, the first that applies. -/
def helloCode (s : State) (e addr : Nat) (body priv : Bytes) : Code :=
  let c := fieldLE body 88 1
  if ¬ (slice body 89 7).all (· == 0) then eBadField
  else if (s.chan c).isNone ∨ ¬ s.addrAllowed c addr then eEgress
  else if 16384 ≤ (s.serving.sessions.filter fun x => x.port == e).length then eSessFull
  else if (x448 priv (body.take 56)).all (· == 0) then eBadField
  else sOk

/-- Answer a HELLO with ACCEPT or REJECT. -/
def answerHello (s : State) (e addr udp : Nat) (f : Bytes) : State :=
  let body := f.drop 20
  let r := s.drawBytes 96
  let priv := r.take 56
  let code := s.helloCode e addr body priv
  if code ≠ sOk then
    (s.count (svHandshakeFail e) 1).emit
      (.datagram e addr udp (frameHead 3 28 0 0 ++ leBytes 2 code.toNat ++ zeros 6))
  else
    let id := leNat (r.drop 88)
    let front := x448Public priv ++ slice r 56 32 ++ contentDigest (s.reportBody (zeros 32))
    let h := digest (body ++ front)
    let k := shake 88 (ascii "Gnolis session keys" ++ x448 priv (body.take 56) ++ h)
    let v : Session := { id := id, port := e, channel := fieldLE body 88 1, addr := addr, udp := udp, isOpen := false
                         h := h, rxKey := slice k 0 32, txKey := slice k 32 32, rxIv := slice k 64 12, txIv := slice k 76 12
                         txSeq := 0, rxHigh := 0, rxSeen := [], lastFrame := s.tb.up, acceptTick := s.tb.up, tagFails := 0
                         inbox := [] }
    let t := { s.drew 96 with serving := { s.serving with sessions := s.serving.sessions ++ [v] } }
    t.sendDatagram e v.channel addr udp
      (frameHead 2 260 id 0 ++ front ++ edSign s.cs.akPriv "Gnolis session" h ++ zeros 6)

/-- A HELLO arrives (R367, R373): the 65th of a period from one address is discarded; with the DRBG stopped it waits
(R427). -/
def helloFrame (s : State) (e addr udp : Nat) (f : Bytes) : State :=
  let p := s.svPort e
  let n := aget 0 p.hellos addr
  let t := s.setSvPort e { p with hellos := aput 0 p.hellos addr (n + 1) }
  if frameType f ≠ 1 then s
  else if ¬ frameOk f ∨ f.length ≠ 116 then s.clientFault e (svRxDrop e)
  else if 64 ≤ n then t.clientFault e (svHandshakeFail e)
  else if ¬ s.cs.akReady then t.count (svHandshakeFail e) 1
  else if ¬ s.drbgServes (e == 1) then
    t.setSvPort e { t.svPort e with waiting := (t.svPort e).waiting ++ [(addr, udp, f)] }
  else t.answerHello e addr udp f

/-- The HELLOs that waited for the DRBG (R427). -/
def resumeHellos (s : State) (e : Nat) : State :=
  let p := s.svPort e
  p.waiting.foldl (fun (t : State) w => t.answerHello e w.1 w.2.1 w.2.2) (s.setSvPort e { p with waiting := [] })

/-! ### Records (R368, R370, R373) -/

/-- Reserved bits and length of a record's header (R370). -/
def recordFault (r : Bytes) : Option Code :=
  if r.length < 12 then some eBadLength
  else if 2 ≤ fieldLE r 1 1 ∨ fieldLE r 8 4 ≠ 0 then some eBadField
  else if fieldLE r 2 2 + 12 ≠ r.length then some eBadLength
  else none

/-- A record accepted and opened on a session: kept for its own command, or answered here where no command takes it. -/
def takeRecord (s : State) (v : Session) (r : Bytes) : State :=
  let op := fieldLE r 0 1
  let request := fieldLE r 4 4
  if 2 ^ 32 ≤ v.rxHigh then s.closeSession v.port v.id eSessExpired
  else if ¬ v.isOpen ∧ (op ≠ 1 ∨ (recordFault r).isSome) then
    (s.count (svHandshakeFail v.port) 1).closeSession v.port v.id eBadField
  else match recordFault r with
    | some code => s.sendStatus v.port v.id request 0 code
    | none =>
      if op = 0 ∨ 8 ≤ op ∨ (op = 1 ∧ v.isOpen) then s.sendStatus v.port v.id request 0 eBadField
      else s.setSess { v with inbox := v.inbox ++ [r] }

/-- A RECORD frame. -/
def recordFrame (s : State) (e addr udp : Nat) (f : Bytes) : State :=
  let seq := fieldLE f 12 8
  match s.sess e (fieldLE f 4 8) with
  | none => s.clientFault e (svRxDrop e)
  | some v =>
    let ct := slice f 20 (f.length - 36)
    match gcmOpen v.rxKey (recNonce v.rxIv seq) (f.take 20) ct (f.drop (f.length - 16)) with
    | none =>
      let t := (s.setSess { v with tagFails := v.tagFails + 1 }).clientFault e (svAuthFail e)
      if v.tagFails + 1 = 16 then t.closeSession e v.id eSessAbuse else t
    | some r =>
      if (v.rxHigh ≠ 0 ∧ seq + 64 < v.rxHigh) ∨ v.rxSeen.contains seq then s.clientFault e (svReplay e)
      else
        let v1 := { v with rxHigh := max v.rxHigh (seq + 1), rxSeen := (seq :: v.rxSeen).take 64, lastFrame := s.tb.up
                           addr := addr, udp := udp }
        (s.setSess v1).takeRecord v1 r

/-- Take the oldest waiting record of an op: its session, the record, and the state without it. -/
def takeOp (s : State) (e id op : Nat) : Option (Session × Bytes × State) :=
  (s.sess e id).bind fun v =>
    (v.inbox.find? fun r => fieldLE r 0 1 == op).map fun r =>
      (v, r, s.setSess { v with inbox := v.inbox.erase r })

/-- CONFIRM (R369). -/
def confirmRecord (s : State) (v : Session) (r : Bytes) : State :=
  let body := r.drop 12
  let fail (code : Code) : State := (s.count (svHandshakeFail v.port) 1).closeSession v.port v.id code
  let opened := match s.sess v.port v.id with
    | some w => s.setSess { w with isOpen := true }
    | none => s
  if ¬ s.footing.clientAuth then (if body = [0xFF] then opened else fail eBadField)
  else match s.footing.clients.find? fun x => x.1 == fieldLE body 0 1 with
    | none => fail eAuth
    | some k => if body.length = 115 ∧ edVerify k.2 "Gnolis client" v.h (body.drop 1) then opened else fail eAuth

/-! ### Requests (R371, R372) -/

def request (s : State) (e id req : Nat) : Option Request :=
  s.serving.requests.find? fun r => r.port == e && r.session == id && r.id == req

def sameReq (a b : Request) : Bool := a.port == b.port && a.session == b.session && a.id == b.id

def setReq (s : State) (v : Request) : State :=
  { s with serving := { s.serving with requests := s.serving.requests.map fun (r : Request) => if sameReq r v then v else r } }

def dropReq (s : State) (v : Request) : State :=
  { s with serving := { s.serving with requests := s.serving.requests.filter fun (r : Request) => !sameReq r v } }

def modelSlot (s : State) (m : Nat) : Option ModelSlot := (s.footing.models.find? fun (x : Nat × ModelSlot) => x.1 == m).map (·.2)

def queue (s : State) (m c : Nat) : List (Nat × Nat × Nat) := aget [] s.serving.queues (m * 8 + c)

def setQueue (s : State) (m c : Nat) (q : List (Nat × Nat × Nat)) : State :=
  { s with serving := { s.serving with queues := aput [] s.serving.queues (m * 8 + c) q } }

/-- A SUBMIT body's fields as a request. -/
def submitFields (v : Session) (req : Nat) (b : Bytes) : Request :=
  { port := v.port, session := v.id, id := req, model := fieldLE b 0 1, cls := fieldLE b 1 1, flags := b.getD 2 0
    stops := (List.range (fieldLE b 3 1)).map fun i => wordOf (b.drop 40) i
    prompt := (List.range ((b.length - 96) / 4)).map fun i => wordOf (b.drop 96) i
    maxNew := fieldLE b 8 4, temperature := wordOf b 3, topK := fieldLE b 16 2, topP := wordOf b 5, minP := wordOf b 6
    seed := wordOf b 7, deadline := fieldLE b 32 8, stage := .queued, tokens := [], cuts := [], promptDone := 0, drafts := 0
    rollback := 0, mixed := false, weights := [], runs := [], cancel := false, ending := sOk, endTick := 0, endUp := 0 }

/-- A binary32 is finite and lies between two bounds given as codes of non-negative values. -/
def inRange32 (w : Word) (low high : Nat) : Bool := low ≤ w.toNat && w.toNat ≤ high

/-- Fields of a SUBMIT outside their ranges (R371): positive temperature, top_p in (0, 1], min_p in [0, 1). -/
def submitBad (s : State) (b : Bytes) (r : Request) : Bool :=
  let vocab := ((s.modelSlot r.model).map (·.vocab)).getD (2 ^ 32)
  16 ≤ r.model || 8 ≤ r.cls || 8 ≤ r.flags.toNat || 4 < fieldLE b 3 1 || fieldLE b 4 4 == 0 || r.maxNew == 0
    || (!r.flags.getLsbD 2 && !inRange32 r.temperature 1 0x7F7FFFFF) || 1024 < r.topK || fieldLE b 18 2 != 0
    || !inRange32 r.topP 1 0x3F800000 || !inRange32 r.minP 0 0x3F7FFFFF
    || !(slice b (40 + 4 * fieldLE b 3 1) (16 - 4 * fieldLE b 3 1)).all (· == 0) || !(slice b 56 40).all (· == 0)
    || r.stops.any (fun t => vocab ≤ t.toNat) || r.prompt.any (fun t => vocab ≤ t.toNat)

/-- The answer to a SUBMIT, the first refusal that applies. -/
def submitCode (s : State) (v : Session) (b : Bytes) (r : Request) : Code :=
  if b.length < 96 then eBadLength
  else if s.submitBad b r then eBadField
  else if b.length ≠ 96 + 4 * fieldLE b 4 4 then eBadLength
  else match s.modelSlot r.model with
    | none => eModelUnknown
    | some m =>
      if min m.context 1048576 < r.prompt.length + r.maxNew then eServeLength
      else if r.flags.getLsbD 0 ∧ ¬ s.kindAllowed v.channel 1 then eEgress
      else if r.deadline ≠ 0 ∧ r.deadline ≤ s.tb.tick then sDeadlineExpired
      else if m.depths.getD r.cls 0 ≤ (s.queue r.model r.cls).length then eQueueFull
      else sOk

/-- SUBMIT; one whose id is live is answered with the state of the request (log entry 74). -/
def submitRecord (s : State) (v : Session) (r : Bytes) : State :=
  let req := fieldLE r 4 4
  match s.request v.port v.id req with
  | some old => s.sendStatus v.port v.id req old.cls (if old.stage = .ended then old.ending else sOk)
  | none =>
    let q := submitFields v req (r.drop 12)
    let code := s.submitCode v (r.drop 12) q
    if code ≠ sOk then s.sendStatus v.port v.id req q.cls code
    else
      let t := { s with serving := { s.serving with requests := s.serving.requests ++ [q] } }
      (t.setQueue q.model q.cls (s.queue q.model q.cls ++ [(v.port, v.id, req)])).sendStatus v.port v.id req q.cls sOk

/-- A TOKENS record of a request from an index up to another (R370). -/
def sendTokens (s : State) (r : Request) (first last : Nat) (more : Bool) : State :=
  let toks := (r.tokens.drop first).take (last - first)
  if toks.isEmpty then s
  else
    let lps := if r.flags.getLsbD 0 then toks.flatMap fun t => leBytes 4 t.logprob.toNat else []
    s.sendRecord r.port r.session 0x12 (bit01 more) r.id
      (leBytes 4 first ++ leBytes 2 toks.length ++ zeros 2 ++ toks.flatMap (fun t => leBytes 4 t.id.toNat) ++ lps)

/-- The DONE record of a request that has ended (R383). -/
def sendDone (s : State) (r : Request) : State :=
  let usage := match s.sess r.port r.session with
    | some v => s.kindAllowed v.channel 3
    | none => false
  s.sendRecord r.port r.session 0x13 0 r.id
    (leBytes 2 r.ending.toNat ++ leBytes 1 (bit01 r.mixed) ++ [0] ++ leBytes 4 r.tokens.length ++ leBytes 8 r.endTick
      ++ leBytes 4 (if usage then r.promptDone else 0) ++ leBytes 4 (if usage then r.drafts else 0))

/-- RESEND: every TOKENS record from the index wanted, and DONE where the request has ended (R372). -/
def resendRecords (s : State) (v : Session) (r : Bytes) : State :=
  let req := fieldLE r 4 4
  match s.request v.port v.id req with
  | none => s.sendStatus v.port v.id req 0 eReqUnknown
  | some q =>
    if r.length ≠ 16 then s.sendStatus v.port v.id req q.cls eBadLength
    else
      let ends := q.cuts.drop 1 ++ [q.tokens.length]
      let spans := (q.cuts.zip ends).filter fun x => fieldLE r 12 4 < x.2
      let ended := q.stage = .ended
      let t := spans.foldl (fun (t : State) x => t.sendTokens q x.1 x.2 (x.2 < q.tokens.length || !ended)) s
      if ended then t.sendDone q else t

/-- CANCEL: held to the next step boundary; of a request that has ended, too late (R381). -/
def cancelRecord (s : State) (v : Session) (r : Bytes) : State :=
  let req := fieldLE r 4 4
  match s.request v.port v.id req with
  | none => s.sendStatus v.port v.id req 0 eReqUnknown
  | some q =>
    if r.length ≠ 12 then s.sendStatus v.port v.id req q.cls eBadLength
    else if q.stage = .ended then s.sendStatus v.port v.id req q.cls sCancelTooLate
    else s.setReq { q with cancel := true }

/-- ACK: a finished request's output and id are released (R372). -/
def ackRecord (s : State) (v : Session) (r : Bytes) : State :=
  let req := fieldLE r 4 4
  match s.request v.port v.id req with
  | none => s.sendStatus v.port v.id req 0 eReqUnknown
  | some q =>
    if r.length ≠ 12 then s.sendStatus v.port v.id req q.cls eBadLength
    else if q.stage = .ended then s.dropReq q else s

/-- REPORT_REQ (R370, R386, R428). -/
def reportRecord (s : State) (v : Session) (r : Bytes) : State :=
  let req := fieldLE r 4 4
  if ¬ s.kindAllowed v.channel 2 then s.sendStatus v.port v.id req 0 eEgress
  else if r.length ≠ 44 then s.sendStatus v.port v.id req 0 eBadLength
  else if ¬ s.reportRoom then s.sendStatus v.port v.id req 0 eCsBusy
  else s.askReport (r.drop 12) (.session v.port v.id)

/-! ### Step boundaries (R381–R383) -/

/-- The model slot whose group a bay serves. -/
def modelOfBay (s : State) (b : Nat) : Option (Nat × ModelSlot) := s.footing.models.find? fun (x : Nat × ModelSlot) => x.2.bays.getLsbD b

def group (s : State) (m : Nat) : Group := aget {} s.serving.groups m
def setGroup (s : State) (m : Nat) (g : Group) : State := { s with serving := { s.serving with groups := aput {} s.serving.groups m g } }

/-- The weight digest a bay runs on for a model slot: while flips are requested, the old one until its own (R384). -/
def weightsOn (s : State) (m : Nat) (x : ModelSlot) (b : Nat) : Bytes :=
  match (s.group m).replace with
  | some r => if r.ready ∧ r.bays.contains b then r.old else x.weights
  | none => x.weights

/-- The weight digest a bay of a group runs on. -/
def bayWeights (s : State) (b : Nat) : Bytes :=
  match s.modelOfBay b with
  | none => []
  | some x => s.weightsOn x.1 x.2 b

/-- The stream key of a bay's sampler: the first stream of its range, in indexed mode (R170–R172, R378; log entry 131). -/
def samplerKey (s : State) (b : Nat) : List Word := deriveKey (s.bay b).plan.seed (s.bay b).plan.streamFirst.toNat false 0

/-- The draft model's tokens for a request on a bay (R380). -/
def draftToken (s : State) (bay : Nat) (x : ModelSlot) (r : Request) (n : Nat) (before : List Word) : TokenRec :=
  let d := (s.modelSlot x.draft).getD {}
  nextToken (s.samplerKey bay) [(0, s.weightsOn x.draft d x.draftBay)] (min x.vocab d.vocab) r n before

/-- How many drafts of those proposed a step verifies: none without speculate or without a draft bay (R380). -/
def draftsOf (s : State) (x : ModelSlot) (r : Request) (proposed : Nat) : Nat :=
  if r.speculate ∧ x.draftBay ≠ 0xFF ∧ (s.modelSlot x.draft).isSome then min proposed s.footing.specDepth else 0

/-- The tokens a step produces for a request on a bay: in a prefill bay the first one, with the last prompt token; in a
decode bay one, and one more for each draft accepted (R376, R378, R380). -/
def produced (s : State) (bay : Nat) (x : ModelSlot) (r : Request) (proposed : Nat) : List TokenRec :=
  let drafts := if r.stage = .decode bay then s.draftsOf x r proposed else 0
  if r.promptDone < r.prompt.length ∨ (r.stage = .prefill bay ∧ r.tokens ≠ []) then []
  else stepTokens (nextToken (s.samplerKey bay) r.runs x.vocab r) (s.draftToken bay x r) drafts r.tokens.length r.sofar

/-- The tokens of a step that are delivered, and whether the request completed with them: up to a stop token, the
max_new-th token, or the context limit. -/
def deliverTokens (r : Request) (limit : Nat) (toks : List TokenRec) : List TokenRec × Bool :=
  let room := min r.maxNew (limit - r.prompt.length) - r.tokens.length
  let cut := match toks.findIdx? fun t => r.stops.contains t.id with
    | some i => i + 1
    | none => toks.length + 1
  (toks.take (min cut room), cut ≤ toks.length || room ≤ toks.length)

/-- End a request at this boundary. -/
def endReq (s : State) (r : Request) (code : Code) : State :=
  let q := { r with stage := .ended, ending := code, endTick := s.tb.tick, endUp := s.tb.up }
  let t := if code = sDeadlineExpired then s.count (srvExpired r.model r.cls) 1
    else if code = eReqCancelled then s.count (srvCancelled r.model r.cls) 1 else s
  let u := (t.setReq q).sendDone q
  let v := if r.cancel then
      u.sendStatus r.port r.session r.id r.cls (if code = sDeadlineExpired ∨ code = eReqCancelled then sOk else sCancelTooLate)
    else u
  if (s.sess r.port r.session).isNone then v.dropReq q else v

/-- A request with what a step gave it: prompt tokens in pieces of up to 8,192 (R376), drafts accepted, and the drafts to
roll back (R380). -/
def advance (s : State) (bay : Nat) (m : ModelSlot) (r0 : Request) (x : StepResult) : Request × List TokenRec :=
  let r := { r0 with promptDone := min r0.prompt.length (r0.promptDone + min x.prompt 8192) }
  let toks := if x.aborted then [] else s.produced bay m r x.proposed
  let drafts := if r.stage = .decode bay then s.draftsOf m r x.proposed else 0
  ({ r with drafts := r.drafts + (toks.length - 1), rollback := drafts - (toks.length - 1) }, toks)

/-- Settle one running request with what the step gave it (R381, R383). -/
def settleReq (s : State) (bay : Nat) (x : StepResult) : State :=
  match s.request x.port x.session x.request with
  | none => s
  | some r0 =>
    if ¬ (r0.stage = .prefill bay ∨ r0.stage = .decode bay) then s
    else
      let m := (s.modelSlot r0.model).getD {}
      let a := s.advance bay m r0 x
      let r := a.1
      let d := deliverTokens r (min m.context 1048576) a.2
      if r.deadline ≠ 0 ∧ r.deadline < s.tb.tick then (s.setReq r).endReq r sDeadlineExpired
      else if x.aborted then (s.setReq r).endReq r eStepAbort
      else
        let q := { r with tokens := r.tokens ++ d.1, cuts := if d.1.isEmpty then r.cuts else r.cuts ++ [r.tokens.length] }
        let done := d.2 && r.prompt.length ≤ r.promptDone
        let t := (s.setReq q).sendTokens q r.tokens.length q.tokens.length (!done && !r.cancel)
        if done then t.endReq q sCompleted
        else if r.cancel then t.endReq q eReqCancelled
        else t

/-- Requests running on a bay. -/
def running_ (s : State) (b : Nat) : List Request :=
  s.serving.requests.filter fun (r : Request) => r.stage == .prefill b || r.stage == .decode b

/-- The decode bay with the most free batch room, the lower number on a tie; none where none has room (R376). -/
def roomiest (g : Group) (rooms : List (Nat × Nat)) (not_ : Option Nat) : Option Nat :=
  let ok := rooms.filter fun x => g.decode.contains x.1 && 0 < x.2 && some x.1 != not_ && (g.moving.map (·.1)) != some x.1
  let best := (ok.map (·.2)).foldl max 0
  ((ok.filter fun x => x.2 == best).map (·.1)).min?

def useRoom (rooms : List (Nat × Nat)) (b : Nat) : List (Nat × Nat) :=
  rooms.map fun x => if x.1 = b then (b, x.2 - 1) else x

/-- Requests whose prompt is processed move to a decode bay, and those of a decode bay that leaves its role to another
(R376, R377). -/
def moveRequests (s : State) (m bay : Nat) (rooms : List (Nat × Nat)) : State :=
  let g := s.group m
  let leaving := g.moving == some (bay, true)
  ((s.running_ bay).foldl (fun (acc : State × List (Nat × Nat)) r =>
    let due := (r.stage == .prefill bay && r.prompt.length ≤ r.promptDone) || (r.stage == .decode bay && leaving)
    match (if due then roomiest g acc.2 (some bay) else none) with
    | some b => (acc.1.setReq { r with stage := .decode b }, useRoom acc.2 b)
    | none => acc) (s, rooms)).1

/-- The copy of the weights the next step of a bay runs on, noted in its requests (R383, R384). -/
def noteWeights (s : State) (bay : Nat) : State :=
  let w := s.bayWeights bay
  (s.running_ bay).foldl (fun (t : State) r =>
    if r.weights = w then t
    else t.setReq { r with mixed := r.mixed || r.weights ≠ [], weights := w, runs := r.runs ++ [(r.promptDone + r.tokens.length, w)] }) s

/-- Requests of a queue that have expired or are cancelled are settled before admission (R382). -/
def settleQueue (s : State) (m c : Nat) : State :=
  (s.queue m c).foldl (fun (t : State) k =>
    match t.request k.1 k.2.1 k.2.2 with
    | none => t.setQueue m c ((t.queue m c).filter (· ≠ k))
    | some r =>
      if r.deadline ≠ 0 ∧ r.deadline < t.tb.tick then (t.setQueue m c ((t.queue m c).filter (· ≠ k))).endReq r sDeadlineExpired
      else if r.cancel then (t.setQueue m c ((t.queue m c).filter (· ≠ k))).endReq r eReqCancelled
      else t) s

/-- Admission from a class queue while its head fits (R375): the state, the room left, and whether a head did not
fit. -/
def admitQueue (bay m c : Nat) : Nat → State × Nat × Nat × Bool → State × Nat × Nat × Bool
  | 0, a => a
  | n + 1, (s, batch, toks, stop) =>
    match s.queue m c with
    | [] => (s, batch, toks, stop)
    | k :: rest =>
      match s.request k.1 k.2.1 k.2.2 with
      | none => admitQueue bay m c n (s.setQueue m c rest, batch, toks, stop)
      | some r =>
        if stop ∨ batch = 0 ∨ toks < r.prompt.length then (s, batch, toks, true)
        else
          let t := ((s.setQueue m c rest).setReq { r with stage := .prefill bay }).count (srvAdmitted m c) 1
          admitQueue bay m c n (t, batch - 1, toks - r.prompt.length, false)

/-- Admission at a prefill bay's boundary, highest class first. -/
def admitFrom (s : State) (bay m batch toks : Nat) : State :=
  ((List.range 8).foldl (fun (a : State × Nat × Nat × Bool) c => admitQueue bay m c (a.1.queue m c).length a) (s, batch, toks, false)).1

/-- Prompt tokens waiting in a group's queues and prefill bays (R377). -/
def promptWaiting (s : State) (m : Nat) : Nat :=
  ((s.serving.requests.filter fun (r : Request) => r.model == m).map fun (r : Request) =>
    match r.stage with
    | .queued => r.prompt.length
    | .prefill _ => r.prompt.length - r.promptDone
    | _ => 0).sum

/-- The share rule (R377) at a prefill step boundary: a bay is chosen to move (log entry 73). -/
def shareRule (s : State) (m : Nat) : State :=
  let g := s.group m
  let q := s.promptWaiting m
  let f := s.footing
  let hi := if f.svcHi < q then g.hiCount + 1 else 0
  let lo := if q < f.svcLo then g.loCount + 1 else 0
  let pick (l : List Nat) : Nat := l.getD (Config.pickBay s.freeCtr % l.length) 0
  if g.moving.isNone ∧ f.svcHold ≤ hi ∧ 1 < g.decode.length then
    { s with freeCtr := s.freeCtr + 1 }.setGroup m { g with hiCount := 0, loCount := 0, moving := some (pick g.decode, true) }
  else if g.moving.isNone ∧ f.svcHold ≤ lo ∧ 1 < g.prefill.length then
    { s with freeCtr := s.freeCtr + 1 }.setGroup m { g with hiCount := 0, loCount := 0, moving := some (pick g.prefill, false) }
  else s.setGroup m { g with hiCount := hi, loCount := lo }

/-- A bay chosen to move changes its role once its last request has left it (R377). -/
def changeRole (s : State) (m bay : Nat) : State :=
  let g := s.group m
  match g.moving with
  | some (b, toPrefill) =>
    if b = bay ∧ (s.running_ bay).isEmpty then
      s.setGroup m { g with
        moving := none
        prefill := if toPrefill then g.prefill ++ [bay] else g.prefill.filter (· ≠ bay)
        decode := if toPrefill then g.decode.filter (· ≠ bay) else g.decode ++ [bay] }
    else s
  | none => s

/-- The draw epoch of a bay that serves stays 0 (R379). -/
def holdEpoch (s : State) (bay : Nat) : State := s.setBay bay { s.bay bay with epoch := 0, epochNext := none }

/-- SERVING_STEP_BOUNDARY of a bay of a serving group. -/
def stepBoundary (s : State) (bay batch toks : Nat) (rooms : List (Nat × Nat)) (results : List StepResult) : State :=
  match s.modelOfBay bay with
  | none => s
  | some (m, _) =>
    let t := results.foldl (fun (t : State) x => t.settleReq bay x) (s.holdEpoch bay)
    let u := t.moveRequests m bay rooms
    let v := if (u.group m).prefill.contains bay then
        let w := ((List.range 8).foldl (fun (x : State) c => x.settleQueue m c) u).shareRule m
        if (w.group m).moving.map (·.1) = some bay then w else w.admitFrom bay m batch toks
      else u
    (v.changeRole m bay).noteWeights bay

/-! ### Reports (R428, R433) -/

/-- REPORT_COMPLETE: the oldest request's report is signed and sent. -/
def finishReport (s : State) : State :=
  match s.cs.reports with
  | [] => s
  | r :: rest =>
    let report := s.signReport r.body
    let t := ({ s with cs := { s.cs with reports := rest } }).count (csReports s.boot.primaryS) 1
    match r.who with
    | .mgmt conn tag =>
      if t.mgmt.conns.any fun (c : MgmtConn) => c.id == conn then t.emit (.cirid conn (ciridMsg 0x0004 1 tag sOk report)) else t
    | .session e id =>
      let segs := chunks 8128 (report.length / 8128 + 1) report
      segs.zipIdx.foldl (fun (u : State) x =>
        u.sendRecord e id 0x14 0 0 (leBytes 2 x.2 ++ leBytes 2 segs.length ++ zeros 4 ++ x.1)) t

end State

/-! ### The commands -/

/-- ETHERNET_FRAME (R365, R366): a frame that finds the buffer full is discarded. -/
def execEthernetFrame (port : Nat) (frame : Bytes) (bufferFull : Bool) (s : State) : Out :=
  .next (if s.awake ∧ port < 2 ∧ s.footing.present then
      if bufferFull then s.clientFault port (svRxDrop port)
      else match s.classify port frame with
        | .service addr udp payload => s.emit (.service port addr udp payload)
        | .neighbour => s
        | .drop => s.clientFault port (svRxDrop port)
    else s)

/-- NEIGHBOR_SOLICITATION (R365). -/
def execNeighborSolicitation (port source target : Nat) (_sourceMac : Bytes) (s : State) : Out :=
  .next (if s.awake ∧ port < 2 ∧ s.footing.present ∧ target = s.serviceAddr port then s.emit (.advert port source) else s)

/-- NEIGHBOR_ADVERTISEMENT (R365, R388). -/
def execNeighborAdvertisement (port source target : Nat) (mac : Bytes) (s : State) : Out :=
  .next (if s.awake ∧ port < 2 ∧ s.footing.present ∧ source = s.serviceGateway port ∧ target = s.serviceGateway port then
      s.setSvPort port { s.svPort port with gwResolved := true, gwMac := mac }
    else s)

/-- SERVICE_PORT_LINK_CHANGE (R388). -/
def execServicePortLinkChange (port : Nat) (up : Bool) (s : State) : Out :=
  .next (if s.awake ∧ port < 2 then s.setSvPort port { s.svPort port with linkUp := up } else s)

/-- HELLO (R367, R373). -/
def execHello (port addr udp : Nat) (frame : Bytes) (s : State) : Out :=
  .next (if s.awake ∧ port < 2 ∧ s.footing.present then s.helloFrame port addr udp frame else s)

/-- RECORD (R368, R373). -/
def execRecord (port addr udp : Nat) (frame : Bytes) (s : State) : Out :=
  .next (if s.awake ∧ port < 2 ∧ frameType frame = 0x10 ∧ frameOk frame then s.recordFrame port addr udp frame else s)

/-- Run a record's command on the oldest waiting record of an op of an open session. -/
def State.onSealed (s : State) (port session op : Nat) (f : State → Session → Bytes → State) : State :=
  if s.awake then
    match s.takeOp port session op with
    | some (v, r, t) => if v.isOpen || op == 1 then f t v r else s
    | none => s
  else s

/-- CONFIRM (R369). -/
def execConfirm (port session : Nat) (s : State) : Out := .next (s.onSealed port session 1 State.confirmRecord)
/-- SUBMIT (R371). -/
def execSubmit (port session : Nat) (s : State) : Out := .next (s.onSealed port session 2 State.submitRecord)
/-- CANCEL (R381). -/
def execCancelReq (port session : Nat) (s : State) : Out := .next (s.onSealed port session 3 State.cancelRecord)
/-- RESEND (R372). -/
def execResend (port session : Nat) (s : State) : Out := .next (s.onSealed port session 4 State.resendRecords)
/-- ACK (R372). -/
def execAckReq (port session : Nat) (s : State) : Out := .next (s.onSealed port session 5 State.ackRecord)
/-- REPORT_REQ (R370). -/
def execReportReq (port session : Nat) (s : State) : Out := .next (s.onSealed port session 6 State.reportRecord)
/-- CLOSE from the client (R370). -/
def execCloseRecord (port session : Nat) (s : State) : Out :=
  .next (s.onSealed port session 7 fun t v _ => t.dropSession v.port v.id)

/-- CONFIRM_TIMEOUT (R369). -/
def execConfirmTimeout (port session : Nat) (s : State) : Out :=
  .next (match s.sess port session with
    | some v => if s.awake ∧ ¬ v.isOpen ∧ v.acceptTick + 2 ^ 20 ≤ s.tb.up then s.dropSession port session else s
    | none => s)

/-- SESSION_IDLE_TIMEOUT (R369). -/
def execSessionIdleTimeout (port session : Nat) (s : State) : Out :=
  .next (match s.sess port session with
    | some v => if s.awake ∧ v.isOpen ∧ v.lastFrame + s.footing.idleTicks ≤ s.tb.up then s.dropSession port session else s
    | none => s)

/-- OUTPUT_RETAIN_TIMEOUT (R372). -/
def execOutputRetainTimeout (port session request : Nat) (s : State) : Out :=
  .next (match s.request port session request with
    | some r => if s.awake ∧ r.stage = .ended ∧ r.endUp + s.footing.retainTicks ≤ s.tb.up then s.dropReq r else s
    | none => s)

/-- SERVING_STEP_BOUNDARY (R375–R377, R381–R383). -/
def execServingStepBoundary (bay batchRoom tokenRoom : Nat) (rooms : List (Nat × Nat)) (results : List StepResult) (s : State) : Out :=
  .next (if s.awake ∧ bay < 64 then s.stepBoundary bay batchRoom tokenRoom rooms results else s)

end Sys2Proof.Machine
end

