-- ==== Sys2Proof/Machine/Checkpoint.lean ====
section
/-!
DEFINITION. The job's axes (R313), the reduction tree (R58, R480), and buddy checkpoints and mirrors (R330–R335, R481):
the slot image, its sending, its keeping, and the restore.
-/
namespace Sys2Proof.Machine
namespace State

/-! ### Job coordinates (R313, R401) -/

/-- Job index of a place in the system's coordinates, none outside the job's box. -/
def jobAt (s : State) (c : List Nat) : Option Nat :=
  let p := s.footing.train
  let f := s.footing
  let x := (c.getD 0 0 + f.ex - f.originX) % f.ex
  let y := (c.getD 1 0 + f.ey - f.originY) % f.ey
  let z := (c.getD 2 0 + f.ez - f.originZ) % f.ez
  if p.enable ∧ x < p.ex ∧ y < p.ey ∧ z < p.ez then some (x + p.ex * (y + p.ey * z)) else none

/-- The device of the system at a job index's place. -/
def placeOfJob (s : State) (j : Nat) : Nat :=
  let p := s.footing.train
  let f := s.footing
  s.devAt [(j % p.ex + f.originX) % f.ex, (j / p.ex % p.ey + f.originY) % f.ey, (j / (p.ex * p.ey) + f.originZ) % f.ez]

/-- A device's number, or that of the host its role was re-mapped to (R483). -/
def hostOf (s : State) (d : Nat) : Nat := ((s.system.remap.find? fun x => x.1 == d).map (·.2)).getD d

/-- The job index of the role a device plays: of a re-mapped role it hosts, else its own unless another device hosts
that (R483, R485). -/
def jobIndexOf (s : State) (d : Nat) : Option Nat :=
  match s.system.remap.find? fun x => x.2 == d with
  | some x => s.jobAt (s.coordsOf x.1)
  | none => if s.system.remap.any fun x => x.1 == d then none else s.jobAt (s.coordsOf d)

/-- The job index this device plays. -/
def jobIndex (s : State) : Option Nat := s.jobIndexOf s.system.device

/-- Tensor, pipeline and data index of a job index. -/
def axesOf (s : State) (j : Nat) : Nat × Nat × Nat :=
  let p := s.footing.train
  (j % p.t, j / p.t % p.p, j / (p.t * p.p))

def jobOf (s : State) (a : Nat × Nat × Nat) : Nat :=
  let p := s.footing.train
  a.1 + p.t * (a.2.1 + p.p * a.2.2)

/-- The next or previous index on the buddy's axis: data, pipeline, tensor (R330). -/
def buddyJob (s : State) (j : Nat) (forward : Bool) : Nat :=
  let p := s.footing.train
  let a := s.axesOf j
  let step (n i : Nat) : Nat := if forward then (i + 1) % n else (i + n - 1) % n
  if 1 < p.d then s.jobOf (a.1, a.2.1, step p.d a.2.2)
  else if 1 < p.p then s.jobOf (a.1, step p.p a.2.1, a.2.2)
  else s.jobOf (step p.t a.1, a.2.1, a.2.2)

/-- The buddy of this device, and the device whose buddy it is. -/
def buddy (s : State) : Option Nat := s.jobIndex.map fun j => s.hostOf (s.placeOfJob (s.buddyJob j true))
def ward (s : State) : Option Nat := s.jobIndex.map fun j => s.hostOf (s.placeOfJob (s.buddyJob j false))

/-- Every device of the job. -/
def jobDevices (s : State) : List Nat :=
  (List.range (s.footing.train.ex * s.footing.train.ey * s.footing.train.ez)).map fun j => s.hostOf (s.placeOfJob j)

/-! ### The reduction tree, removed devices left out (R58, R480; log entry 9) -/

def treeUp (s : State) : Nat → Nat → Nat
  | 0, d => d
  | n + 1, d =>
    let p := Config.treeParent s.system.voteRoot d
    if s.system.removed.contains p ∧ p ≠ s.system.voteRoot then s.treeUp n p else p

def treeDown (s : State) : Nat → Nat → List Nat
  | 0, _ => []
  | n + 1, d => (Config.treeChildren s.system.voteRoot d).flatMap fun c =>
      if s.system.removed.contains c then s.treeDown n c else [c]

def isRoot (s : State) : Bool := s.system.voteRoot == s.system.device
def parent (s : State) : Nat := s.treeUp 16 s.system.device
def children (s : State) : List Nat := s.treeDown 16 s.system.device

/-! ### The slot image (R332) -/

/-- The state record of the bays. -/
def bayRecords (s : State) : Bytes :=
  (List.range 64).flatMap fun b =>
    let v := s.bay b
    if v.plan.role = 4 then
      leBytes 1 b ++ zeros 7 ++ leBytes 8 v.plan.seed.toNat ++ leBytes 8 v.epoch.toNat ++ leBytes 4 v.plan.streamFirst.toNat
        ++ leBytes 4 v.restoreEpoch.toNat
    else []

/-- One entry's row of the table, and its sectors; first is its first sector in the body. -/
def ckptEntry (id fmt tiles first : Nat) : Bytes :=
  leBytes 4 id ++ leBytes 1 fmt ++ zeros 3 ++ leBytes 4 tiles ++ leBytes 4 first

/-- A tile of n bytes of a byte object, its last part padded with zeros. -/
def bytesTile (b : Bytes) (k : Nat) : Bytes := slice (b ++ zeros 4096) (4096 * k) 4096

/-- Entry table and body of the state record. -/
def ckptRecord (s : State) : Bytes × Bytes :=
  let rec0 := s.bayRecords
  let n := (rec0.length + 4095) / 4096
  (ckptEntry 0 0xF n 0, (List.range n).flatMap fun k => sieveEncode true 0 0 (bytesTile rec0 k))

/-- One object as the checkpoint writer reads and compresses it, after the entries and body before it. -/
def ckptObject (s : State) (id : Nat) (read : ObjRead) (before : Bytes × Bytes) : State × Option (Bytes × Bytes) :=
  match s.obj id with
  | none => (s, some before)
  | some o =>
    let r := s.fetchTiles id o read 0 o.tiles
    (r.1, r.2.map fun ts => (before.1 ++ ckptEntry id (if o.bytesKind then 0xF else o.fmt) o.tiles (before.2.length / 64),
      before.2 ++ ts.flatMap (sieveEncode o.bytesKind o.fmt id)))

/-- What reading an object by its id showed. -/
def readOf (reads : List (Nat × ObjRead)) (id : Nat) : ObjRead := ((reads.find? fun x => x.1 == id).map (·.2)).getD []

/-- Entry table and body of the state record and a list of objects; none where a tile is uncorrectable. -/
def ckptBody (s : State) (objs : List Nat) (reads : List (Nat × ObjRead)) : State × Option (Bytes × Bytes) :=
  objs.foldl (fun (acc : State × Option (Bytes × Bytes)) id =>
    match acc.2 with
    | none => acc
    | some b => acc.1.ckptObject id (readOf reads id) b) (s, some s.ckptRecord)

def ckptMagic : Nat := 0x4B434247

/-- The 64-byte header of a slot. -/
def ckptHeader (state step source entries sectors : Nat) (dig : Bytes) : Bytes :=
  leBytes 4 ckptMagic ++ leBytes 2 1 ++ leBytes 1 state ++ [0] ++ leBytes 8 step ++ leBytes 2 source ++ leBytes 2 entries
    ++ leBytes 4 sectors ++ slice dig 0 32 ++ zeros 8

/-- The header and the rest of a slot of step t, from its entry table and body; the rest is in whole sectors. -/
def ckptImage (s : State) (b : Bytes × Bytes) (state : Nat) : Bytes × Bytes :=
  let raw := b.1 ++ b.2
  let rest := raw ++ zeros ((64 - raw.length % 64) % 64)
  (ckptHeader state s.turn.step s.system.device (b.1.length / 16) (b.2.length / 64) (digest raw), rest)

/-! ### Where a slot lies (R258, R331, R481) -/

/-- Sectors a kept slot has room for: half of the region, or a mirror slot. -/
def slotSectors (s : State) : Nat :=
  let room := s.ckpt.slotSize * s.ckpt.shares.length
  if s.system.spare ∨ s.ckpt.shrunk then room else min room (s.footing.train.buddySectors / 2)

/-- The unit and sector of sector k of slot i: share k mod n, where the slot takes a run of its own (log entry 67). -/
def slotPlaceOf (s : State) (i k : Nat) : Nat × Nat :=
  let n := max 1 s.ckpt.shares.length
  (s.ckpt.shares.getD (k % n) 0, i * s.ckpt.slotSize + k / n)

/-- Write whole sectors of a slot; a fetched one (from 32 on) lies in no unit. -/
def writeSlotData (s : State) (i first : Nat) (data : Bytes) : State :=
  if 32 ≤ i then
    let x : CkptSlot := aget {} s.ckpt.slots i
    { s with ckpt := { s.ckpt with slots := aput {} s.ckpt.slots i { x with data := awrite 0 x.data (64 * first) data } } }
  else (List.range (data.length / 64)).foldl (fun (t : State) j =>
    let w := t.slotPlaceOf i (first + j)
    t.writeSectors w.1 w.2 (slice data (64 * j) 64)) s

/-- n bytes of a slot from an offset. -/
def slotData (s : State) (i off n : Nat) : Bytes :=
  if 32 ≤ i then aread 0 (aget ({} : CkptSlot) s.ckpt.slots i).data off n
  else slice ((List.range ((off % 64 + n + 63) / 64)).flatMap fun j =>
    let w := s.slotPlaceOf i (off / 64 + j)
    s.readSectors w.1 w.2 1) (off % 64) n

/-! ### Sending (R333, R481) -/

/-- A slot's messages in order: the header as writing, the rest, the committed header. -/
def ckptMessages (head rest committed : Bytes) : List (Nat × Bytes) :=
  (0, head) :: ((chunks 4096 rest.length rest).zipIdx.map fun x => (1 + 64 * x.2, x.1)) ++ [(0, committed)]

/-- Send a slot to a device: to the spare over a standby port. -/
def sendSlot (s : State) (dest : Nat) (mirror : Bool) (msgs : List (Nat × Bytes)) : State :=
  msgs.foldl (fun (t : State) x =>
    let h : MsgHdr := { typ := 0x20, arg := x.1 }
    match (if mirror then t.standbyPort 0 none else none) with
    | some p => t.sendOnPort p dest h x.2
    | none => t.sendVia none 0 dest h x.2) s

/-- Where a device's state goes: its buddy with ckpt_enable, and its spare with cairns (R330, R481). -/
def ckptDests (s : State) : List (Nat × Bool) :=
  (if s.footing.train.ckpt then (s.buddy.map fun d => (d, false)).toList else [])
    ++ if s.footing.cairns ∧ s.footing.train.enable ∧ ¬ s.system.noSpare then [(16320 + s.cairnNum s.selfCoords, true)] else []

/-- Why a checkpoint is not begun: it does not fit the buddy's slot (R333). -/
def ckptTooBig (s : State) (rest : Bytes) : Bool :=
  s.footing.train.ckpt && s.footing.train.buddySectors / 2 < 1 + rest.length / 64

/-- A checkpoint ends with an error before anything is sent. -/
def failCkpt (s : State) (code : Code) : State :=
  State.count { s with ckpt := { s.ckpt with lastCode := code, sending := s.turn.step } } ckptFail 1

/-- CKPT_WRITE: the step's state is read and goes to every destination. One whose source is uncorrectable is not begun
(log entry 125), nor one that does not fit. -/
def writeCkpt (s : State) (objs : List Nat) (reads : List (Nat × ObjRead)) : State :=
  let dests := s.ckptDests
  if dests.isEmpty ∨ s.system.spare ∨ s.turn.step ≤ s.ckpt.sending ∨ 2 ≤ s.ckpt.state ∨ objs.any s.heldObj then s
  else
    let r := s.ckptBody objs reads
    match r.2 with
    | none => r.1.failCkpt eStepAbort
    | some b =>
      let img := r.1.ckptImage b 1
      if r.1.ckptTooBig img.2 then (r.1.failCkpt eCkptSpace).degrade 8 (ksSource false) eCkptSpace 0
      else
        let t := dests.foldl (fun (t : State) d => t.sendSlot d.1 d.2 (ckptMessages img.1 img.2 (r.1.ckptImage b 2).1)) r.1
        { t with ckpt := { t.ckpt with state := 3, sending := s.turn.step, sendTick := s.tb.up, awaiting := dests.map (·.1) } }

/-! ### Keeping (R331, R333, R481) -/

/-- The device a host fetches the failed role's state from (R480, R483): the failed device's buddy. -/
def fetchingFrom (s : State) : Option Nat :=
  match s.system.remap.find? fun x => x.2 == s.system.device with
  | some x => (s.jobAt (s.coordsOf x.1)).map fun j => s.hostOf (s.placeOfJob (s.buddyJob j true))
  | none => none

/-- The slot of this device a source's checkpoint of a step is kept in, if it keeps one. -/
def slotFor (s : State) (source step : Nat) : Option Nat :=
  if s.system.spare ∧ ¬ s.system.substituting then
    let c := s.coordsOf source
    if s.isDevice source ∧ 16320 + s.cairnNum c = s.system.device then
      some (2 * (c.getD 0 0 % 2 + 2 * (c.getD 1 0 % 2) + 4 * (c.getD 2 0 % 2)) + step % 2)
    else none
  else if s.ward = some source ∧ s.footing.train.ckpt ∧ ¬ s.ckpt.shares.isEmpty then some (step % 2)
  else if s.fetchingFrom = some source then some (32 + step % 2)
  else none

def slot (s : State) (i : Nat) : CkptSlot := aget {} s.ckpt.slots i
def setSlot (s : State) (i : Nat) (v : CkptSlot) : State := { s with ckpt := { s.ckpt with slots := aput {} s.ckpt.slots i v } }

/-- The slot a source is writing. -/
def writingSlot (s : State) (source : Nat) : Option Nat :=
  (s.ckpt.slots.find? fun c => c.2.source == source && c.2.state == 1).map (·.1)

/-- CKPT_DATA: sectors of a slot; the committed header is acknowledged. -/
def takeCkpt (s : State) (source offset : Nat) (data : Bytes) : State :=
  let step := fieldLE data 8 8
  let st := fieldLE data 6 1
  let header := offset = 0 ∧ fieldLE data 0 4 = ckptMagic
  match (if header then s.slotFor source step else s.writingSlot source) with
  | none => s
  | some i =>
    if i < 32 ∧ s.slotSectors < offset + data.length / 64 then s
    else if ¬ header then s.writeSlotData i offset data
    else
      let base := if st = 1 then [] else (s.slot i).data
      let t := (s.setSlot i { state := if st ≤ 2 then st else 0, step := step, source := source, data := base }).writeSlotData i 0 data
      if st = 2 then t.sendVia none 0 source { typ := 0x21, arg := step % 2 ^ 32 } [] else t

/-- Bytes of the entry table and body of a slot, by its header. -/
def slotLength (s : State) (i : Nat) : Nat := 16 * leNat (s.slotData i 18 2) + 64 * leNat (s.slotData i 20 4)

/-- A committed slot whose digest matches (R335, R337). -/
def slotGood (s : State) (i : Nat) : Bool :=
  (s.slot i).state == 2 && digest (s.slotData i 64 (s.slotLength i)) == s.slotData i 24 32

/-- Newest committed step held, of a source where one is given. -/
def heldStep (s : State) (source : Option Nat) : Nat :=
  ((s.ckpt.slots.filter fun c => c.2.state == 2 && (source.isNone || source == some c.2.source)).map fun c => c.2.step).foldl max 0

/-! ### Acknowledgement (R333, R334) -/

/-- CKPT_ACK. -/
def ackCkpt (s : State) (source : Nat) (low : Word) : State :=
  if s.ckpt.state ≠ 3 ∨ ¬ s.ckpt.awaiting.contains source ∨ low ≠ BitVec.ofNat 32 s.ckpt.sending then s
  else
    let left := s.ckpt.awaiting.erase source
    if left.isEmpty then
      ({ s with ckpt := { s.ckpt with state := 1, awaiting := [], sent := s.ckpt.sending, lastCode := sOk, holding := false
                                      peerFails := 0 } }).count ckptWrites 1
    else { s with ckpt := { s.ckpt with awaiting := left } }

/-- A device whose checkpoint failed at two consecutive steps names its buddy to the vote root (R479; log entry 66). -/
def reportBuddy (s : State) : State :=
  match s.buddy with
  | some d => if s.ckpt.peerFails = 2 then s.emit (.mortar 4 d) else s
  | none => s

/-- CKPT_TIMEOUT. -/
def ckptTimeout (s : State) : State :=
  if (s.ckpt.state = 2 ∨ s.ckpt.state = 3) ∧ s.ckpt.sendTick + s.footing.train.ckptTimeout ≤ s.tb.up then
    let t := { s with ckpt := { s.ckpt with state := 1, awaiting := [], lastCode := eCkptPeer, peerFails := s.ckpt.peerFails + 1 } }
    ((t.count ckptFail 1).alarm 4 eCkptPeer 0).reportBuddy
  else s

/-! ### Restore (R335, R481) -/

/-- Where each of n tiles of an object begins in a slot's body, and its sectors. -/
def slotTiles (s : State) (i : Nat) : Nat → Nat → List (Nat × Nat)
  | _, 0 => []
  | at_, n + 1 =>
    let c := leNat (s.slotData i (at_ + 2) 2)
    (at_, c) :: slotTiles s i (at_ + 64 * c) n

/-- One object of a slot, made in Loam of the slot's sectors in place of what stands under its id (log entry 67). -/
def restoreObj (s : State) (i body : Nat) (e : Bytes) : State × Code :=
  let id := fieldLE e 0 4
  let bytesKind := decide (fieldLE e 4 1 = 0xF)
  let fmt := if bytesKind then 0 else fieldLE e 4 1
  let tiles := fieldLE e 8 4
  let at_ := s.slotTiles i (body + 64 * fieldLE e 12 4) tiles
  if id = 0 then (s, sOk)
  else
    let t := match s.obj id with
      | some o => s.deleteObj id o
      | none => s
    t.makeLoam id { bytesKind := bytesKind, fmt := fmt, tiles := tiles, size := tiles * tileSize bytesKind fmt, residence := .loam
                    creating := false, charged := ownerOf id } fun k =>
      s.slotData i (at_.getD k (0, 0)).1 (64 * (at_.getD k (0, 0)).2)

/-- The state record of one bay. -/
def restoreBayRecord (s : State) (e : Bytes) : State :=
  let b := fieldLE e 0 1
  let v := s.bay b
  if v.plan.role = 4 ∧ ¬ e.all (· == 0) then
    s.setBay b { v with epoch := BitVec.ofNat 64 (fieldLE e 16 8), epochNext := none
                        restoreEpoch := BitVec.ofNat 32 (fieldLE e 28 4 + 1) }
  else s

/-- The bays' state record of a slot (R332), the first object of its body. -/
def slotRecord (s : State) (i body tiles : Nat) : Bytes :=
  (s.slotTiles i body tiles).flatMap fun w => (sieveDecode true 0 0 w.2 (s.slotData i w.1 (64 * w.2))).getD []

/-- Restore a device's state from a slot: its objects, its bays' epochs, and the step it goes on from; the code of an
object that has no room ends it (log entry 67). -/
def restoreSlot (s : State) (i : Nat) : State :=
  let n := leNat (s.slotData i 18 2)
  let body := 64 + 16 * n
  let entries := (List.range n).map fun j => s.slotData i (64 + 16 * j) 16
  let r := entries.foldl (fun (acc : State × Code) e =>
    if acc.2 ≠ sOk then acc else acc.1.restoreObj i body e) (s, sOk)
  let t := { r.1 with ckpt := { r.1.ckpt with lastCode := r.2 } }
  if r.2 ≠ sOk then t
  else
    let u := (chunks 32 64 (s.slotRecord i body (fieldLE (entries.headD []) 8 4))).foldl (fun (t : State) e => t.restoreBayRecord e) t
    let step := (s.slot i).step
    { u with
      turn := { u.turn with step := step }
      cs := { u.cs with origin := s.slotData i 24 32, lineageFlags := u.cs.lineageFlags ||| 1
                        updates := step + 1 - u.footing.train.firstStep } }

/-! ### A host takes a failed role's state (R483) -/

/-- Ask the failed role's buddy for its slots. -/
def fetchState (s : State) (j : Nat) : State :=
  match s.fetchingFrom with
  | some d => [0, 1].foldl (fun (t : State) k =>
      t.sendMsg d { typ := 0x30, arg := 0x0803 } (leBytes 4 j ++ leBytes 1 k ++ zeros 3)) s
  | none => s

/-- STATE_FETCH at the buddy: the slot asked for, where it is the newest committed one it keeps of the role. -/
def answerFetch (s : State) (source job k : Nat) : State :=
  let f := s.placeOfJob job
  let x := s.slot k
  if x.state = 2 ∧ (x.source = f ∨ x.source = s.hostOf f) ∧ x.step = s.heldStep (some x.source) then
    let done := s.slotData k 0 64
    s.sendSlot source false (ckptMessages (lset done 6 1) (s.slotData k 64 ((s.slotLength k + 63) / 64 * 64)) done)
  else s

/-- The host has the role's slot whole: it restores from it and tells the job. -/
def hostRestore (s : State) (source : Nat) : State :=
  if s.fetchingFrom = some source ∧ ¬ s.system.hostReady.contains s.system.device then
    match s.ckpt.slots.find? fun (c : Nat × CkptSlot) => 32 ≤ c.1 && s.slotGood c.1 with
    | some c =>
      let t := s.restoreSlot c.1
      let u := { t with ckpt := { t.ckpt with slots := t.ckpt.slots.filter fun (e : Nat × CkptSlot) => e.1 < 32 }
                        system := { t.system with hostReady := t.system.hostReady ++ [t.system.device] } }
      u.sendAll (u.jobDevices.filter (· ≠ u.system.device)) { typ := 0x30, arg := 0x0802 } (leBytes 2 u.system.device ++ zeros 6)
    | none => s
  else s

end State

/-- CKPT_WRITE (R333, R481): of the objects R332 names. -/
def execCkptWrite (objects : List Nat) (s : State) (read : List (Nat × ObjRead) := []) : Out :=
  .next (if s.awake ∧ s.footing.train.enable then s.writeCkpt objects read else s)

/-- CKPT_DATA (R333). -/
def execCkptData (source offset : Nat) (sectors : Bytes) (s : State) : Out :=
  .next (if s.awake then (s.takeCkpt source offset sectors).hostRestore source else s)

/-- CKPT_ACK (R333, R334). -/
def execCkptAck (source : Nat) (stepLow : Word) (s : State) : Out := .next (if s.awake then s.ackCkpt source stepLow else s)

/-- CKPT_TIMEOUT (R333). -/
def execCkptTimeout (s : State) : Out := .next (if s.awake then s.ckptTimeout else s)

end Sys2Proof.Machine
end

