-- ==== Sys2Proof/Machine/Relays.lean ====
section
/-!
DEFINITION. Relay chains (R220–R225, R231): the relay brick, the relay channels and their tokens, and the commands
that open, close and splice them.
-/
namespace Sys2Proof.Machine

/-- The in stream a channel's configuration names: bay, rank, stream (R231). -/
def relayStream (r : Relay) : Nat × Nat × Nat := (bits r.cfg 4 6, bits r.cfg 10 12, bits r.cfg 22 4)
def relayTapped (r : Relay) : Bool := r.egress && bits r.cfg 26 1 == 1
def relayPeerDev (r : Relay) : Nat := bits r.peer 0 14
def relayPeerCh (r : Relay) : Nat := bits r.peer 14 5
/-- The member of a channel is its Keystone's (R404); its first-hop port. -/
def relayMember (c : Nat) : Nat := c / 16
def relayPort (c : Nat) (r : Relay) : Nat := 8 * relayMember c + bits r.cfg 0 4 % 8
def relaySource (c : Nat) : Nat := ksSource (16 ≤ c)

/-- The format word of a relay brick's kept copy: that of its first program 2 write MOVE with target 18. -/
def keptFormat (m : Memory) : Option FormatWord :=
  ((progBody m 2).find? fun k =>
    let w := progWord m 2 k
    progOp w == 3 && moveWrite w && moveTarget w == 18).map fun k => formatWord m (moveFormat (progWord m 2 k))

/-- Bytes of the tiles a relay brick's buffers hold: those of its kept copy's compute format, else a whole slot
(log entry 57). -/
def relayTileBytes (m : Memory) (i : Nat) : Nat :=
  match keptFormat m with
  | some f => tileSize false f.compute
  | none => (streamWord m i).slotUnits * 256

def tilesPerSlot (m : Memory) (i : Nat) : Nat := max 1 ((streamWord m i).slotUnits * 256 / relayTileBytes m i)

namespace State

/-- The relay brick a channel's configuration names. -/
def relayBrick (s : State) (r : Relay) : Nat := (s.bricksOf (relayStream r).1).getD (relayStream r).2.1 0

/-- The open tapped egress of an in stream (R221). -/
def tapOf (s : State) (b rank i : Nat) : Option Nat :=
  (List.range 32).find? fun c =>
    let r := s.relay c
    r.state == 1 && relayTapped r && relayStream r == (b, rank, i)

/-! ### The relay brick (R220) -/

/-- The out streams of a brick. -/
def outStreams (k : Brick) : List Nat := (List.range 16).filter fun i => (k.stream i).bound && (k.stream i).out

/-- A buffer waits on an in stream for the relay: a handle in its queue, or a half posted while it holds no other. -/
def relayWaits (k : Brick) (i : Nat) : Bool :=
  let e := k.stream i
  e.bound && !e.out && (if (streamWord k.conf i).swap then e.swapPosted.isSome && e.relayTaken.isEmpty else !e.queue.isEmpty)

/-- The in stream served next: the first with a buffer at or after the rotating pointer. -/
def relayNext (k : Brick) : Option Nat := ((List.range 16).map fun j => (k.relayPtr + j) % 16).find? (relayWaits k)

/-- The tiles of a buffer as results for the kept copy. -/
def keptTiles (m : Memory) (tag : Nat) (bs : Bytes) : List ResultTile :=
  match keptFormat m with
  | none => []
  | some f => (chunks (tileSize false f.compute) bs.length bs).map fun t =>
      { raw := false, wide := f.compute == 0, values := tileCodes f.compute t, tag := tag, words := [] }

def slotBytes (m : Memory) (i : Nat) : Nat := (streamWord m i).slotUnits * 256

/-- An out stream has the slots the tiles of a buffer fill. -/
def relayRoom (s : State) (n o size : Nat) : Bool :=
  let k := s.brick n
  let e := k.stream o
  s.slotReady n o && (e.bytes + size - 1) / slotBytes k.conf o < e.free.length

/-- One tile into the current slot of an out stream, which is posted once no further tile fits. -/
def forwardTile (b n o tag : Nat) (s : State) (tile : Bytes) : State :=
  let t := s.writeSlot b n o reqFunction tile tag
  let k := t.brick n
  if slotBytes k.conf o < (k.stream o).bytes + tile.length then t.postSlot b n o reqFunction else t

/-- The buffers an out stream must have posted before one whose last tile it holds now may be released. -/
def postsNeeded (k : Brick) (o : Nat) : Nat × Nat :=
  let e := k.stream o
  (o, e.count.toNat + bit01 (e.bytes != 0))

/-- Take a buffer: each tile into the current slot of every out stream, and to the kept copy. -/
def relayTake (s : State) (b n i : Nat) (ecc : Ecc) : State :=
  let k := s.brick n
  let e := k.stream i
  let w := streamWord k.conf i
  let h := if w.swap then e.swapPosted.getD 0 else e.queue.headD 0
  let bs := s.readBuffer b n h 0 (aget 0 e.filled (slotOf w h))
  let outs := outStreams k
  let full := outs.filter fun o => !s.relayRoom n o bs.length
  if !full.isEmpty then full.foldl (fun (t : State) o => t.stallOut n o) s
  else if ¬ k.results.isEmpty then s
  else
    let tag := handleTag w.tagBits h
    let t := if w.swap then s.handOver b n i h
      else s.setBrick n (k.setStream i { e with queue := e.queue.erase h, count := e.count + 1 })
    let tiles := chunks (relayTileBytes k.conf i) bs.length bs
    let u := outs.foldl (fun (u : State) o => tiles.foldl (forwardTile b n o tag) u) t
    let k2 := u.brick n
    let e2 := k2.stream i
    let take : RelayTake := { handle := h, needs := outs.map (postsNeeded k2), told := false }
    let v := u.setBrick n { k2.setStream i { e2 with relayTaken := e2.relayTaken ++ [take] } with
      relayPtr := (i + 1) % 16, results := keptTiles k.conf tag bs }
    v.consumeEcc b n (handleSpace h) (handleAddr h * 256) ecc

/-- A PROGRESS of a channel is still on its way. -/
def progressComing (s : State) (c : Nat) : Bool :=
  s.net.grit.any fun m => m.p.kind == 10 && m.p.dest == ksEndpoint c && m.p.stream == c % 16

/-- Every slot that holds the buffer's tiles has been posted (R220). -/
def takePosted (k : Brick) (x : RelayTake) : Bool := x.needs.all fun y => y.2 ≤ (k.stream y.1).count.toNat

/-- A buffer is done with: out of the list, and on a ring stream released. -/
def relayFree (s : State) (b n i : Nat) (x : RelayTake) : State :=
  let k := s.brick n
  let e := k.stream i
  let t := s.setBrick n (k.setStream i { e with relayTaken := e.relayTaken.erase x })
  if (streamWord k.conf i).swap then t else t.releaseBuffer b n i reqFunction x.handle

/-- Release the oldest buffer of a stream once its slots are posted, its kept copy is written and, on a tapped stream,
the egress has been told of its tiles and has sent them (R220, R221; log entry 58); none where it must wait. -/
def relayRelease (s : State) (b n i : Nat) : Option State :=
  let k := s.brick n
  let e := k.stream i
  match e.relayTaken with
  | [] => none
  | x :: rest =>
    if ¬ k.results.isEmpty ∨ ¬ takePosted k x then none
    else match s.tapOf b ((s.rankOf b n).getD 0) i with
      | none => some (s.relayFree b n i x)
      | some c =>
        if !x.told then
          let tiles := max 1 (aget 0 e.filled (slotOf (streamWord k.conf i) x.handle) / relayTileBytes k.conf i)
          some ((s.setBrick n (k.setStream i { e with relayTaken := { x with told := true } :: rest })).sendGrit reqFunction
            (gritOf 10 (ksEndpoint c) n (c % 16) 0 (BitVec.ofNat 32 tiles) []))
        else if !s.progressComing c && (s.relay c).avail ≤ (s.relay c).next then some (s.relayFree b n i x)
        else none

/-- One event of a relay brick: a buffer is released where one may be, else the next is taken. -/
def relayBuffer (s : State) (b n : Nat) (ecc : Ecc) : State :=
  let k := s.brick n
  if functionOf k.conf ≠ 6 then s
  else match (List.range 16).findSome? (s.relayRelease b n) with
    | some t => t
    | none => match relayNext k with
      | some i => s.relayTake b n i ecc
      | none => s

/-! ### Messages and endings of a channel -/

/-- Send a relay message from a channel to a device's channel (R399, R404). -/
def sendRelay (s : State) (c typ dev ch xfer arg : Nat) (body : Bytes) : State :=
  s.sendVia none (relayMember c) dev { typ := typ, dstCh := ch, srcCh := c, xfer := xfer, arg := arg } body

def sendRelayError (s : State) (c dev ch : Nat) (code : Code) (index : Nat) : State :=
  s.sendRelay c 4 dev ch (s.relay c).xfer.toNat code.toNat (leBytes 4 index)

/-- A channel leaves OPEN: an egress drops its pin (R254). -/
def endRelay (s : State) (c state : Nat) (code : Code) : State :=
  let r := s.relay c
  let t := if r.pinned then s.unpinObj r.object.toNat else s
  t.setRelay c { r with state := state, lastCode := code, pinned := false }

/-- CLOSED: the tokens are retired (R231). -/
def closeRelay (s : State) (c : Nat) (code : Code) : State :=
  let t := s.endRelay c 3 code
  let r := t.relay c
  t.setRelay c { r with retired := r.retired + r.tokens, tokens := 0, laggard := false, starved := 0 }

/-- An egress that has sent its last tile and has all its tokens back is DONE. -/
def endEgress (s : State) (c : Nat) : State :=
  let r := s.relay c
  if r.state = 1 ∧ r.egress ∧ r.count.toNat ≤ r.next ∧ r.spent = 0 then s.endRelay c 2 sOk else s

/-- A partner violation (R223): counted, answered, and at 16 in a period the channel closes and Mortar is told. -/
def relayViolation (s : State) (c dev ch index : Nat) : State :=
  let t := (s.partner (relayBad c) (relaySource c) eRelayPeer (BitVec.ofNat 32 c)).sendRelayError c dev ch eRelayPeer index
  if (t.stat (relayBad c)).toNat = 16 ∧ (t.relay c).state = 1 then (t.closeRelay c eRelayPeer).emit (.mortar 3 c) else t

/-! ### The commands of MG_RELAY_CTRL (R231) -/

def setRelayCode (s : State) (c : Nat) (code : Code) : State :=
  s.setRelay c { s.relay c with lastCode := code, badWrite := false }

/-- The ranges every OPEN checks. -/
def openRange (r : Relay) : Code :=
  if r.state = 1 then eRelayState else if r.count = 0 ∨ r.count.toNat ≤ r.start.toNat then eRelayRange else sOk

def openInCode (s : State) (r : Relay) : Code :=
  let k := s.brick (s.relayBrick r)
  let i := (relayStream r).2.2
  let w := streamWord k.conf i
  if openRange r ≠ sOk then openRange r
  else if s.brickCount (relayStream r).1 ≤ (relayStream r).2.1 ∨ !(k.stream i).bound ∨ (k.stream i).out ∨ !w.external then eBadField
  else sOk

/-- The plaintext of an opened image goes only to a directly attached peer of its binding set, on a port that is UP
(R437). -/
def openDelivery (s : State) (c : Nat) (r : Relay) (o : Obj) : Bool :=
  let p := relayPort c r
  o.bound.all fun tags => s.isUp p && (s.port p).peerValid && (s.port p).peerDev == relayPeerDev r
    && tags.contains (bindingTagOf (s.port p).peerBk)

/-- The first-hop port is one R403 chooses, or an auxiliary port to the peer (R404). -/
def firstHopOk (s : State) (c : Nat) (r : Relay) : Bool :=
  let p := relayPort c r
  let d := relayPeerDev r
  let role := s.portRole p
  bits r.cfg 0 4 < 8 && ((role.role == 8 && role.aux == d)
    || (match s.dirTo s.selfCoords (s.coordsOf d) with
        | some dir => s.pickPort (roleOf dir) (relayMember c) s.system.device d == some p
        | none => false))

def openOutCode (s : State) (c : Nat) (r : Relay) : Code :=
  if openRange r ≠ sOk then openRange r
  else if bits r.laggardTicks 0 16 = 0 then eBadField
  else match s.readable r.object.toNat with
    | none => eNoSuchObject
    | some o =>
      if o.lost then eObjLost
      else if o.tiles < r.count.toNat then eRelayRange
      else if !s.firstHopOk c r then eLinkUnreach
      else if !s.openDelivery c r o then eNotBound
      else sOk

/-- A handle of an in stream's slot is on its way to or from its brick. -/
def slotMoves (s : State) (n i slot : Nat) : Bool :=
  let w := streamWord (s.brick n).conf i
  s.net.grit.any fun m => slotOf w m.p.handle == slot
    && ((m.p.kind == 2 && m.p.dest == n && m.p.stream == i && 4096 ≤ m.p.source)
      || (m.p.kind == 3 && m.p.source == n && 4096 ≤ m.p.dest))

/-- The free handles of an in stream: the last handle of each slot that is neither queued, posted, held nor moving. -/
def freeSlots (s : State) (n i : Nat) : List Word :=
  let k := s.brick n
  let e := k.stream i
  let w := streamWord k.conf i
  let held := (k.gens.flatMap (·.held)).filterMap fun x => if x.1 = i then some x.2 else none
  let used := e.queue ++ e.posts.map (·.handle) ++ held ++ e.relayTaken.map (·.handle) ++ e.relayHeld.toList
  ((List.range w.slots).filter fun j => !s.slotMoves n i j && !used.any fun h => slotOf w h == j).map fun j => aget 0 e.last j

/-- Grant tokens with the next expected index (R222). -/
def grantTokens (s : State) (c n : Nat) : State :=
  let r := s.relay c
  (s.setRelay c { r with tokens := r.tokens + n, granted := r.granted + n }).sendRelay c 1 (relayPeerDev r) (relayPeerCh r)
    r.xfer.toNat n (leBytes 4 r.next)

/-- The fields every OPEN sets. -/
def opened (r : Relay) (egress : Bool) : Relay :=
  { r with state := 1, egress := egress, lastCode := sOk, laggard := false, next := r.start.toNat, avail := 0,
           tokens := 0, granted := 0, retired := 0, spent := 0, starved := 0, bytes := 0, flits := 0, free := [],
           slotTiles := [], opened := if egress then none else some (relayStream r |>.1, (relayStream r).2.1, (relayStream r).2.2, r.xfer) }

/-- An ingress is bound again for the transfer it was receiving, at its next index: it goes on filling its slot (R225). -/
def rebinds (r : Relay) : Bool :=
  !r.egress && r.state == 3 && r.start.toNat == r.next
    && r.opened == some ((relayStream r).1, (relayStream r).2.1, (relayStream r).2.2, r.xfer)

/-- Nothing of an abandoned slot is left at the consumer. -/
def forgetSlot (k : Brick) (i : Nat) (h : Word) : Brick :=
  let e := k.stream i
  let slot := slotOf (streamWord k.conf i) h
  k.setStream i { e with arrived := aput 0 e.arrived slot 0, filled := aput 0 e.filled slot 0 }

/-- OPEN_IN: the ingress owns the stream's free slots and grants a token for each tile they have room for (R222). One that
is bound again keeps its part-filled slot, and so grants what its former peer held (R225). -/
def openIn (s : State) (c : Nat) : State :=
  let r := s.relay c
  let n := s.relayBrick r
  let i := (relayStream r).2.2
  let free := s.freeSlots n i
  let room := free.length * tilesPerSlot (s.brick n).conf i
  if rebinds r then
    (s.setRelay c { opened r false with free := free, bytes := r.bytes, flits := r.flits, granted := r.flits }).grantTokens c
      (room - r.flits)
  else
    ((s.setBrick n (free.foldl (fun k h => forgetSlot k i h) (s.brick n))).setRelay c
      { opened r false with free := free }).grantTokens c room

def openOut (s : State) (c : Nat) : State :=
  let r := s.relay c
  let o := opened r true
  (s.pinObj r.object.toNat).setRelay c { o with
    pinned := true, avail := if relayTapped o then r.start.toNat else r.count.toNat }

/-- SPLICE of an egress to another device's channel at an index (R225). -/
def splicePeer (s : State) (c dev ch resume : Nat) : State :=
  let r := s.relay c
  let t := s.sendRelayError c (relayPeerDev r) (relayPeerCh r) eRelaySpliced r.next
  t.setRelay c { r with peer := BitVec.ofNat 32 (dev % 16384 + 16384 * (ch % 32)), next := resume, lastCode := sOk
                        retired := 0, granted := 0, tokens := 0, spent := 0, laggard := false, starved := 0 }

/-- A write to MG_RELAY_CTRL: command 1 OPEN_IN, 2 OPEN_OUT, 3 CLOSE, 4 SPLICE. -/
def relayCtrl (s : State) (c cmd reserved dev ch resume : Nat) : State :=
  let r := s.relay c
  if 32 ≤ c then s
  else if r.badWrite then s.setRelayCode c eRelayState
  else if reserved ≠ 0 ∨ cmd = 0 ∨ 5 ≤ cmd then s.setRelayCode c eBadField
  else if cmd = 1 then (if s.openInCode r = sOk then s.openIn c else s.setRelayCode c (s.openInCode r))
  else if cmd = 2 then (if s.openOutCode c r = sOk then s.openOut c else s.setRelayCode c (s.openOutCode c r))
  else if cmd = 3 then s.closeRelay c sOk
  else if r.state ≠ 1 ∨ !r.egress then s.setRelayCode c eRelayState
  else if r.count.toNat ≤ resume then s.setRelayCode c eRelayRange
  else s.splicePeer c dev ch resume

/-! ### Egress (R221–R224) -/

/-- An egress may send its next tile. -/
def mayEgress (r : Relay) : Bool :=
  r.state == 1 && r.egress && 0 < r.tokens && r.next < r.count.toNat && r.next < r.avail

/-- The unit that holds a tile does not answer for now (R271, R282). -/
def tileWaits (s : State) (o : Obj) (k : Nat) : Bool :=
  o.residence != .clay && (s.unit (o.map.getD k { unit := 0, count := 0, first := 0 }).unit).held

/-- Send the next tile; one that is uncorrectable closes the channel (R262). -/
def egressSend (s : State) (c : Nat) (read : TileRead) : State :=
  let r := s.relay c
  match (if mayEgress r then s.obj r.object.toNat else none) with
  | none => s
  | some o =>
    if s.tileWaits o r.next then s
    else
      let f := s.fetchTile r.object.toNat o r.next read
      match f.2 with
      | none => (f.1.error 2 (relaySource c) eStepAbort r.object).closeRelay c eStepAbort
      | some tile =>
        let p := relayPort c r
        let t := f.1.setRelay c { f.1.relay c with next := r.next + 1, tokens := r.tokens - 1, spent := r.spent + 1, starved := 0 }
        let u := t.sendVia (if t.isUp p then some p else none) (relayMember c) (relayPeerDev r)
          { typ := 3, dstCh := relayPeerCh r, srcCh := c, xfer := r.xfer.toNat, arg := r.next } tile
        (u.count (relayTiles c) 1).endEgress c

/-- A message comes from the bound peer's channel and transfer. -/
def fromPeer (r : Relay) (dev ch xfer : Nat) : Bool :=
  relayPeerDev r == dev && relayPeerCh r == ch && r.xfer.toNat == xfer

/-- RELAY_GRANT at an egress: the first grant after OPEN or SPLICE also names the next index (R222, R225). -/
def takeGrant (s : State) (c dev ch xfer n next : Nat) : State :=
  let r := s.relay c
  if r.state = 1 ∧ r.egress ∧ fromPeer r dev ch xfer then
    s.setRelay c { r with tokens := r.tokens + n, granted := r.granted + n, laggard := false, starved := 0
                          next := if r.granted = 0 then next else r.next }
  else s

/-- RELAY_TOKEN at an egress (R222–R224). -/
def takeToken (s : State) (c dev ch xfer n : Nat) : State :=
  let r := s.relay c
  if r.state ≠ 1 ∨ !r.egress then s
  else if !(fromPeer r dev ch xfer) || r.spent < n then s.relayViolation c dev ch r.next
  else (s.setRelay c { r with tokens := r.tokens + n, spent := r.spent - n, laggard := r.laggard && n == 0, starved := 0 }).endEgress c

/-- laggard_ticks consecutive ticks without a token (R224). -/
def reportLaggard (s : State) (c : Nat) : State :=
  let r := s.relay c
  if r.state = 1 ∧ r.egress ∧ r.tokens = 0 ∧ ¬ r.laggard ∧ bits r.laggardTicks 0 16 ≤ r.starved then
    (s.setRelay c { r with laggard := true, lastCode := eRelayLaggard }).emit (.mortar 2 (relayPeerDev r))
  else s

/-- PROGRESS reaches a tapped egress (R221). -/
def progress (s : State) (c tiles : Nat) : State :=
  match s.net.grit.find? fun m => m.p.kind == 10 && m.p.dest == ksEndpoint c && m.p.stream == c % 16 && m.p.arg.toNat == tiles with
  | none => s
  | some m =>
    let t := s.tookGrit m.p
    let r := t.relay c
    if ¬ s.gritDue m.p then s
    else if r.state = 1 ∧ relayTapped r then t.setRelay c { r with avail := r.avail + tiles } else t

/-! ### Ingress (R221–R223) -/

/-- Post the current slot: the head handle with its generation advanced (R204, R221). -/
def postIngress (s : State) (c : Nat) : State :=
  let r := s.relay c
  let n := s.relayBrick r
  let i := (relayStream r).2.2
  let w := streamWord (s.brick n).conf i
  let old := r.free.headD 0
  let h := stampHandle w.tagBits old 0 (handleGen w.tagBits old + 1)
  let t := s.setRelay c { r with free := r.free.drop 1, bytes := 0, flits := 0
                                 slotTiles := aput 0 r.slotTiles (slotOf w old) r.flits }
  let u := (t.sendGrit reqFunction (gritOf 2 n (ksEndpoint c) i h (BitVec.ofNat 32 r.flits) [])).count (bayPosts (relayStream r).1) 1
  if r.count.toNat ≤ r.next then u.endRelay c 2 sOk else u

/-- A tile arrives at an ingress (R221–R223). -/
def takeTile (s : State) (c dev ch xfer index : Nat) (tile : Bytes) : State :=
  let r := s.relay c
  if r.state ≠ 1 ∨ r.egress then s
  else
    let n := s.relayBrick r
    let i := (relayStream r).2.2
    let m := (s.brick n).conf
    let size := (streamWord m i).slotUnits * 256
    if !(fromPeer r dev ch xfer) || index ≠ r.next || r.tokens = 0 || r.free.isEmpty || size < r.bytes + tile.length then
      s.relayViolation c dev ch index
    else
      let t := s.deliver n i (r.free.headD 0) r.bytes tile
      let u := (t.setRelay c { r with next := r.next + 1, tokens := r.tokens - 1, bytes := r.bytes + tile.length
                                      flits := r.flits + 1 }).count (relayTiles c) 1
      if tilesPerSlot m i ≤ r.flits + 1 ∨ r.count.toNat ≤ r.next + 1 then u.postIngress c else u

/-- A handle returns to a channel (R206, R222): the tokens of its tiles go back, and the stream's open ingress may
use it, under a fresh grant where another transfer filled it (log entry 59). -/
def releaseAtChannel (s : State) (c : Nat) (h : Word) : State :=
  let r := s.relay c
  let x := relayStream r
  let m := (s.brick (s.relayBrick r)).conf
  let slot := slotOf (streamWord m x.2.2) h
  let n := aget 0 r.slotTiles slot
  let t := s.setRelay c { r with slotTiles := aput 0 r.slotTiles slot 0
                                 tokens := if r.state = 1 ∨ r.state = 2 then r.tokens + n else r.tokens
                                 retired := if r.state = 1 ∨ r.state = 2 then r.retired else r.retired + n }
  let u := if n ≠ 0 ∧ (r.state = 1 ∨ r.state = 2) then
      t.sendRelay c 2 (relayPeerDev r) (relayPeerCh r) r.xfer.toNat n [] else t
  match u.ingressOf x.1 x.2.1 x.2.2 with
  | none => u
  | some o =>
    let v := u.setRelay o { u.relay o with free := (u.relay o).free ++ [h] }
    if o = c ∧ n ≠ 0 then v else v.grantTokens o (tilesPerSlot m x.2.2)

/-- RELEASE (R206): at a producer's brick, or at a Keystone's channel. -/
def releaseIn (s : State) (p : GritPacket) : State :=
  if p.dest < 4096 then s.releaseAt p.dest p.stream p.handle
  else s.releaseAtChannel ((p.dest - 4096) * 16 + p.stream) p.handle

/-- RELAY_ERROR: the code is recorded; a splice by the bound peer closes every open channel of the transfer (R225). -/
def takeError (s : State) (c dev : Nat) (code : Code) : State :=
  let r := s.relay c
  if code = eRelaySpliced ∧ r.state = 1 ∧ relayPeerDev r = dev then
    (List.range 32).foldl (fun (t : State) i =>
      if (t.relay i).state = 1 ∧ (t.relay i).xfer = r.xfer then t.closeRelay i eRelaySpliced else t) s
  else s.setRelay c { r with lastCode := code }

/-- Run an operation on a channel that exists. -/
def onChannel (s : State) (c : Nat) (f : State → State) : State := if s.awake ∧ c < 32 then f s else s

/-- Run a core's request on a channel that exists. -/
def byCore (s : State) (core c : Nat) (f : State → State) : State := if s.coreUp core ∧ c < 32 then f s else s

end State

/-- GRIT_RELEASE (R206, R214). -/
def execGritRelease (p : GritPacket) (s : State) : Out :=
  .next (if ¬ s.awake then s else if gritMalformed p then s.badGrit p
    else if p.kind = 3 ∧ s.gritDue p then (s.tookGrit p).releaseIn p else s)

/-- PROGRESS_PACKET (R221). -/
def execProgressPacket (channel tiles : Nat) (s : State) : Out :=
  .next (s.onChannel channel fun t => t.progress channel tiles)

/-- RELAY_BUFFER (R220). -/
def execRelayBuffer (brick : Nat) (ecc : Ecc) (s : State) : Out :=
  .next (s.whileRunning brick fun t b => t.relayBuffer b brick ecc)

/-- OPEN_IN (R221, R231). -/
def execOpenIn (agent channel reserved : Nat) (s : State) : Out :=
  .next (s.byCore agent channel fun t => t.relayCtrl channel 1 reserved 0 0 0)

/-- OPEN_OUT (R221, R231). -/
def execOpenOut (agent channel reserved : Nat) (s : State) : Out :=
  .next (s.byCore agent channel fun t => t.relayCtrl channel 2 reserved 0 0 0)

/-- CLOSE (R231). -/
def execCloseChannel (agent channel reserved : Nat) (s : State) : Out :=
  .next (s.byCore agent channel fun t => t.relayCtrl channel 3 reserved 0 0 0)

/-- SPLICE (R225). -/
def execSplice (agent channel reserved : Nat) (device peerChannel resume : Nat) (s : State) : Out :=
  .next (s.byCore agent channel fun t => t.relayCtrl channel 4 reserved device peerChannel resume)

/-- RELAY_EGRESS_SEND (R221, R222). -/
def execRelayEgressSend (channel : Nat) (read : TileRead) (s : State) : Out :=
  .next (s.onChannel channel fun t => t.egressSend channel read)

/-- RELAY_GRANT (R222). -/
def execRelayGrant (channel source sourceChannel xfer tokens next : Nat) (s : State) : Out :=
  .next (s.onChannel channel fun t => t.takeGrant channel source sourceChannel xfer tokens next)

/-- RELAY_TOKEN (R222, R223). -/
def execRelayToken (channel source sourceChannel xfer tokens : Nat) (s : State) : Out :=
  .next (s.onChannel channel fun t => t.takeToken channel source sourceChannel xfer tokens)

/-- RELAY_TILE (R221–R223). -/
def execRelayTile (channel source sourceChannel xfer index : Nat) (tile : Bytes) (s : State) : Out :=
  .next (s.onChannel channel fun t => t.takeTile channel source sourceChannel xfer index tile)

/-- RELAY_ERROR (R225, R399). -/
def execRelayError (channel source : Nat) (code : Code) (_index : Nat) (s : State) : Out :=
  .next (s.onChannel channel fun t => t.takeError channel source code)

/-- LAGGARD_TIMEOUT (R224). -/
def execLaggardTimeout (channel : Nat) (s : State) : Out := .next (s.onChannel channel fun t => t.reportLaggard channel)

end Sys2Proof.Machine
end

