-- ==== Sys2Proof/Machine/Stalls.lean ====
section
/-!
DEFINITION. The gated cycles of a tick (R502), and the stall counters of bricks and bays (R183, R201, R216, R229,
R230).
-/
namespace Sys2Proof.Machine
namespace State

/-- Cycles of [0, n) that lie in the first g of their frame of 64 (R502). -/
def gatedIn (g n : Nat) : Nat := n / 64 * g + min (n % 64) g

/-- The effective gate of an Ashlar die (R502). -/
def gate (s : State) (a : Nat) : Nat :=
  max s.power.gp (max (s.power.gt.getD a 0) (if s.pins.capLow then 32 else 0))

/-- The gated cycles of the current tick on an Ashlar die. -/
def gatedCycles (s : State) (a : Nat) : Nat :=
  gatedIn (s.gate a) (s.tb.cycle + s.tb.len) - gatedIn (s.gate a) s.tb.cycle

/-- The stalls of a brick of a bay at work, for a tick's cycles (R201, R216, R230): only while its mode word has trace
set; the gated cycles are no array stall (R502). -/
def countStall (s : State) (n : Nat) (k : Brick) : State :=
  if traceOf k.conf then
    let t := if k.outWait.isEmpty then s else s.count (outStall n) s.tb.len
    let u := if k.gens.any fun g => g.state == .waiting then t.count (inStall n) s.tb.len else t
    if k.arrayWait then u.count (arrayStall n) (s.tb.len - s.gatedCycles (dieOf n)) else u
  else s

/-- The bays that run or drain, with the brick that waits. -/
def stalledIn (s : State) (waits : Brick → Bool) : List Nat :=
  ((s.bricks.filter fun c => waits c.2).filterMap fun c => s.bayOf c.1).eraseDups.filter fun b =>
    (s.bay b).state == .running || (s.bay b).state == .draining

/-- The cycles of a tick in which endpoints, WAITs and arrays waited (R201, R216, R229, R230): those that wait at its end,
for the whole of it (log entry 12). -/
def countStalls (s : State) : State :=
  let out := s.stalledIn fun k => !k.outWait.isEmpty
  let in_ := s.stalledIn fun k => k.gens.any fun g => g.state == .waiting
  let t := out.foldl (fun (t : State) b => t.count (bayOutStall b) s.tb.len) s
  let u := in_.foldl (fun (t : State) b => t.count (bayInStall b) s.tb.len) t
  (s.bricks.filter fun c => match s.bayOf c.1 with
    | some b => (s.bay b).state == .running || (s.bay b).state == .draining
    | none => false).foldl (fun (t : State) c => t.countStall c.1 c.2) u

end State
end Sys2Proof.Machine
end

