-- ==== Sys2Proof/Machine/Time.lean ====
section
/-!
DEFINITION. The time base (02_course_clock.md): the tick (R42), its sources (R39–R41), its states (R44–R47), and the
schedule table (R49); and die-to-die retries (R25).
-/
namespace Sys2Proof.Machine
namespace State

/-- Count the gated cycles of the tick that ends on die a (R502). -/
def countGated (s : State) (a : Nat) : State := s.count (pwrGated a) (s.gatedCycles a)

/-- A relay egress with no token counts the tick, and with a tile to send it is starved (R224, R231). -/
def countStarved (s : State) (c : Nat) : State :=
  let r := s.relay c
  if r.egress && r.state == 1 && r.tokens == 0 then
    (s.setRelay c { r with starved := if r.next < min r.count.toNat r.avail then r.starved + 1 else 0 }).count (relayStarve c) 1
  else s.setRelay c { r with starved := 0 }

/-- The counters that count ticks (R333, R357, R224). -/
def countTick (s : State) : State :=
  let t := if s.ckpt.holding then s.count ckptHold 1 else s
  let u := if t.turn.phase == 4 then t.count turnRedist 1 else t
  ((List.range 32).foldl countStarved ((List.range 4).foldl countGated u)).countStalls

/-- The length of the next tick (R42): the fraction and the length. -/
def nextLen (frac steer : Int) : Int × Nat :=
  let f := frac + steer
  if 2 ^ 32 ≤ f then (f - 2 ^ 32, 2049) else if f ≤ -(2 ^ 32) then (f + 2 ^ 32, 2047) else (f, 2048)

/-- A tick ends and the next begins (R3, R42); a void turn's rollout objects that nothing pins any more go (log entry
132). -/
def tickOver (s : State) : State :=
  let t := if s.rel.fatal then s else s.countTick.sweepRollouts
  let r := nextLen t.tb.frac t.tb.steer.toInt
  { t with tb := { t.tb with cycle := t.tb.cycle + t.tb.len, frac := r.1, len := r.2, tick := t.tb.tick + 1
                             up := t.tb.up + 1 } }

/-- The alarm of a time base that entered HOLDOVER or LOST (R47, R468). -/
def enterTime (s : State) (st : TbState) : State :=
  let t := { s with tb := { s.tb with state := st, good := 0 } }
  match st with
  | .locked => t.issueCert
  | .holdover => State.alarm { t with tb := { t.tb with holdSince := t.tb.up } } 1 sOk 0
  | .lost => t.alarm 1 eTimeLost 0
  | _ => t

/-- The signed offset saturated at ±(2^31 − 1) as TB_OFFSET shows it (R48). -/
def offsetWord (off : Int) : Word := BitVec.ofInt 32 (max (-(2 ^ 31 - 1)) (min (2 ^ 31 - 1) off))

/-- Load the tick number from a reference time (R45). -/
def loadTick (s : State) (tai : Nat) : State :=
  { s with tb := { s.tb with tick := tai / 1024, loaded := true, good := 0 } }

/-- Nominal seconds in half ticks: a second is 976,562.5 ticks (R37). -/
def halfTicks (seconds : Nat) : Nat := seconds * 1953125

/-- At least that many seconds of ticks have begun since the tick count was t. -/
def secondsSince (s : State) (t seconds : Nat) : Bool := decide (halfTicks seconds ≤ 2 * (s.tb.up - t))

/-- A measurement: the local count's offset from the reference, ns (R41, R44, R45). The steer value is the servo's,
a free value within ±2^31 (log entry 6). -/
def measure (s : State) (off : Int) (tai : Nat) : State :=
  let steer := max (-(2 ^ 31)) (min (2 ^ 31 - 1) (Config.servo s.freeCtr))
  let t := { s with tb := { s.tb with offset := offsetWord off, steer := BitVec.ofInt 32 steer, lastGood := s.tb.up },
                    freeCtr := s.freeCtr + 1 }
  let big := 1000000 < off.natAbs
  let near := off.natAbs ≤ 40
  match s.tb.state with
  | .unset => { t.loadTick tai with tb := { (t.loadTick tai).tb with state := .acquiring } }
  | .acquiring =>
    if big then (t.count tbRefFault 1).loadTick tai
    else if near then
      if 16 ≤ s.tb.good + 1 then t.enterTime .locked else { t with tb := { t.tb with good := s.tb.good + 1 } }
    else { t with tb := { t.tb with good := 0 } }
  | .locked => if big then ({ s with tb := { s.tb with offset := offsetWord off } }.count tbRefFault 1).enterTime .lost else t
  | .holdover =>
    if big then ({ s with tb := { s.tb with offset := offsetWord off } }.count tbRefFault 1).enterTime .lost
    else if near then
      if 16 ≤ s.tb.good + 1 then t.enterTime .locked else { t with tb := { t.tb with good := s.tb.good + 1 } }
    else { t with tb := { t.tb with good := 0 } }
  | .lost =>
    if big ∨ s.tb.stuck then { s with tb := { s.tb with offset := offsetWord off, stuck := true } }
    else
      let u := t.enterTime .holdover
      { u with tb := { u.tb with good := if near then 1 else 0 } }

/-- The local count in ns at a phase within the current tick. -/
def localNs (s : State) (phase : Nat) : Nat := s.tb.tick * 1024 + phase

/-- A pulse (R39): outside ±2 µs of the predicted whole second it is counted and ignored; with a kept ToD message
it is a measurement. -/
def pulse (s : State) (phase : Nat) : State :=
  let here : Int := s.localNs phase
  let near : Int := (here + 500000000) % 1000000000 - 500000000
  if s.tb.loaded ∧ 2000 < near.natAbs then s.count tbRefFault 1
  else
    match s.tb.tod with
    | none => s
    | some sec =>
      ({ s with tb := { s.tb with tod := none } }).measure (here - sec * 1000000000) (sec * 1000000000)

/-- The places in which the default best-timekeeper algorithm compares two sources (R40): the announced clock, then the
source's own identity. -/
def ptpRank (source : Nat) (c : PtpClock) : List Nat :=
  [c.priority1, c.cls, c.accuracy, c.variance, c.priority2, c.identity, c.steps, source]

/-- The first place that differs decides; the lower value is better. -/
def rankBefore : List Nat → List Nat → Bool
  | a :: as, b :: bs => a < b || (a == b && rankBefore as bs)
  | _, _ => false

/-- The best source announced (R40). -/
def bestSource (s : State) : Option Nat :=
  (s.tb.ptp.clocks.foldl (fun (best : Option (Nat × PtpClock)) c => match c.2, best with
    | none, b => b
    | some k, none => some (c.1, k)
    | some k, some b => if rankBefore (ptpRank c.1 k) (ptpRank b.1 b.2) then some (c.1, k) else best) none).map (·.1)

/-- A Sync is whole: the offset is measured over the path delay last known, and a Delay_Req answers it (R40; log entry
99). A tick number the measurement loads moves the local times with it. -/
def syncWhole (s : State) (m : PtpMsg) (origin arrive : Int) : State :=
  let reference := (origin + s.tb.ptp.delay).toNat
  let t := s.measure (arrive - reference) reference
  let jump : Int := (t.tb.tick : Int) * 1024 - s.tb.tick * 1024
  State.emit { t with tb := { t.tb with ptp := { t.tb.ptp with
    sync := none, request := some (m.source, m.seq, origin, arrive + jump, t.localNs m.requestNs) } } } (.ptpDelayReq m.seq)

/-- A PTP message of this device's domain and transport (R40): peer-to-peer messages are discarded, and only the best
source is followed. -/
def takePtp (s : State) (m : PtpMsg) : State :=
  let p := s.tb.ptp
  let best := s.bestSource == some m.source
  match m.body with
  | .announce c => { s with tb := { s.tb with ptp := { p with clocks := aput none p.clocks m.source (some c) } } }
  | .sync twoStep origin correction =>
    if !best then s
    else if twoStep then { s with tb := { s.tb with ptp := { p with sync := some (m.source, m.seq, s.localNs m.arriveNs - correction) } } }
    else s.syncWhole m (origin + correction) (s.localNs m.arriveNs)
  | .followUp origin correction => match p.sync with
    | some (source, seq, arrive) => if best && source == m.source && seq == m.seq then s.syncWhole m (origin + correction) arrive else s
    | none => s
  | .delayResp receive correction => match p.request with
    | some (source, seq, t1, t2, t3) =>
      if source = m.source ∧ seq = m.seq then
        { s with tb := { s.tb with ptp := { p with request := none, delay := ((t2 - t1) + (receive - correction - t3)) / 2 } } }
      else s
    | none => s
  | .peerDelay | .other => s

/-- A ToD message is valid (R39). -/
def todOk (b : Bytes) (us : Nat) : Bool :=
  b.length == 10 && fieldLE b 0 1 == 0xA5 && fieldLE b 1 1 == 0x5A && crc8 (slice b 2 7) == fieldLE b 9 1
    && 100000 ≤ us && us ≤ 900000 && fieldLE b 8 1 % 2 == 1

/-- The schedule table takes a request, or refuses it by the first condition of R49. -/
def schedCode (s : State) (mgmt : Bool) (tick cls : Nat) (arg : Word) : Code :=
  if 4 ≤ cls ∨ (cls = 1 ∧ 64 ≤ arg.toNat) then eBadField
  else if mgmt ∧ s.tb.state = .lost then eTimeLost
  else if mgmt ∧ tick < s.tb.tick + 2 ^ s.footing.leadLog2 then eTickPast
  else if ¬ mgmt ∧ tick < s.tb.tick + 2 then eTickPast
  else if s.tb.tick + 2 ^ 36 < tick then eTickHorizon
  else if 256 ≤ s.tb.sched.length then eSchedFull
  else sOk

def schedule (s : State) (mgmt : Bool) (tick cls : Nat) (arg : Word) : State :=
  if s.schedCode mgmt tick cls arg = sOk then
    { s with tb := { s.tb with sched := s.tb.sched ++ [{ tick := tick, cls := cls, arg := arg }] } }
  else s.count tbSchedReject 1

end State

/-- D2D_FLIT_RETRY (R25): counted and corrected; 16 in a row and a failed retrain are fatal. -/
def execD2dFlitRetry (source consecutive : Nat) (retrainFails : Bool) (s : State) : Out :=
  .next (if s.awake then
      let t := s.corrected d2dRetry 1
      if 16 ≤ consecutive ∧ retrainFails then t.fatalError eD2dFail source 0 else t
    else s)

/-- TICK_START (R42). -/
def execTickStart (s : State) : Out := .next (if s.powered then s.tickOver else s)

/-- PPS_EDGE (R39). -/
def execPpsEdge (phaseNs : Nat) (s : State) : Out :=
  .next (if s.awake ∧ s.footing.timeSource = 0 ∧ s.footing.present then s.pulse phaseNs else s)

/-- TOD_MESSAGE (R39). -/
def execTodMessage (bytes : Bytes) (usAfterEdge : Nat) (s : State) : Out :=
  .next (if s.awake ∧ s.footing.timeSource = 0 ∧ s.footing.present then
      if State.todOk bytes usAfterEdge then { s with tb := { s.tb with tod := some (fieldLE bytes 2 6) } }
      else { s with tb := { s.tb with tod := none } }.count tbRefFault 1
    else s)

/-- PTP_MESSAGE (R40). -/
def execPtpMessage (msg : PtpMsg) (s : State) : Out :=
  .next (if s.awake ∧ s.footing.timeSource = 1 ∧ s.footing.present then
      if ¬ msg.wellFormed ∨ ¬ msg.inProfile then s.count tbRefFault 1
      else if msg.domain ≠ s.footing.ptpDomain ∨ msg.overEthernet ≠ s.footing.ptpEthernet then s
      else s.takePtp msg
    else s)

/-- UPSTREAM_TIMEOUT (R41): on to the next listed port, or with none left out of LOCKED. -/
def execUpstreamTimeout (s : State) : Out :=
  .next (if s.awake ∧ s.footing.timeSource = 2 ∧ s.footing.present ∧ s.tb.upIndex < s.footing.upstreams.length
      ∧ s.tb.lastBeacon + 4096 ≤ s.tb.up then
      let i := s.tb.upIndex + 1
      if i < s.footing.upstreams.length then
        { s with tb := { s.tb with upIndex := i, upstream := s.footing.upstreams.getD i 0,
                                   lastBeacon := s.tb.up } }.count tbRefFault 1
      else
        let t := { s with tb := { s.tb with upIndex := i } }
        if s.tb.state = .locked then t.enterTime .holdover else t
    else s)

/-- REFERENCE_LOSS_TIMEOUT (R44). -/
def execReferenceLossTimeout (s : State) : Out :=
  .next (if s.awake ∧ s.tb.state = .locked
      ∧ (if s.footing.timeSource = 2 then s.footing.upstreams.length ≤ s.tb.upIndex
        else s.secondsSince s.tb.lastGood 3 = true) then s.enterTime .holdover else s)

/-- HOLDOVER_LIMIT_EXPIRY (R44, R47). -/
def execHoldoverLimitExpiry (s : State) : Out :=
  .next (if s.awake ∧ s.tb.state = .holdover ∧ s.secondsSince s.tb.holdSince s.footing.holdover then s.enterTime .lost else s)

/-- SCHEDULE_REQUEST (R49): the code is answered to the requester. -/
def execScheduleRequest (mgmt : Bool) (tick cls : Nat) (arg : Word) (s : State) : Out :=
  .next (if s.awake ∧ (mgmt ∨ s.mortarUp) then
      (s.schedule mgmt tick cls arg).emit (.mortar 1 (s.schedCode mgmt tick cls arg).toNat)
    else s)

end Sys2Proof.Machine
end

