-- ==== Sys2Proof/Machine/Turns.lean ====
section
/-!
DEFINITION. Turns (14_turns.md): the phases and their vote (R341–R344), turn boundaries, holds and voids (R358, R359),
the start of SCORE and LEARN (R343, R347–R349), the weight slots (R354, R355); and the declaration of a failed
device by the vote root (R479, R480, R483, R484).
-/
namespace Sys2Proof.Machine
namespace State

/-! ### Announcements (R342–R344) -/

/-- The tick a decision names (R342, step 3). -/
def namedTick (s : State) : Nat :=
  let b := s.tb.tick + s.footing.turn.phaseLead
  if b % 2 ^ 20 < 8192 then (b / 2 ^ 20 + 1) * 2 ^ 20 + 8192 else b

/-- The step a device reports as its last completed one; the spare reports the mirror it holds of the device it stands
for (R342, R481). -/
def reportStep (s : State) : Nat :=
  if s.system.substituting then s.heldStep (some s.system.device) else s.turn.step

/-- Severity order DONE, HELD, FAILED. -/
def worst (vs : List Nat) : Nat := vs.foldl max 0

/-- Send a vote report to the parent. -/
def sendVote (s : State) (verdict step : Nat) : State :=
  s.sendMsg s.parent { typ := 0x12, arg := s.turn.phase } (leBytes 8 s.turn.turn ++ leBytes 1 verdict ++ leBytes 8 step)

/-- A void of the turn (R359). -/
def takeVoid (s : State) (turn smin : Nat) : State :=
  let p := s.footing.turn
  let bays := (List.range 64).filter fun b => b == p.turnBay || p.scoreBays.getLsbD b
  let t := bays.foldl (fun (t : State) b => t.cmdShutDown b) s
  let u := (List.range 32).foldl (fun (t : State) c => if (t.relay c).state = 1 then t.closeRelay c sOk else t) t.voidRollouts
  let undone := if smin + 1 ≤ u.turn.step then u.turn.step - smin else 0
  { u with
    cs := { u.cs with updates := u.cs.updates - undone }
    turn := { u.turn with
      phase := 0, phaseStart := s.tb.tick, turn := turn, lastCode := eTurnVoid, votes := [], ownDone := none, voteSent := false
      decided := false, closeRunning := false, step := u.turn.step - undone } }.count turnVoids 1

/-- A turn boundary: GENERATE of the turn starts, or the device is HELD under skew or lost time, or while the operator
holds the job (R341, R358, R462). -/
def takeBoundary (s : State) (turn : Nat) : State :=
  if s.census.skew ∨ s.tb.state = .lost ∨ s.turn.jobHeld then
    let t := { s with turn := { s.turn with phase := 5, phaseStart := s.tb.tick, lastCode := eTurnHeld, votes := []
                                            ownDone := some 1, voteSent := true, decided := false } }
    if t.isRoot then t else t.sendVote 1 t.reportStep
  else
    { s with turn := { s.turn with phase := 1, phaseStart := s.tb.tick, turn := turn, lastCode := sOk, votes := [], ownDone := none
                                   voteSent := false, decided := false, closeRunning := false } }

/-- SCORE or LEARN starts: running sequences of GENERATE close at their next step boundary, and LEARN assigns the scored
sequences (R343, R347–R349). -/
def takePhase (s : State) (phase : Nat) : State :=
  let first := if s.turn.step = 0 then s.footing.train.firstStep else s.turn.step + 1
  let t := { s with turn := { s.turn with
    phase := phase, phaseStart := s.tb.tick, lastCode := sOk, ownDone := none, voteSent := false, decided := false
    votes := s.turn.votes.filter fun v => v.phase == 4 && phase == 3
    closeRunning := s.turn.closeRunning || phase == 2
    learnFrom := if phase = 3 then first else s.turn.learnFrom
    assigned := if phase = 3 then s.assignment first else s.turn.assigned } }
  if phase = 3 then t.count turnUnscored t.unscored else t

/-- Take an announced change. -/
def takeChange (s : State) (a : Announce) : State :=
  let t := { s with turn := { s.turn with next := none, late := false } }
  if a.void then t.takeVoid a.turn a.smin
  else if a.phase = 1 then t.takeBoundary a.turn
  else t.takePhase a.phase

/-- Install an announcement: at its tick through the schedule table, a boundary behind the bond swap of R357; one less
than two ticks ahead is taken at once (R344). -/
def install (s : State) (a : Announce) : State :=
  if a.tick < s.tb.tick + 2 then
    let t := if ¬ a.void ∧ a.phase = 1 then s.latch true false else s
    let u := (t.takeChange a).count turnLate 1
    { u with turn := { u.turn with late := true, lastCode := eTurnLate } }
  else
    let t := { s with turn := { s.turn with next := some a } }
    if ¬ a.void ∧ a.phase = 1 then
      (t.schedule false a.tick 1 (BitVec.ofNat 32 s.footing.turn.turnBay)).schedule false a.tick 2 (BitVec.ofNat 32 a.turn)
    else t.schedule false a.tick 3 (BitVec.ofNat 32 a.phase)

/-- Pass an announcement down the tree and install it. -/
def announce (s : State) (a : Announce) : State :=
  let body := leBytes 8 a.turn ++ leBytes 1 a.phase ++ leBytes 8 a.tick ++ leBytes 8 a.smin
  (s.sendAll s.children { typ := 0x13, arg := bit01 a.void } body).install a

/-! ### Declaring a device failed (R479, R480, R483, R484) -/

/-- The reserve for a failed device: the lowest ready device outside the job's box that is neither removed nor a host
(log entry 66). -/
def reserveFor (s : State) (f : Nat) : Option Nat :=
  (List.range (s.footing.ex * s.footing.ey * s.footing.ez)).find? fun d =>
    d ≠ f && (s.jobAt (s.coordsOf d)).isNone && !s.system.removed.contains d && !(s.system.remap.any fun x => x.2 == d)
      && !(s.system.remapNext.any fun x => x.2.1 == d)

/-- The device whose role a device hosts, or is to host in the re-mapping under way (R480, R484); its own where it hosts
none. -/
def failedRole (s : State) (f : Nat) : Nat :=
  match s.system.remapNext with
  | some (r, h, 2, _) => if h = f then r else f
  | _ => f

/-- Host and placement code of a failed device's role (R480). -/
def placementOf (s : State) (f : Nat) : Nat × Nat :=
  if s.system.subst.any fun x => x.1 == f then (f, 1)
  else if (s.jobIndexOf f).isNone then (f, 3)
  else match s.reserveFor f with
    | some d => if s.footing.train.ckpt then (d, 2) else (f, 3)
    | none => (f, 3)

/-- The vote root after a failed one: the lowest job device that is not removed (R479). -/
def successorRoot (s : State) (f : Nat) : Nat :=
  (s.jobDevices.filter fun d => d ≠ f && !s.system.removed.contains d).foldl min 16384

/-- The devices removed once a role's re-mapping is announced anew for another host: the reserve first named has failed
(R480, R484). -/
def failedHost (s : State) (f host : Nat) : List Nat :=
  match s.system.remapNext with
  | some (r, h, 2, _) => if r = f ∧ h ≠ host then [h] else []
  | _ => []

/-- What a re-mapping announcement does on a device (R483): its void is due at tick B, never less than two ticks ahead
(R49). A device that had no role is removed, and no job is held for it (log entry 66). -/
def takeRemap (s : State) (f host placement tick : Nat) : State :=
  let b := max tick (s.tb.tick + 2)
  let lost : Bool := placement == 3 && (s.jobIndexOf f).isSome
  let t := { s with system := { s.system with
    removed := s.system.removed ++ s.failedHost f host
    remapNext := some (f, host, placement, b), remapCode := if lost then eRemapNone else sOk
    voteRoot := if f = s.system.voteRoot ∧ placement ≠ 0 then s.successorRoot f else s.system.voteRoot } }
  let u := t.schedule false b 3 (BitVec.ofNat 32 f)
  if lost then
    (State.alarm { u with turn := { u.turn with jobHeld := true } } 4 eRemapNone (BitVec.ofNat 32 f))
  else u

/-- A REMAP_ANNOUNCE to a device's children (R478 table). -/
def sendRemap (s : State) (dests : List Nat) (f host placement tick : Nat) : State :=
  s.sendAll dests { typ := 0x30, arg := 0x0801 } (leBytes 2 f ++ leBytes 2 host ++ leBytes 1 placement ++ zeros 3 ++ leBytes 8 tick)

/-- The vote root declares a device failed with a placement. -/
def declareAs (s : State) (f : Nat) (hp : Nat × Nat) : State :=
  let b := s.namedTick
  (s.sendRemap s.children f hp.1 hp.2 b).takeRemap f hp.1 hp.2 b

/-- This device answers for the vote root where a device has failed: it is the root, or the root's successor. -/
def answersFor (s : State) (f : Nat) : Bool :=
  if f = s.system.voteRoot then s.successorRoot f == s.system.device else s.isRoot

/-- The root declares a device failed on the evidence of R479, once; a failure of the host a re-mapping under way has
named restarts that re-mapping from its declaration (R484). -/
def declareFailed (s : State) (f : Nat) : State :=
  if ¬ s.answersFor f ∨ s.system.removed.contains f ∨ (s.system.remapNext.map (·.1)) = some f then s
  else s.declareAs (s.failedRole f) (s.placementOf (s.failedRole f))

/-! ### The phase vote (R342, R343) -/

/-- The turn the next boundary starts. -/
def nextTurn (s : State) : Nat := max (s.turn.turn + 1) s.footing.turn.firstTurn

/-- The lowest step any report carries. -/
def lowStep (s : State) : Nat := (s.turn.votes.map (·.step)).foldl min s.reportStep

/-- The root's answer to a vote of a phase (R343): NONE votes as REDISTRIBUTE does (log entry 68). -/
def answer (s : State) (verdict : Nat) (expired : Bool) : Announce :=
  let ph := s.turn.phase
  let void : Announce := { void := true, turn := s.turn.turn, phase := 0, tick := s.namedTick, smin := s.lowStep }
  if verdict ≠ 0 then void
  else if ph = 1 then { void with void := false, phase := 2 }
  else if expired then void
  else if ph = 2 then { void with void := false, phase := 3 }
  else { void with void := false, phase := 1, turn := s.nextTurn }

/-- The root decides once. -/
def decide (s : State) (verdict : Nat) (expired : Bool) : State :=
  if s.turn.decided then s
  else State.announce { s with turn := { s.turn with decided := true } } (s.answer verdict expired)

/-- The votes held for the phase. -/
def phaseVotes (s : State) : List Vote := s.turn.votes.filter fun v => v.phase == s.turn.phase

/-- With its own report and one from each child, a device reports upward, and the root decides. -/
def settleVote (s : State) : State :=
  match s.turn.ownDone with
  | none => s
  | some own =>
    let whole := s.children.all fun c => s.phaseVotes.any fun v => v.source == c
    let verdict := worst (own :: s.phaseVotes.map (·.verdict))
    if ¬ whole ∨ s.turn.voteSent then s
    else
      let t := { s with turn := { s.turn with voteSent := true } }
      if t.isRoot then t.decide verdict false else t.sendVote verdict t.lowStep

/-- The device's own part is done as its state shows (R342). -/
def ownPartOk (s : State) : Bool :=
  if s.turn.phase = 1 then s.allEnded
  else if s.turn.phase = 4 then
    (List.range 32).all (fun c => !((s.relay c).state == 1 && !(s.relay c).egress))
      && (!s.footing.train.ckpt || s.turn.step ≤ s.ckpt.sent)
  else true

/-- A bay of the job plan cannot be rebuilt: its rectangles hold a vacant position, or the quotas exceed the capacity left
(R478). -/
def cannotRebuild (s : State) : Bool :=
  (s.footing.bays.any fun x => (planBricks x.2).any s.vacant)
    || [Tier.clay, .loam, .marl].any fun t =>
      s.tierCapacity t < (s.footing.bays.map fun x => tierQuota { plan := x.2 } t).sum

/-- Phases a vote ends; NONE waits for the next boundary, HELD for a void. -/
def voting (s : State) : Bool := [0, 1, 2, 4].contains s.turn.phase

/-- This device's own part ends: DONE only where it is, FAILED whatever Mortar says where a bay of the job plan cannot be
rebuilt (R342, R478). -/
def ownDone (s : State) (verdict : Nat) : State :=
  let v := if s.cannotRebuild then 2 else verdict
  if ¬ s.footing.turn.enable ∨ ¬ s.voting ∨ s.turn.ownDone.isSome ∨ 3 ≤ verdict ∨ (v = 0 ∧ ¬ s.ownPartOk) then s
  else State.settleVote { s with turn := { s.turn with ownDone := some v } }

/-- A report from a child: a HELD one the root answers at once (R358); a FAILED one with no other device suspected is
the source's own (R479; log entry 66). -/
def takeVote (s : State) (source phase turn verdict step : Nat) : State :=
  if ¬ s.footing.turn.enable ∨ turn ≠ s.turn.turn ∨ ¬ s.children.contains source then s
  else
    let v : Vote := { source := source, phase := phase, verdict := verdict, step := step }
    let t := { s with turn := { s.turn with votes := (s.turn.votes.filter fun (x : Vote) => x.source != source || x.phase != phase) ++ [v] } }
    let u := if t.isRoot ∧ verdict = 2 ∧ t.system.suspects.isEmpty ∧ t.system.remapNext.isNone then t.declareFailed source else t
    if u.isRoot ∧ verdict = 1 then u.decide 1 false else u.settleVote

/-- The limit of a phase (R339). -/
def phaseLimit (s : State) : Option Nat :=
  let p := s.footing.turn
  if s.turn.phase = 1 then some p.genLimit else if s.turn.phase = 2 then some p.scoreLimit
  else if s.turn.phase = 3 then some p.learnLimit else if s.turn.phase = 4 then some p.redistLimit else none

/-- PHASE_LIMIT_EXPIRY at the root. -/
def limitExpired (s : State) : State :=
  match s.phaseLimit with
  | some l => if s.isRoot ∧ s.footing.turn.enable ∧ s.turn.phaseStart + l ≤ s.tb.tick then s.decide 0 true else s
  | none => s

/-- An announcement from the parent. -/
def heard (s : State) (kind turn phase tick smin : Nat) : State :=
  if ¬ s.footing.turn.enable ∨ s.isRoot then s
  else s.announce { void := kind = 1, turn := turn, phase := phase, tick := tick, smin := smin }

/-! ### The weight slots (R354, R355, R363) -/

def wslot (s : State) (b : Nat) (value : Word) : State :=
  let v := s.bay b
  let busy := v.wsPending || v.state == .running || v.state == .draining
  s.setBay b { v with wsDelta := if busy then v.wsDelta else bits value 0 12, wsPending := v.wsPending || value.getLsbD 13 }

end State

/-- OWN_PART_DONE (R342). -/
def execOwnPartDone (verdict : Nat) (s : State) : Out := .next (if s.awake then s.ownDone verdict else s)

/-- VOTE_REPORT (R342, R343, R358). -/
def execVoteReport (source phase turn verdict step : Nat) (s : State) : Out :=
  .next (if s.awake then s.takeVote source phase turn verdict step else s)

/-- PHASE_LIMIT_EXPIRY (R343). -/
def execPhaseLimitExpiry (s : State) : Out := .next (if s.awake then s.limitExpired else s)

/-- VOTE_ANNOUNCE (R342–R344). -/
def execVoteAnnounce (kind turn phase tick smin : Nat) (s : State) : Out :=
  .next (if s.awake then s.heard kind turn phase tick smin else s)

/-- WSLOT_WRITE (R355). -/
def execWslotWrite (agent bay : Nat) (value : Word) (s : State) : Out :=
  .next (if s.coreUp agent ∧ bay < 64 then s.wslot bay value else s)

end Sys2Proof.Machine
end

