-- ==== Sys2Proof/Machine/System.lean ====
section
/-!
DEFINITION. Failed devices (R413–R417, R479–R485): suspicion, substitution by a cairn's spare, and re-mapping of a role
onto a host; and MORTAR messages (R399).
-/
namespace Sys2Proof.Machine
namespace State

/-- Whether two places lie in one cairn. -/
def sameCairn (a b : List Nat) : Bool := cairnOf a == cairnOf b

/-- The three neighbours of a place inside its cairn (R414). -/
def cairnNeighbours (s : State) (f : Nat) : List Nat :=
  let c := s.coordsOf f
  (List.range 3).map fun a => s.devAt (lset c a (c.getD a 0 ^^^ 1))

/-- PORT_DOWN_TIMEOUT: SUSPECT goes to the spare over both standby ports, or to the vote root (R414, R479). -/
def suspectPeer (s : State) (p : Nat) : State :=
  let f := s.expectedPeer p
  let t := s.setPort p { s.port p with suspectSent := true }
  let h : MsgHdr := { typ := 0x14, arg := f }
  if s.footing.cairns ∧ ¬ s.system.noSpare then
    if sameCairn (s.coordsOf f) s.selfCoords then
      [0, 1].foldl (fun (u : State) m =>
        match u.standbyPort m none with
        | some q => u.sendOnPort q u.spareNum h []
        | none => u) t
    else t
  else t.sendMsg (if f = s.system.voteRoot then s.successorRoot f else s.system.voteRoot) h []

/-- Install a substitution on a device of the failed one's cairn: no spare is left (R416). -/
def noteSubst (s : State) (f former : Nat) : State :=
  { s with
    system := { s.system with subst := s.system.subst ++ [(f, former)], substCode := sOk }
    ports := s.ports.map fun c =>
      (c.1, { c.2 with detour := c.2.detour || (1 ≤ (s.portRole c.1).role && (s.portRole c.1).role ≤ 6 && s.expectedPeer c.1 == f) }) }

/-- A substitution arrives (R414 step 4, R416). -/
def installSubst (s : State) (f former : Nat) : State :=
  if s.system.subst.any fun x => x.1 == f then s
  else
    let t := s.noteSubst f former
    if ¬ s.system.substituting ∧ ¬ s.system.spare ∧ s.footing.cairns ∧ sameCairn (s.coordsOf f) s.selfCoords then
      State.degrade { t with system := { t.system with substDev := f, substValid := true, noSpare := true } } 5
        (ksSource false) sOk f
    else t

/-- The spare takes a failed device's place (R414 step 3, R416, R481). -/
def substituteFor (s : State) (f : Nat) : State :=
  let c := s.coordsOf f
  let former := s.system.device
  let t := { s with
    system := { s.system with
      device := f, x := c.getD 0 0, y := c.getD 1 0, z := c.getD 2 0, spare := false, substituting := true
      subst := s.system.subst ++ [(f, former)], substDev := f, substValid := true, noSpare := true, substCode := sOk }
    ckpt := { s.ckpt with
      slots := s.ckpt.slots.filter fun (x : Nat × CkptSlot) => x.2.source == f
      kept := s.ckpt.kept.filter fun i => (s.slot i).source == f && (s.slot i).state != 0 } }
  let u := t.sendAll ((List.range (s.footing.ex * s.footing.ey * s.footing.ez)).filter (· ≠ f)) { typ := 0x15, arg := f }
    (leBytes 2 former)
  u.degrade 5 (ksSource false) sOk f

/-- A device is suspected (R414, R479); a second failure in the cairn of a spare in use is not substituted. -/
def suspected (s : State) (source f : Nat) : State :=
  let known := s.system.suspects.contains (f, source)
  let t := if known then s else { s with system := { s.system with suspects := s.system.suspects ++ [(f, source)] } }
  let from_ := (t.system.suspects.filter fun x => x.1 == f).map (·.2)
  if s.system.spare then
    if s.isDevice f ∧ 16320 + s.cairnNum (s.coordsOf f) = s.system.device ∧ (s.cairnNeighbours f).all (from_.contains ·) then
      t.substituteFor f
    else t
  else if s.system.substituting ∧ f ≠ s.system.device ∧ sameCairn (s.coordsOf f) s.selfCoords then
    { t with system := { t.system with substCode := eSubstNone } }
  else if 2 ≤ from_.length then t.declareFailed f
  else t

/-- SUBSTITUTE: installed, and at the vote root a declaration with placement spare (R414, R479). -/
def substitution (s : State) (f former : Nat) : State :=
  let known := s.system.subst.any fun x => x.1 == f
  let t := s.installSubst f former
  if ¬ known ∧ t.answersFor f ∧ t.footing.train.enable then t.declareAs f (f, 1) else t

/-- The step a re-mapping's void returns to, as this device knows it: what it keeps of the failed role, else its own
acknowledged checkpoint (R483; log entry 71). -/
def remapStep (s : State) (f : Nat) : Nat :=
  if s.ckpt.slots.any fun (c : Nat × CkptSlot) => c.2.state == 2 && c.2.source == f then s.heldStep (some f)
  else if s.footing.train.ckpt then min s.ckpt.sent s.turn.step
  else s.turn.step

/-- The host restores the role's state: the spare from its mirror, which it then releases; any other host asks the
buddy (R480, R481, R483). -/
def hostTakes (s : State) (f placement : Nat) : State :=
  if placement = 1 then
    let good := s.ckpt.slots.filter fun (c : Nat × CkptSlot) => c.2.source == f && s.slotGood c.1
    match good.find? fun c => c.2.step == s.heldStep (some f) with
    | some c =>
      let t := s.restoreSlot c.1
      let u := { t with ckpt := { t.ckpt with slots := [], shares := [], kept := [] }
                        system := { t.system with hostReady := t.system.hostReady ++ [t.system.device] } }
      u.sendAll (u.jobDevices.filter (· ≠ u.system.device)) { typ := 0x30, arg := 0x0802 } (leBytes 2 u.system.device ++ zeros 6)
    | none => { s with system := { s.system with remapCode := eCkptNone } }
  else match s.jobIndex with
    | some j => s.fetchState j
    | none => s

/-- The hosts once a failed device's role, and every role it hosted, has a new host (R480, R484). -/
def rehosted (s : State) (f host : Nat) : List (Nat × Nat) :=
  ((s.system.remap.filter fun (x : Nat × Nat) => x.1 ≠ f).map fun (x : Nat × Nat) => if x.2 = f then (x.1, host) else x) ++ [(f, host)]

/-- Tick B of a re-mapping: the table changes, bypasses begin, the running turn is void, and the host takes the role
(R480, R482, R483). -/
def fireRemap (s : State) : State :=
  match s.system.remapNext with
  | none => s
  | some (f, host, placement, _) =>
    let gone := placement = 2 ∨ placement = 3
    let here := s.system.device
    let t := { s with system := { s.system with
      remapNext := none
      hostReady := []
      removed := if gone ∧ ¬ s.system.removed.contains f then s.system.removed ++ [f] else s.system.removed
      remap := if placement = 2 then s.rehosted f host else s.system.remap
      standing := if gone ∧ f = here then 2 else if host = here then 0 else s.system.standing } }
    let u := if s.footing.turn.enable then t.takeVoid t.turn.turn (s.remapStep f) else t
    if host = here ∧ placement ≠ 3 then u.hostTakes f placement else u

/-- Entries of the remap table (R485, R486). -/
def remapCount (s : State) : Nat := min 64 (s.system.removed.length + s.system.remap.length)

end State

/-- PORT_DOWN_TIMEOUT (R414, R479). -/
def execPortDownTimeout (port : Nat) (s : State) : Out :=
  .next (
    let q := s.port port
    let r := (s.portRole port).role
    if s.awake ∧ port < 16 ∧ 1 ≤ r ∧ r ≤ 6 ∧ q.state = .down ∧ ¬ q.suspectSent ∧ q.downSince.any (· + 256 ≤ s.tb.up) then
      s.suspectPeer port
    else s)

/-- SUSPECT (R414, R479). -/
def execSuspect (source device : Nat) (s : State) : Out := .next (if s.awake then s.suspected source device else s)

/-- SUBSTITUTE (R414–R416, R479). -/
def execSubstitute (failed spare : Nat) (s : State) : Out :=
  .next (if s.awake ∧ s.footing.cairns ∧ s.isDevice failed then s.substitution failed spare else s)

/-- MORTAR_MESSAGE (R399): handed to Mortar. -/
def execMortarMessage (source kind : Nat) (body : Bytes) (s : State) : Out :=
  .next (if s.awake then s.emit (.mortarMsg source kind body) else s)

/-- REMAP_ANNOUNCE (R483): passed down the tree, and due at tick B. -/
def execRemapAnnounce (failed host placement tick : Nat) (s : State) : Out :=
  .next (if s.awake ∧ ¬ s.isRoot ∧ placement < 4 then
      (s.sendRemap s.children failed host placement tick).takeRemap failed host placement tick
    else s)

/-- REMAP_READY (R483). -/
def execRemapReady (host : Nat) (s : State) : Out :=
  .next (if s.awake ∧ ¬ s.system.hostReady.contains host then
      { s with system := { s.system with hostReady := s.system.hostReady ++ [host] } }
    else s)

/-- STATE_FETCH (R483). -/
def execStateFetch (source job slot : Nat) (s : State) : Out :=
  .next (if s.awake ∧ slot < 2 then s.answerFetch source job slot else s)

/-- REMAP_TABLE_FETCH (R485): at most 64 entries. -/
def execRemapTableFetch (removed : List Nat) (hosts : List (Nat × Nat)) (s : State) : Out :=
  .next (if s.awake ∧ removed.length + hosts.length ≤ 64 ∧ s.tb.state ≠ .unset then
      { s with system := { s.system with
        removed := removed, remap := hosts
        standing := if hosts.any fun x => x.1 == s.system.device then 1
          else if removed.contains s.system.device then 2 else s.system.standing } }
    else s)

end Sys2Proof.Machine
end

