-- ==== Sys2Proof/Machine/WeightOpen.lean ====
section
/-!
DEFINITION. Weight images (R434–R437): unwrapping the content key, and the weight-open commands OPEN, ACCEPT and CHECK.
-/
namespace Sys2Proof.Machine

/-- Entry of the binding table with a tag: wrapped key and GCM tag (R434). -/
def bindingEntry (img tag : Bytes) : Option (Bytes × Bytes) :=
  let base := 192 + 16 * weightTensors img
  ((List.range (weightMembers img)).find? fun m => slice img (base + 64 * m) 16 == tag).map fun m =>
    (slice img (base + 64 * m + 16) 32, slice img (base + 64 * m + 48) 16)

/-- The content key of an image as this device unwraps it; none where it is not bound (R435). -/
def unwrapKey (img : Bytes) : Option Bytes :=
  let tag := bindingTagOf bkPub
  (bindingEntry img tag).bind fun e =>
    let k := shake 44 (ascii "Gnolis weight wrap" ++ x448 bkPriv (slice img 96 56) ++ tag ++ slice img 32 32)
    gcmOpen (slice k 0 32) (slice k 32 12) (img.take 192) e.1 e.2

/-- The binding-set digest (R430). -/
def bindingSet (img : Bytes) : Bytes := digest (slice img (192 + 16 * weightTensors img) (64 * weightMembers img))

/-- Decrypt or encrypt tile k of tensor t (R435). -/
def tileCipher (key : Bytes) (t k : Nat) (tile : Bytes) : Bytes :=
  aesStream key (fun i => leBytes 4 t ++ leBytes 4 k ++ leBytes 4 i ++ zeros 4) tile

namespace State

/-- The object of tensor t of a header. -/
def tensorObj (header : Nat) (img : Bytes) (t : Nat) : Nat := ownerOf header * 2 ^ 26 + (weightTensor img t).1

def tensorObjs (header : Nat) (img : Bytes) : List Nat := (List.range (weightTensors img)).map (tensorObj header img)

/-- Every tile of an image's tensors, tensor by tensor. -/
def imageTiles (header : Nat) (img : Bytes) : List (Nat × Nat × Nat) :=
  (List.range (weightTensors img)).flatMap fun t =>
    (List.range (weightTensor img t).2.2).map fun k => (t, k, tensorObj header img t)

/-- What a read of the tensors showed at a tile of an object. -/
def tensorRead (reads : List (Nat × ObjRead)) (id k : Nat) : TileRead :=
  tileRead (((reads.find? fun x => x.1 == id).map (·.2)).getD []) k

/-- Read every tile of an image's tensors in table order: none where one is uncorrectable (R436). -/
def readTensors (s : State) (header : Nat) (img : Bytes) (reads : List (Nat × ObjRead)) : State × Option (List Bytes) :=
  (imageTiles header img).foldl (fun (acc : State × Option (List Bytes)) x =>
    match acc.2, acc.1.obj x.2.2 with
    | some ts, some o =>
      let r := acc.1.fetchTile x.2.2 o x.2.1 (tensorRead reads x.2.2 x.2.1)
      (r.1, r.2.map fun b => ts ++ [b])
    | _, _ => (acc.1, none)) (s, some [])

/-- The weight digest of plaintext tiles (R435). -/
def plainDigest (img : Bytes) (tiles : List Bytes) : Bytes := digest (slice img 192 (16 * weightTensors img) ++ tiles.flatten)

/-- The plaintext of the tiles of an image's tensors. -/
def openTiles (header : Nat) (img key : Bytes) (tiles : List Bytes) : List Bytes :=
  ((imageTiles header img).zip tiles).map fun x => tileCipher key x.1.1 x.1.2.1 x.2

/-- OPEN's writing of the plaintext in place: where a tile has no room nothing is changed (log entry 78). -/
def writeTensors (s : State) (header : Nat) (img : Bytes) (tiles : List Bytes) : State × Code :=
  let r := ((imageTiles header img).zip tiles).foldl (fun (acc : State × Code) x =>
    if acc.2 ≠ sOk then acc else acc.1.rewriteTile x.1.2.2 x.1.2.1 x.2) (s, sOk)
  if r.2 = sOk then r else (s, r.2)

/-- A mismatch of the digest: the tensors are deleted (R436). -/
def deleteTensors (s : State) (header : Nat) (img : Bytes) : State :=
  (tensorObjs header img).foldl (fun (t : State) id =>
    match t.obj id with
    | some o => t.deleteObj id o
    | none => t) s

/-- The lineage's origin: the first image opened or accepted that the job plan names for the masters (R438). -/
def noteOrigin (s : State) (dig : Bytes) : State :=
  if s.cs.origin = [] ∧ s.footing.images.any fun x => x.2.2.1 == 1 && x.2.2.2.1 == dig then
    { s with cs := { s.cs with origin := dig, updates := 0 } }
  else s

/-- The binding tags of an image's table (R434). -/
def bindingTags (img : Bytes) : List Bytes :=
  (List.range (weightMembers img)).map fun m => slice img (192 + 16 * weightTensors img + 64 * m) 16

/-- The tensors of an image that has been opened hold plaintext, which only its members may receive (R437). -/
def noteOpened (s : State) (header : Nat) (img : Bytes) : State :=
  (tensorObjs header img).foldl (fun (t : State) id =>
    match t.obj id with
    | some o => t.setObj id (some { o with bound := some (bindingTags img) })
    | none => t) s

/-- Make or change a weight entry (R430). -/
def enterWeight (s : State) (header : Nat) (img : Bytes) (claimed : Bool) (device : Nat) : State :=
  let dig := slice img 32 32
  let e : WeightEntry := { digest := dig, binding := bindingSet img, claimed := claimed, device := device, tick := s.tb.tick }
  let known := s.cs.weights.any fun x => x.digest == dig
  let list := if known then s.cs.weights.map fun (x : WeightEntry) => if x.digest = dig then e else x else s.cs.weights ++ [e]
  (State.noteOrigin { s with cs := { s.cs with weights := list, wopenOrigin := if claimed then 2 else 1 } } dig).noteOpened header img

/-- A weight replacement waiting for this image may request its flips (R384). -/
def startFlips (s : State) (img : Bytes) : State :=
  let hd := digest (weightSigned img)
  (List.range 16).foldl (fun (t : State) m =>
    let g := aget {} t.serving.groups m
    match g.replace with
    | none => t
    | some r =>
      if r.header = hd ∧ ¬ r.ready then
        let g1 := { g with replace := some { r with ready := true, weights := slice img 32 32 } }
        let u := { t with serving := { t.serving with groups := aput {} t.serving.groups m g1 } }
        r.bays.foldl (fun (u : State) b => u.setBay b { u.bay b with wsPending := true }) u
      else t) s

/-- Pin or release a header and its tensors for a command's duration (R254). -/
def pinImage (s : State) (header : Nat) (img : Bytes) (pin : Bool) : State :=
  (header :: tensorObjs header img).foldl (fun (t : State) id => if pin then t.pinObj id else t.unpinObj id) s

/-- Why a weight-open command is refused, the first that applies (R436, R437, R445). -/
def wopenCode (s : State) (cmd reserved : Nat) : Code :=
  let id := s.cs.wopenArg.toNat
  let peer := bits s.cs.wopenPeer 0 14
  let q := s.port (bits s.cs.wopenPeer 14 4)
  if reserved ≠ 0 ∨ cmd = 0 ∨ 4 ≤ cmd then eBadField
  else if s.cs.wopen.isSome then eCsBusy
  else match s.readable id with
    | none => if (s.obj id).isSome then eNoSuchObject else eBondDigest
    | some o =>
      let img := s.wholeObj id o
      if o.validated.isNone ∨ fieldLE img 0 4 ≠ weightMagic then eBondDigest
      else if (unwrapKey img).isNone then eNotBound
      else if cmd = 2 ∧ ¬ (q.state = .up ∧ q.peerValid ∧ q.peerDev = peer) then eNotBound
      else if (tensorObjs id img).any fun t => (s.readable t).isNone then eNoSuchObject
      else if cmd ≠ 3 ∧ 256 ≤ s.cs.weights.length ∧ ¬ s.cs.weights.any fun x => x.digest == slice img 32 32 then eAttestFull
      else sOk

/-- A write to CS_WOPEN_CTRL of the boot-primary Cornerstone. -/
def wopenCtrl (s : State) (south : Bool) (cmd reserved : Nat) : State :=
  if south ≠ s.boot.primaryS then s
  else
    let code := s.wopenCode cmd reserved
    if code ≠ sOk then { s with cs := { s.cs with wopenCode := code } }
    else
      let id := s.cs.wopenArg.toNat
      let img := match s.obj id with
        | some o => s.wholeObj id o
        | none => []
      State.pinImage { s with cs := { s.cs with wopen := some (cmd, id) } } id img true

/-- A weight-open command ends with a code. -/
def wopenEnd (s : State) (c : Code) : State := { s with cs := { s.cs with wopenCode := c } }

/-- OPEN (cmd 1) or CHECK ends, its tensors read as tiles: the digest of the plaintext decides (R436). -/
def wopenTiles (s : State) (cmd id : Nat) (img : Bytes) (tiles : List Bytes) : State :=
  let plain := if cmd = 1 then openTiles id img ((unwrapKey img).getD []) tiles else tiles
  let w := if cmd = 1 then s.writeTensors id img plain else (s, sOk)
  if w.2 ≠ sOk then w.1.wopenEnd w.2
  else if plainDigest img plain ≠ slice img 32 32 then (w.1.deleteTensors id img).wopenEnd eWeightDigest
  else if cmd = 1 then (w.1.enterWeight id img false 0).startFlips img
  else if w.1.cs.weights.any fun x => x.digest == slice img 32 32 then w.1.enterWeight id img false 0
  else w.1

/-- The running weight-open command ends (R436), unless a unit holds the reads of its tensors. -/
def wopenDone (s : State) (reads : List (Nat × ObjRead)) : State :=
  match s.cs.wopen with
  | none => s
  | some (cmd, id) =>
    let img := match s.obj id with
      | some o => s.wholeObj id o
      | none => []
    let t := State.pinImage { s with cs := { s.cs with wopen := none, wopenCode := sOk } } id img false
    if cmd = 2 then (t.enterWeight id img true (bits s.cs.wopenPeer 0 14)).startFlips img
    else if (tensorObjs id img).any s.heldObj then s
    else
      let r := t.readTensors id img reads
      match r.2 with
      | none => (r.1.error 2 (ksSource s.boot.primaryS) eStepAbort (BitVec.ofNat 32 id)).wopenEnd eStepAbort
      | some tiles => r.1.wopenTiles cmd id img tiles

end State

/-- OPEN (R436). -/
def execOpenImage (agent keystone reserved : Nat) (s : State) : Out :=
  .next (if s.coreUp agent ∧ keystone < 2 then s.wopenCtrl (keystone == 1) 1 reserved else s)

/-- ACCEPT (R436, R437). -/
def execAcceptImage (agent keystone reserved : Nat) (s : State) : Out :=
  .next (if s.coreUp agent ∧ keystone < 2 then s.wopenCtrl (keystone == 1) 2 reserved else s)

/-- CHECK (R436). -/
def execCheckImage (agent keystone reserved : Nat) (s : State) : Out :=
  .next (if s.coreUp agent ∧ keystone < 2 then s.wopenCtrl (keystone == 1) 3 reserved else s)

/-- WOPEN_COMPLETE (R436). -/
def execWopenComplete (read : List (Nat × ObjRead)) (s : State) : Out := .next (if s.awake then s.wopenDone read else s)

end Sys2Proof.Machine
end

