-- ==== Sys2Proof/Machine/Boot.lean ====
section
/-!
DEFINITION. Boot (18_boot_management.md): the release of reset (R494, R496), entropy and identity (R424, R427), firmware
(R449), die tests and the repair map (R35, R73), Footing (R454, R455), the scrub (R442), bundle objects and readiness
(R456–R458); the image fetch's start and its objects (R467).
-/
namespace Sys2Proof.Machine

/-- The memory units by number: D0–D19, X0–X3. -/
def allUnits : List Nat := List.range 20 ++ [32, 33, 34, 35]

/-- The degraded flags of a repair map: an entry in all 32 columns of a die (R75). -/
def fullDie (rows : Assoc Nat) (a : Nat) : Bool := (List.range 32).all fun c => aget 0x3F rows (a * 32 + c) != 0x3F

/-- The repair map (R73): fused entries, then per column the lowest faulty site where the column has none. -/
def repairRows (fused faulty : List (Nat × Nat × Nat)) : Assoc Nat :=
  (List.range 128).foldl (fun (m : Assoc Nat) i =>
    let here (l : List (Nat × Nat × Nat)) : List Nat := (l.filter fun x => x.1 == i / 32 && x.2.2 == i % 32 && x.2.1 < 33).map (·.2.1)
    match here fused with
    | r :: _ => aput 0x3F m i r
    | [] => match here faulty with
      | [] => m
      | rs => aput 0x3F m i (rs.foldl min 32)) []

def fieldColumns (fused faulty : List (Nat × Nat × Nat)) : Assoc Bool :=
  arun false 0 ((List.range 128).map fun i =>
    let has (l : List (Nat × Nat × Nat)) : Bool := l.any fun x => x.1 == i / 32 && x.2.2 == i % 32 && x.2.1 < 33
    !has fused && has faulty)

/-- The slot order of R455: descending, slot A first on a tie. -/
def byKey (a b : Option Nat) : List Bool :=
  let la := if a.isSome then [false] else []
  let lb := if b.isSome then [true] else []
  if (a.getD 0) < (b.getD 0) then lb ++ la else la ++ lb

namespace State

/-! ### The steps of boot (R456, R458) -/

/-- Boot stops before firmware verification ends: the stage and code, BOOT_FAIL_N, no management port. -/
def stopBoot (s : State) (code : Code) : State :=
  { s with boot := { s.boot with stage := .failed, code := code, mgmtOpen := false }
           pins := { s.pins with bootFail := true } }

/-- Recovery: the management port opens, unless Keystone N failed its test. -/
def recover (s : State) (code : Code) (dark : Bool) : State :=
  { s with boot := { s.boot with stage := .recovery, code := code, mgmtOpen := !dark, mortar := false }
           pins := { s.pins with bootFail := true } }

/-- The release of reset (R491, R494): straps sampled, rails checked, the ROM begins. -/
def release (s : State) (f : ReleaseFacts) : State :=
  let t := { s with pins := { s.pins with pwrOk := true, resetIn := false, bootFail := !f.railsOk } }
  if f.testMode ∨ ¬ f.railsOk then t
  else { t with inReset := false, boot := { t.boot with stage := .rom, primaryS := f.bootsel, mgmt10G := f.mgmtSel } }

/-- The start-up tests of a Keystone's entropy source end. -/
def entropyTested (s : State) (south pass : Bool) : State :=
  if pass then s.setEntropy south 1
  else let t := (s.setEntropy south 3).count (csEntropyFail south) 1
    { t with cs := { t.cs with lastCode := eEntropy } }

/-- The start-up tests of the boot primary's entropy source, and the identity certificate (R424, R425, R427); the other
Keystone is held in reset (R20, R456). -/
def entropyUp (s : State) (pass : Bool) : State :=
  let v := s.entropyTested s.boot.primaryS pass
  if ¬ pass then v.stopBoot eEntropy
  else if ¬ ownIdentityOk (aread 0xFF v.flash 0 280) then
    State.stopBoot { v with cs := { v.cs with lastCode := eIdentity } } eIdentity
  else
    let ak := v.drawBytes 57
    let w := v.drew 57
    let nonce := w.drawBytes 32
    let x := w.drew 32
    { x with
      cs := { x.cs with identityOk := true, deviceId := deviceIdOf dikPub, akPriv := ak, akPub := edPublic ak, bootNonce := nonce }
      boot := { x.boot with stage := .firmware, entropyDone := true } }

/-- Both firmware slots have been read and verified (R449); the other Keystone is released, and CXL training begins. -/
def firmwareDone (s : State) (readable : Bool) (m : Nat) : State :=
  if ¬ readable ∨ ¬ (m = 128 ∨ m = 256 ∨ m = 512) then s.stopBoot eFirmware
  else
    let a := firmwareCheck s.flash false
    let b := firmwareCheck s.flash true
    let t := { s with boot := { s.boot with
      flashMib := m, fwA := a.1, fwB := b.1
      svnA := if a.1 = sOk then some a.2.1 else none, svnB := if b.1 = sOk then some b.2.1 else none } }
    if a.1 ≠ sOk ∧ b.1 ≠ sOk then t.stopBoot eFirmware
    else
      let u := [32, 33, 34, 35].foldl (fun (u : State) x => u.setUnit x { u.unit x with state := .training }) t
      State.leaveStage1 { u with boot := { u.boot with fwVerified := true } }

/-- Vacant positions of a die. -/
def vacantOn (s : State) (a : Nat) : List Nat := ((List.range 1024).map fun i => a * 1024 + i).filter s.vacant

/-- The code shown where a die failed its test, which no chapter names: one of the codes the device returns for an
error, 0x0100–0x08FF (R12, R14; log entry 80). -/
def dieFail (status : Nat) : Code := BitVec.ofNat 16 (0x100 + (Config.dieFailCode status).toNat % 0x800)

/-- Die start-up tests and the repair map (R35, R73, R75). The entries fused at test are the part's own (R73). The spec
names neither the source nor the argument of E_D2D_FAIL at start-up: the model takes the boot-primary Keystone and 0
(log entry 101). -/
def selfTest (s : State) (f : SelfTestFacts) : State :=
  let rows := repairRows Config.fusedRepair f.faulty
  let t := { s with
    dies := { s.dies with
      ashlarOk := f.ashlarOk, clayOk := f.clayOk, ksN := f.ksN, ksS := f.ksS, d2d := f.d2d
      faultRow := rows, fieldOrigin := fieldColumns Config.fusedRepair f.faulty
      faulty := (Config.fusedRepair ++ f.faulty).foldl (fun (m : Assoc Bool) x =>
        if x.1 < 4 ∧ x.2.1 < 33 ∧ x.2.2 < 32 then aput false m (siteIndex x.1 x.2.1 x.2.2) true else m) [] }
    boot := { s.boot with selfTested := true } }
  let u := (List.range 4).foldl (fun (u : State) a =>
    let v := match u.vacantOn a with
      | n :: _ => u.degrade 0 a sOk n
      | [] => u
    if fullDie rows a then v.degrade 1 a sOk a else v) t
  let good := f.ashlarOk = 0xF ∧ f.clayOk = 0xFFFF ∧ f.ksN ∧ f.ksS
  if ¬ f.d2d then (u.recover eD2dFail (!f.ksN)).fatalError eD2dFail (ksSource s.boot.primaryS) 0
  else if ¬ good then
    u.recover (dieFail (f.ashlarOk.toNat + 16 * f.clayOk.toNat + 2 ^ 20 * bit01 f.ksN + 2 ^ 21 * bit01 f.ksS)) (!f.ksN)
  else { u with boot := { u.boot with stage := .footing } }

/-- The initial head of the journal (R443). -/
def journalStart (systemDigest : Bytes) : Bytes := digest (ascii "Gnolis journal" ++ systemDigest)

/-- The serving groups of a Footing: the slot's bays by their roles (R374). -/
def groupsOf (f : Footing) : Assoc Group :=
  let role (b : Nat) : Nat := ((f.bays.find? fun x => x.1 == b).map (·.2.role)).getD 0
  f.models.foldl (fun (m : Assoc Group) x =>
    let bays := (List.range 64).filter fun b => x.2.bays.getLsbD b
    aput {} m x.1 { prefill := bays.filter fun b => role b == 5, decode := bays.filter fun b => role b == 6 }) []

/-- A bay plan entry of Footing is built unless it names a vacant position (R79, R478). -/
def buildBay (s : State) (x : Nat × BayPlan) : State :=
  let v := s.bay x.1
  if (planBricks x.2).any s.vacant then s.setBay x.1 { v with lastCode := eBrickVacant }
  else s.setBay x.1 { v with plan := x.2 }

/-- The chosen Footing comes into use (R455, R456): bays, place in the system, ports, groups, journal, and Mortar's
watchdogs. -/
def installFooting (s : State) (f : Footing) (fw ft : Bool) (digs : Bytes × Bytes) : State :=
  let spare := isSpareImage f
  let dev := if spare then 16320 + f.coordZ else f.coordX + f.ex * (f.coordY + f.ey * f.coordZ)
  let head := journalStart f.systemDigest
  let t := { s with
    footing := f
    boot := { s.boot with stage := .bringUp, fwSlot := fw, ftSlot := ft, mortar := true, mgmtOpen := true }
    cs := { s.cs with fwDigest := digs.1, mortarDigest := digs.2, debugLocked := f.confidential }
    system := { s.system with
      device := dev, x := if spare then 0 else f.coordX, y := if spare then 0 else f.coordY
      z := if spare then 0 else f.coordZ, spare := spare, voteRoot := f.treeRoot }
    journal := { s.journal with seq := 0, head := head, baseSeq := 0, baseHead := head, entries := [] }
    serving := { s.serving with groups := groupsOf f }
    ports := arun {} 0 ((List.range 16).map fun p =>
      { s.port p with state := if (aget {} f.ports p).role = 0 then .disabled else .training })
    tb := { s.tb with upIndex := 0, upstream := if f.timeSource = 2 then f.upstreams.headD 0 else 0, lastBeacon := s.tb.up }
    rel := { s.rel with kicks := (List.range 32).map fun c => (c, s.tb.up) } }
  let u := (List.range 20).foldl (fun (u : State) d =>
    if f.dramExpect.testBit d then u.setUnit d { u.unit d with state := .training } else u) t
  let w := f.bays.foldl buildBay u
  { w with system := { w.system with
    standing := if ¬ spare ∧ f.train.enable ∧ (w.jobAt w.selfCoords).isNone then 1 else 0 } }

/-- The pairs of R455 in its order. -/
def slotPairs (s : State) (a b : Code × Footing) : List (Bool × Bool) :=
  let fts := byKey (if a.1 = sOk then some a.2.generation else none) (if b.1 = sOk then some b.2.generation else none)
  (byKey s.boot.svnA s.boot.svnB).flatMap fun fw => fts.map fun ft => (fw, ft)

/-- Sectors of the Type 3 capacity discovered so far (R248, R280); a port that has not told its capacity yet may still
have all a port can (log entry 123). -/
def marlFound (s : State) : Nat := ([32, 33, 34, 35].map fun u =>
  let v := s.unit u
  if v.state = .training ∧ v.found = 0 then 2 ^ 34 else v.found).sum

/-- Both Footing slots have been verified: the slots are chosen, or the device enters recovery. -/
def footingDone (s : State) : State :=
  let a := footingCheck s.flash s.boot.flashMib false s.marlFound
  let b := footingCheck s.flash s.boot.flashMib true s.marlFound
  let t := { s with boot := { s.boot with ftA := a.1, ftB := b.1 } }
  let fits (x : Bool × Bool) : Bool :=
    (if x.2 then b.2 else a.2).minSvn ≤ ((if x.1 then s.boot.svnB else s.boot.svnA).getD 0)
  match (s.slotPairs a b).find? fits with
  | some x => t.installFooting (if x.2 then b.2 else a.2) x.1 x.2 (firmwareCheck s.flash x.1).2.2
  | none => t.recover eFooting false

/-! ### The scrub (R442) -/

/-- No memory unit is still being brought up. -/
def unitsSettled (s : State) : Bool :=
  s.boot.ddrDone && allUnits.all fun u => (s.unit u).state != .training

/-- In confidential mode each Keystone's DRBG makes the keys of its units (R21, R427). -/
def keysReady (s : State) : Bool := !s.footing.confidential || (s.drbgServes false && s.drbgServes true)

/-- The reset scrub completes: in confidential mode every unit in service has a new key, in standard mode every sector
reads zero. -/
def scrubAll (s : State) : State :=
  let units := allUnits.filter fun u => (s.unit u).state == .inService
  let t := if s.footing.confidential then
      units.foldl (fun (t : State) u =>
        { t.drew 64 with cs := { (t.drew 64).cs with unitKeys := aput [] t.cs.unitKeys u (t.drawBytes 64) } }) s
    else { s with sectors := [] }
  { t with cs := { t.cs with scrubbed := true, lastCode := sOk }, sramN := [], sramS := [] }

/-! ### Objects made by Mortar (R456, R467) -/

/-- Create an object in Loam with its content, tile by tile, charged to its owner; the code of the first failure. -/
def loamObject (s : State) (id : Nat) (o : Obj) (content : Nat → Bytes) : State × Code :=
  s.makeLoam id o fun k => sieveEncode o.bytesKind o.fmt id (content k)

/-- A byte object of given bytes. -/
def bytesObj (n : Nat) : Obj :=
  { bytesKind := true, fmt := 0, tiles := (n + 4095) / 4096, size := n, residence := .loam, creating := false, charged := 0 }

/-- Create one bundle object, and validate it where its magic calls for it; one that fails is deleted and alarmed
(R456, R457). -/
def addBundle (s : State) (x : Nat × Bytes) : State :=
  let r := s.loamObject x.1 (bytesObj x.2.length) fun k => slice x.2 (4096 * k) 4096
  if r.2 ≠ sOk then r.1.alarm 7 r.2 (BitVec.ofNat 32 x.1)
  else if ¬ [bondMagic, layoutMagic, weightMagic].contains (fieldLE x.2 0 4) then r.1
  else
    let c := r.1.checkObj x.1 []
    let t := c.1.recordCheck x.1 c.2
    if c.2.code = sOk then t
    else match t.obj x.1 with
      | some o => (t.deleteObj x.1 o).alarm 7 c.2.code (BitVec.ofNat 32 x.1)
      | none => t

/-! ### The image fetch (R467) -/

/-- GETs that may be sent now: at most 256 outstanding, 8,000 bytes each; before the header's end is known, the header
alone. -/
def fillGets : Nat → Fetch → Fetch
  | 0, f => f
  | n + 1, f =>
    if 256 ≤ f.gets.length ∨ f.total ≤ f.next then f
    else
      let len := min 8000 (f.total - f.next)
      fillGets n { f with gets := f.gets ++ [{ offset := f.next, length := len, tries := 0 }], next := f.next + len }

/-- The port of the fetch: E0, or E1 while E0 is down. -/
def fetchPort (s : State) : Nat := if s.serving.port0.linkUp then 0 else 1

/-- Send a GET to the storage endpoint. -/
def sendGet (s : State) (dig : Bytes) (g : Get) : State :=
  s.emit (.datagram s.fetchPort s.footing.storageAddr s.footing.storageUdp
    (leBytes 4 0x48435447 ++ leBytes 1 1 ++ zeros 3 ++ slice dig 0 32 ++ leBytes 8 g.offset ++ leBytes 4 g.length))

/-- Send the GETs a fetch may add. -/
def pumpFetch (s : State) (f : Fetch) : State :=
  let g := fillGets 256 f
  (g.gets.drop f.gets.length).foldl (fun (t : State) x => t.sendGet f.digest x) { s with fetch := some g }

/-- Start the fetch of an image by its header digest, one at a time (log entry 81): the first 192 bytes tell the
header's length. -/
def startFetch (s : State) (dig : Bytes) (owner : Nat) : State :=
  if s.fetch.isSome ∨ ¬ s.footing.hasStorage then s
  else s.pumpFetch { digest := dig, next := 0, total := 192, gets := [], data := [], owner := owner }

/-- A validated or fetched header of a digest is on the device. -/
def holdsHeader (s : State) (dig : Bytes) : Bool :=
  s.objs.any fun c => match c.2 with
    | some o => o.bytesKind && fieldLE (s.objBytes c.1 o 0 4) 0 4 == weightMagic
        && digest (weightSigned (s.wholeObj c.1 o)) == dig
    | none => false

/-- The images the job plan and the serving table name, with their owners (R467). -/
def imagesWanted (s : State) : List (Bytes × Nat) :=
  (s.footing.images.map fun x => (x.2.2.2.2, x.2.1)) ++ s.footing.models.map fun x =>
    (x.2.header, ((List.range 64).find? fun b => x.2.bays.getLsbD b).getD 0)

/-- The seed device fetches the next image it does not hold. -/
def fetchNext (s : State) : State :=
  if s.system.device ≠ s.footing.seedDevice then s
  else match s.imagesWanted.find? fun x => !(x.1.all (· == 0)) && !s.holdsHeader x.1 with
    | some x => s.startFetch x.1 x.2
    | none => s

/-! ### Readiness (R457) -/

/-- Mapped-out units put the device in degraded operation (R431), once. -/
def bootMapOuts (s : State) : State :=
  match allUnits.find? fun u => (s.unit u).state == .mappedOut with
  | some u => if s.rel.degraded.getLsbD 2 then s else s.degrade 2 (ksSource (unitSouth u)) eUnitDown u
  | none => s

/-- The device is ready: bundle objects are made, and Mortar starts the job plan. -/
def becomeReady (s : State) : State :=
  let t := s.footing.bundle.foldl addBundle s.bootMapOuts
  State.fetchNext { t with boot := { t.boot with stage := .ready, bundleDone := true } }

def readyNow (s : State) : State :=
  if ¬ s.cs.scrubbed ∨ ¬ s.unitsSettled then s
  else if s.tb.state ≠ .locked ∨ ¬ s.cs.akReady then { s with boot := { s.boot with stage := .time } }
  else s.becomeReady

/-! ### Entropy at run time (R427) -/

/-- The retest ends: service resumes with what waited, or it is the second failure. -/
def retestDone (s : State) (south pass : Bool) : State :=
  if pass then
    let t := (s.setEntropy south 1).resumeHellos (bit01 south)
    if t.cs.akReady then t.startHandshakes ((List.range 8).map (· + 8 * bit01 south)) else t
  else s.healthFail south

end State

/-- RESET_RELEASE (R456, R491, R494). -/
def execResetRelease (facts : ReleaseFacts) (s : State) : Out :=
  .next (if s.inReset ∧ ¬ s.stopped then s.release facts else s)

/-- ENTROPY_STARTUP_TESTS_DONE (R20, R424, R427): of the boot primary before the firmware is verified, and of the other
Keystone once that has released it; its failure then stops boot in recovery (R458; log entry 102). -/
def execEntropyStartupTestsDone (passN passS : Bool) (s : State) : Out :=
  let other := !s.boot.primaryS
  let pass (south : Bool) : Bool := if south then passS else passN
  .next (if ¬ s.awake then s
    else if s.boot.stage = .rom then s.entropyUp (pass s.boot.primaryS)
    else if s.boot.fwVerified ∧ s.entropyOf other = 0 then
      let t := s.entropyTested other (pass other)
      if pass other then t else t.recover eEntropy false
    else s)

/-- ENTROPY_RETEST_DONE (R427). -/
def execEntropyRetestDone (keystone : Nat) (pass : Bool) (s : State) : Out :=
  .next (if s.awake ∧ keystone < 2 ∧ s.entropyOf (keystone == 1) = 2 then s.retestDone (keystone == 1) pass else s)

/-- FIRMWARE_VERIFY_DONE (R447, R449, R456). -/
def execFirmwareVerifyDone (readable : Bool) (mib : Nat) (s : State) : Out :=
  .next (if s.awake ∧ s.boot.stage = .firmware ∧ ¬ s.boot.fwVerified then s.firmwareDone readable mib else s)

/-- SELF_TEST_DONE (R35, R73). -/
def execSelfTestDone (facts : SelfTestFacts) (s : State) : Out :=
  .next (if s.awake ∧ s.boot.stage = .selfTest then s.selfTest facts else s)

/-- FOOTING_VERIFY_DONE (R454, R455). -/
def execFootingVerifyDone (s : State) : Out :=
  .next (if s.awake ∧ s.boot.stage = .footing then s.footingDone else s)

/-- SCRUB_DONE (R442). -/
def execScrubDone (s : State) : Out :=
  .next (if s.awake ∧ s.boot.mortar ∧ ¬ s.cs.scrubbed ∧ s.unitsSettled ∧ s.keysReady then s.scrubAll else s)

/-- READY (R457). -/
def execReady (s : State) : Out :=
  .next (if s.awake ∧ (s.boot.stage = .bringUp ∨ s.boot.stage = .time) then s.readyNow else s)

end Sys2Proof.Machine
end

