-- ==== Sys2Proof/Machine/Optimiser.lean ====
section
/-!
DEFINITION. The optimiser slice (13_training.md): update records and their refusal (R326, R327), the element updates
ADAMW and MOMENTUM (R328), and the re-run of an aborted step (R311).
-/
namespace Sys2Proof.Machine

/-- An update record (R326); binary32 fields as codes. -/
structure UpdateRecord where
  kind : Nat
  biasCorrect : Bool
  writeGen : Bool
  srcUnits : Nat
  step : Nat
  lr : Word
  beta1 : Word
  beta2 : Word
  eps : Word
  lambda : Word
  gradScale : Word
  c1 : Word
  c2 : Word
  dstUnits : Nat
  dirty : Bool
  deriving DecidableEq, Repr

def updateRecord (b : Bytes) : UpdateRecord :=
  let fl := fieldLE b 1 1
  { kind := fieldLE b 0 1, biasCorrect := fl.testBit 0, writeGen := fl.testBit 1, srcUnits := fieldLE b 4 4
    step := fieldLE b 8 8, lr := wordOf b 4, beta1 := wordOf b 5, beta2 := wordOf b 6, eps := wordOf b 7
    lambda := wordOf b 8, gradScale := wordOf b 9, c1 := wordOf b 10, c2 := wordOf b 11, dstUnits := fieldLE b 48 4
    dirty := 4 ≤ fl || fieldLE b 2 2 ≠ 0 || fieldLE b 52 12 ≠ 0 }

def isFinite32 (w : Word) : Bool := !(b32 w).isNan && !(b32 w).isInf
/-- Finite, and at least a bound. -/
def atLeast (lo : Rat) (w : Word) : Bool := isFinite32 w && lo ≤ (b32 w).num
/-- 0 ≤ β < 1. -/
def betaOk (w : Word) : Bool := atLeast 0 w && (b32 w).num < 1
abbrev one32 : Word := 0x3F800000

/-- The column units a MOVE word covers on the walk of its program: low and past the end, of its first and last pass
together. -/
def moveSpans (m : Memory) (write : Bool) (f : Nat) : List (Int × Int) :=
  [0, 1, 2, 3].flatMap fun p =>
    let visits := (walkMoves m p 65 0 ((progEnd m p).getD 64) (some (0, 0, 0))).2.filterMap fun x =>
      let w := progWord m p x.1
      match x.2.1 with
      | some (sp, lo, hi) => if progOp w = 3 ∧ moveWrite w = write ∧ moveFormat w = f ∧ sp = 0 ∧ moveTarget w = 18 then
          some (x.1, lo, hi + (moveTiles w * (tileSize false (formatWord m f).stored / 256) : Nat)) else none
      | none => none
    (visits.map (·.1)).eraseDups.filterMap fun k =>
      match visits.filter fun v => v.1 == k with
      | [] => none
      | v :: rest => some (rest.foldl (fun acc x => (min acc.1 x.2.1, max acc.2 x.2.2)) v.2)

/-- Write MOVEs through words 1–3 with dst_units overlap read MOVEs with src_units (R326). -/
def updateOverlaps (m : Memory) (r : UpdateRecord) : Bool :=
  let spans (write : Bool) := [1, 2, 3].flatMap (moveSpans m write)
  (spans true).any fun w => (spans false).any fun x =>
    w.1 + r.dstUnits < x.2 + r.srcUnits && x.1 + r.srcUnits < w.2 + r.dstUnits

/-- A record a slice refuses (R326, R327). -/
def updateBad (m : Memory) (r : UpdateRecord) : Bool :=
  let adam := r.kind = 1
  r.dirty || r.kind = 0 || 3 ≤ r.kind || r.step = 0 || !positiveFinite r.lr || !betaOk r.beta1
    || (if adam then !betaOk r.beta2 || !positiveFinite r.eps else r.beta2 ≠ 0 || r.eps ≠ 0)
    || !atLeast 0 r.lambda || !positiveFinite r.gradScale || !atLeast 1 r.c1 || (adam && !atLeast 1 r.c2)
    || (!r.biasCorrect && (r.c1 ≠ one32 || (adam && r.c2 ≠ one32))) || updateOverlaps m r

/-! ### One element (R328) -/

/-- An updated element: master, first and second moment, flags, and whether it was skipped. -/
structure Updated where
  w : Nat
  m : Nat
  v : Nat
  flags : Nat
  skipped : Bool
  deriving DecidableEq, Repr

/-- 1 − β, rounded once. -/
def oneMinus (w : Word) : FVal := decodeFmt 1 (addOf 1 .nearestEven (.fin 1) (negVal (b32 w))).code

/-- An exact product of three factors; none for infinity times zero. -/
def prod3 (a b c : FVal) : Option FVal := (prodVal a b).bind fun x => prodVal x c

/-- sqrt(x) + e, rounded once. -/
def rootPlus (x e : FVal) : Rounded :=
  if x.isNan || x.isInf || isZero x || x.isNeg then
    let r := sqrtOf 1 .nearestEven x
    let t := addOf 1 .nearestEven (decodeFmt 1 r.code) e
    { t with flags := t.flags ||| r.flags }
  else match exactSqrt x.num with
    | some y => toB32 .nearestEven (.fin (y + e.num))
    | none => toB32 .nearestEven (.fin (sqrtR x.num + pow2 (floorLog2 (sqrtR x.num) - 200) + e.num))

/-- An exact quotient rounded once. -/
def divOf (a b : FVal) : Rounded :=
  if a.isNan || b.isNan then nanResult 1 [a, b]
  else if (a.isInf && b.isInf) || (isZero a && isZero b) then invalidResult 1
  else
    let neg := a.isNeg != b.isNeg
    if a.isInf then { code := (fmtOf 1).infinity neg, flags := 0 }
    else if b.isInf then { code := (fmtOf 1).zero neg, flags := 0 }
    else if isZero b then { code := (fmtOf 1).infinity neg, flags := flDivZero }
    else toB32 .nearestEven (ofSigned (a.num / b.num) neg)

/-- A sum of products, rounded once to nearest even. -/
def sumRound (ts : List (Option FVal)) : Rounded :=
  roundSum .nearestEven (sumTerms false (ts.any Option.isNone) (ts.filterMap id))

/-- w ← w0 − lr × x − lr × λ × w0. -/
def masterStep (r : UpdateRecord) (w0 x : FVal) : Rounded :=
  let nlr := negVal (b32 r.lr)
  sumRound [some w0, prodVal nlr x, prod3 nlr (b32 r.lambda) w0]

/-- One element under a record, from its bed, master and moments. -/
def updateElem (r : UpdateRecord) (bed w0 m0 v0 : Nat) : Updated :=
  let val := decodeFmt 1
  let g := mulOf 1 .nearestEven (val bed) (b32 r.gradScale)
  let bad (c : Nat) : Bool := (val c).isNan || (val c).isInf
  if bad g.code || bad m0 || bad w0 || (r.kind == 1 && bad v0) then
    { w := w0, m := m0, v := v0, flags := g.flags ||| flInvalid, skipped := true }
  else if r.kind = 1 then
    let m := sumRound [prodVal (b32 r.beta1) (val m0), prodVal (oneMinus r.beta1) (val g.code)]
    let v := sumRound [prodVal (b32 r.beta2) (val v0), prod3 (oneMinus r.beta2) (val g.code) (val g.code)]
    let mh := mulOf 1 .nearestEven (val m.code) (b32 r.c1)
    let vh := mulOf 1 .nearestEven (val v.code) (b32 r.c2)
    let den := rootPlus (val vh.code) (b32 r.eps)
    let u := divOf (val mh.code) (val den.code)
    let w := masterStep r (val w0) (val u.code)
    { w := w.code, m := m.code, v := v.code, skipped := false
      flags := g.flags ||| m.flags ||| v.flags ||| mh.flags ||| vh.flags ||| den.flags ||| u.flags ||| w.flags }
  else
    let m := sumRound [prodVal (b32 r.beta1) (val m0), some (val g.code)]
    let w := masterStep r (val w0) (val m.code)
    { w := w.code, m := m.code, v := v0, skipped := false, flags := g.flags ||| m.flags ||| w.flags }

/-! ### One tile -/

/-- Some write MOVE through a format word stores results. -/
def storesWord (m : Memory) (f : Nat) : Bool := [0, 1, 2, 3].any fun p => (progBody m p).any fun k =>
  let w := progWord m p k
  progOp w == 3 && moveWrite w && moveTarget w ≤ 18 && moveFormat w == f

/-- A result for the format words of a list that are written; none where none is. -/
def resultFor (m : Memory) (tag : Nat) (words : List Nat) (values : List Nat) : List ResultTile :=
  let ws := words.filter (storesWord m)
  if ws.isEmpty then [] else [{ raw := false, wide := false, values := values, tag := tag, words := ws }]

/-- The tile a brick holds for a format word. -/
def tileFor (k : Brick) (f : Nat) : Option OperandTile := k.prim.find? fun x => x.note.fmtWord == f

/-- Results of one tile the slice keeps for program 2 before it stalls (log entry 43). -/
abbrev updateRoom : Nat := 16

namespace State

/-- A refused record (R327): its tiles are taken and nothing is written; it is counted once. -/
def refuseUpdate (s : State) (b n : Nat) (tag : Nat) : State :=
  let k := s.brick n
  let rs := [1, 2, 3, 4, 5].flatMap fun f => resultFor k.conf tag [f] []
  let t := s.setBrick n { k with prim := [], results := k.results ++ rs, updated := k.updated + 1024 }
  if k.updated = 0 then
    let u := (t.raise n [(0, flInvalid)]).count (optRefused b) 1
    { u with turn := { u.turn with optRefusedSeen := true } }
  else t

/-- The update of one tile (R328). -/
def updateTile (s : State) (b n : Nat) (r : UpdateRecord) (g w m v : OperandTile) : State :=
  let k := s.brick n
  let a0 := w.codes.toArray
  let a1 := m.codes.toArray
  let a2 := v.codes.toArray
  let es := g.codes.zipIdx.map fun x => updateElem r x.1 (a0.getD x.2 0) (a1.getD x.2 0) (a2.getD x.2 0)
  let gen := if r.writeGen then [1, 4, 5] else [1, 4]
  let withheld := (if r.writeGen then [] else resultFor k.conf g.tag [5] [])
    ++ if r.kind = 1 then [] else resultFor k.conf g.tag [3] []
  let results := resultFor k.conf g.tag gen (es.map (·.w)) ++ resultFor k.conf g.tag [2] (es.map (·.m))
    ++ (if r.kind = 1 then resultFor k.conf g.tag [3] (es.map (·.v)) else []) ++ withheld
  let t := s.setBrick n { k with prim := [], results := k.results ++ results, updated := k.updated + 1024 }
  ((t.raiseTile n (es.map (·.flags))).count (optElements b) 1024).count (optSkipped b) (es.filter (·.skipped)).length

/-- One tile of an optimiser slice, where its record is of the kind and its source tiles have come. -/
def optimise (s : State) (b n : Nat) (kindOk : Nat → Bool) : State :=
  let k := s.brick n
  match (if functionOf k.conf = 4 then s.heldRecord b n 64 else none) with
  | none => s
  | some bs =>
    let r := updateRecord bs
    let v := if r.kind = 2 then tileFor k 1 else tileFor k 3
    if ¬ kindOk r.kind ∨ updateRoom ≤ k.results.length then s
    else match tileFor k 0, tileFor k 1, tileFor k 2, v with
    | some g, some w, some m, some v =>
      if updateBad k.conf r then s.refuseUpdate b n g.tag else s.updateTile b n r g w m v
    | _, _, _, _ => s

/-- The step a device is at: the one after its last completed step, or the job's first (R310). -/
def stepNow (s : State) : Nat := if s.turn.step = 0 then s.footing.train.firstStep else s.turn.step + 1

/-- A learner bay stopped with E_STEP_ABORT. -/
def stepAborted (s : State) : Bool := (List.range 64).any fun b =>
  (s.bay b).plan.role == 4 && (s.bay b).state == .stopped && (s.bay b).lastCode == eStepAbort

/-- STEP_RERUN (R310, R311): every stopped learner bay takes the step's epoch again, and its abort is done with; Mortar
loads and enables the pass bond through the bay commands (log entry 65). -/
def rerunStep (s : State) : State :=
  (List.range 64).foldl (fun (t : State) b =>
    let v := t.bay b
    if v.plan.role = 4 ∧ v.state = .stopped then
      t.setBay b { v with epoch := BitVec.ofNat 64 s.stepNow, epochNext := none, abortObj := none, lastCode := sOk }
    else t) { s with turn := { s.turn with optRefusedSeen := false } }

end State

/-- ADAMW (R328); a record of a reserved kind is refused here. -/
def execAdamw (brick : Nat) (s : State) : Out := .next (s.whileRunning brick fun t b => t.optimise b brick (· != 2))

/-- MOMENTUM (R328). -/
def execMomentum (brick : Nat) (s : State) : Out := .next (s.whileRunning brick fun t b => t.optimise b brick (· == 2))

/-- STEP_RERUN (R311). -/
def execStepRerun (s : State) : Out := .next (if s.awake ∧ s.stepAborted then s.rerunStep else s)

end Sys2Proof.Machine
end

