-- ==== Sys2Proof/Machine/Ports.lean ====
section
/-!
DEFINITION. The Hethes port commands (16_hethes_links.md): training and retraining (R392), flits and link control
(R396–R398), beacons (R411), delay measurement (R412), and the handshake and rekeying (R409, R410).
-/
namespace Sys2Proof.Machine
namespace State

/-- A trained port (R411). -/
def trained (s : State) (p : Nat) : Bool := (s.port p).state == .handshake || (s.port p).state == .up

/-- A port trains on a count of lanes (R392). -/
def trainPort (s : State) (p lanes : Nat) : State :=
  let q := s.port p
  if lanes ≠ 8 ∧ lanes ≠ 4 then s.portDown p eLinkDown
  else
    let t := s.setPort p { ({} : HxPort) with
      state := .handshake, lanes := lanes, detour := q.detour, lastCode := if lanes = 4 then eLinkNarrow else sOk
      retrains := q.retrains, delay := q.delay, delayTick := q.delayTick }
    let u := if lanes = 4 then t.degrade 3 (ksSource (8 ≤ p)) eLinkNarrow p else t
    if u.cs.akReady then u.sendHello p else u

/-- The credits of flits not acknowledged, which are sent again (R419). -/
def heldCredits (q : HxPort) : Assoc Nat := q.retry.foldl (fun (m : Assoc Nat) e => bumpAt m e.vc 1) []

/-- A waiting flit no longer holds a receive entry of a port. -/
def dropOrigin (p : Nat) (w : WaitFlit) : WaitFlit :=
  if w.origin.any (fun x => x.1 == p) then { w with origin := none } else w

/-- A retrain ends (R392, R419): credits restart, every flit not acknowledged is sent again, then the held traffic; or
the port goes DOWN. -/
def retrainDone (s : State) (p lanes : Nat) : State :=
  let q := s.port p
  if lanes ≠ 8 ∧ lanes ≠ 4 then s.portDown p eLinkDown
  else
    let t := s.setPort p { q with
      state := if q.peerValid then .up else .handshake, retraining := false, lanes := lanes, spent := heldCredits q, owed := []
      lastCode := if lanes = 4 then eLinkNarrow else q.lastCode }
    let v := { t with
      ports := t.ports.map fun (c : Nat × HxPort) => (c.1, { c.2 with wait := c.2.wait.map (dropOrigin p) })
      out := t.out ++ q.retry.map fun (e : SentFlit) => Output.flit p e.bytes }.corrected (hxRetry p) q.retry.length
    let u := if lanes = 4 then v.degrade 3 (ksSource (8 ≤ p)) eLinkNarrow p else v
    u.pump p (q.wait.length + 1)

/-! ### Timestamps (R411, R412) -/

/-- A 12-byte time: tick, and units of 2^-8 ns within it. -/
def stamp (tick sub : Nat) : Bytes := leBytes 8 (tick + sub / 262144) ++ leBytes 4 (sub % 262144)

/-- A time as a count of 2^-8 ns. -/
def stampUnits (b : Bytes) : Nat := fieldLE b 0 8 * 262144 + fieldLE b 8 4

def unitsAt (s : State) (sub : Nat) : Nat := s.tb.tick * 262144 + sub

/-- The depth a beacon of this device gives, and its traceable bit (R411; log entry 70). -/
def ownDepth (s : State) : Nat := if s.footing.timeSource = 2 then s.tb.depth + 1 else 0
def ownTraceable (s : State) : Bool :=
  if s.footing.timeSource = 2 then s.tb.traceable
  else if s.footing.timeSource = 1 then Config.ptpTraceable s.tb.tick
  else s.tb.loaded

/-- The code of the time base's state (R44). -/
def tbCode : TbState → Nat
  | .unset => 0 | .acquiring => 1 | .locked => 2 | .holdover => 3 | .lost => 4

def beaconBody (s : State) (sub : Nat) : Bytes :=
  stamp s.tb.tick sub ++ leBytes 1 (tbCode s.tb.state) ++ leBytes 1 s.ownDepth ++ leBytes 1 (bit01 s.ownTraceable)
    ++ zeros 593

/-- The port delivers a beacon this device may follow (R41): the one it follows, or with none left any listed one. -/
def upstreamPort (s : State) (p : Nat) : Option Nat :=
  if s.tb.upIndex < s.footing.upstreams.length then
    if s.footing.upstreams.getD s.tb.upIndex 16 = p then some s.tb.upIndex else none
  else s.footing.upstreams.findIdx? (· == p)

/-- A beacon (R41, R411): its offset is the measurement. -/
def takeBeacon (s : State) (p : Nat) (f : Bytes) (localSub : Nat) : State :=
  let t := s.receiveControl p f
  let b := slice f 16 608
  let q := s.port p
  let fresh := q.delayTick.any fun d => s.tb.up < d + 2 ^ 16
  if ¬ flitCrcOk f ∨ s.footing.timeSource ≠ 2 ∨ ¬ s.footing.present ∨ ¬ (fieldLE b 12 1 = 2 ∨ fieldLE b 12 1 = 3) ∨ 62 < fieldLE b 13 1
      ∨ ¬ fresh then t
  else match s.upstreamPort p with
    | none => t
    | some i =>
      let reference := stampUnits b * 125 + q.delay * 32
      let off : Int := ((s.unitsAt localSub * 125 : Nat) - (reference : Int)) / 32000
      let u := { t with tb := { t.tb with upIndex := i, upstream := p, depth := fieldLE b 13 1
                                          traceable := (b.getD 14 0).getLsbD 0 } }.measure off (reference / 32000)
      { u with tb := { u.tb with lastBeacon := u.tb.up } }

/-- The delay of a DELAY_RESP in ps, none outside 0 to 10 µs (R412). -/
def linkDelay (b : Bytes) (t4 : Nat) : Option Nat :=
  let d : Int := ((t4 : Int) - stampUnits b) - ((stampUnits (b.drop 24) : Int) - stampUnits (b.drop 12))
  if 0 ≤ d ∧ d ≤ 5120000 then some (d.toNat * 1000 / 512) else none

/-- DELAY_RESP. -/
def takeDelay (s : State) (p : Nat) (f : Bytes) (arriveSub : Nat) : State :=
  let t := s.receiveControl p f
  if ¬ flitCrcOk f then t
  else match linkDelay (slice f 16 608) (s.unitsAt arriveSub) with
    | none => t.badPartner p (hxBadFlit p)
    | some ps => t.setPort p { t.port p with delay := min ps 0xFFFFFF, delayTick := some s.tb.up }

/-- Begin the handshake again on an outer port that is UP (R410): the peer's new message is awaited. -/
def rekeyPort (s : State) (p : Nat) : State := (s.setPort p { s.port p with peerHello := [] }).sendHello p

/-- The peer's LINK_HELLO is whole (R409, R410): held until this device's own is sent; one that starts a new handshake
is answered with a new one. -/
def helloIn (s : State) (p : Nat) (b : Bytes) : State :=
  let q := s.port p
  if q.state = .handshake ∨ (q.state = .up ∧ (s.portRole p).outer) then
    let t := if q.state = .up ∧ ¬ q.peerHello.isEmpty then s.sendHello p else s
    if (t.port p).ownHello.isEmpty then t.setPort p { t.port p with peerHello := b } else t.acceptHello p b
  else s

end State

/-- LINK_TRAINING (R392). -/
def execLinkTraining (port lanes : Nat) (s : State) : Out :=
  .next (if s.awake ∧ port < 16 ∧ (s.port port).state = .training ∧ ¬ (s.port port).retraining then s.trainPort port lanes else s)

/-- LINK_TRAINING_RETRY (R392). -/
def execLinkTrainingRetry (port : Nat) (s : State) : Out :=
  .next (if s.awake ∧ port < 16 ∧ (s.port port).state = .down ∧ (s.portRole port).role ≠ 0 ∧ s.footing.present
      ∧ (s.port port).nextTry ≤ s.tb.up then
      s.setPort port { s.port port with state := .training }
    else s)

/-- FLIT_CRC_FAIL (R398). -/
def execFlitCrcFail (port : Nat) (s : State) : Out :=
  .next (if s.awake ∧ port < 16 ∧ s.trained port then s.crcFail port else s)

/-- LINK_RETRAIN_DONE (R392). -/
def execLinkRetrainDone (port lanes : Nat) (s : State) : Out :=
  .next (if s.awake ∧ port < 16 ∧ (s.port port).retraining then s.retrainDone port lanes else s)

/-- DATA_FLIT (R398, R399, R406): a codeword of reserved type carries no flit (R393; log entry 72). -/
def execDataFlit (port : Nat) (flit : Bytes) (corrected : Nat) (s : State) : Out :=
  .next (if s.awake ∧ port < 16 ∧ s.trained port then
      let t := s.corrected (hxFecCorr port) corrected
      if flit = [] then t.badPartner port (hxBadFlit port)
      else if flitCrcOk flit ∧ 2 ≤ (flitHdr flit).kind ∧ (flitHdr flit).kind ≤ 6 then t
      else t.receiveFlit port flit
    else s)

/-- CTRL_FLIT (R398). -/
def execCtrlFlit (port : Nat) (flit : Bytes) (s : State) : Out :=
  .next (if s.awake ∧ port < 16 ∧ s.trained port ∧ (flitHdr flit).kind = 2 then s.receiveControl port flit else s)

/-- NAK (R398). -/
def execNak (port : Nat) (flit : Bytes) (s : State) : Out :=
  .next (if s.awake ∧ port < 16 ∧ s.trained port ∧ (flitHdr flit).kind = 3 then
      let t := s.receiveControl port flit
      if flitCrcOk flit ∧ t.trained port then t.resendFrom port (fieldLE flit 16 2 % 4096) else t
    else s)

/-- BEACON (R41, R411). -/
def execBeacon (port : Nat) (flit : Bytes) (localSub : Nat) (s : State) : Out :=
  .next (if s.awake ∧ port < 16 ∧ s.trained port ∧ (flitHdr flit).kind = 4 then s.takeBeacon port flit localSub else s)

/-- BEACON_SEND (R411): on every trained port. -/
def execBeaconSend (sub : Nat) (s : State) : Out :=
  .next (if s.awake ∧ s.tb.tick % 1024 = 0 then
      (List.range 16).foldl (fun (t : State) p => if t.trained p then t.sendControl p 4 (t.beaconBody sub) else t) s
    else s)

/-- DELAY_REQ (R412): answered with t1, t2 and t3. -/
def execDelayReq (port : Nat) (flit : Bytes) (arriveSub sendSub : Nat) (s : State) : Out :=
  .next (if s.awake ∧ port < 16 ∧ s.trained port ∧ (flitHdr flit).kind = 5 then
      let t := s.receiveControl port flit
      if flitCrcOk flit ∧ t.trained port then
        t.sendControl port 6 (slice flit 16 12 ++ State.stamp s.tb.tick arriveSub ++ State.stamp s.tb.tick sendSub)
      else t
    else s)

/-- DELAY_REQ_SEND (R412). -/
def execDelayReqSend (port sub : Nat) (s : State) : Out :=
  .next (if s.awake ∧ port < 16 ∧ s.trained port ∧ s.tb.tick % 16384 = 0 then
      s.sendControl port 5 (State.stamp s.tb.tick sub)
    else s)

/-- DELAY_RESP (R412). -/
def execDelayResp (port : Nat) (flit : Bytes) (arriveSub : Nat) (s : State) : Out :=
  .next (if s.awake ∧ port < 16 ∧ s.trained port ∧ (flitHdr flit).kind = 6 then s.takeDelay port flit arriveSub else s)

/-- LINK_HELLO (R402, R409, R410). -/
def execLinkHello (port : Nat) (body : Bytes) (s : State) : Out :=
  .next (if s.awake ∧ port < 16 then s.helloIn port body else s)

/-- REKEY (R410). -/
def execRekey (port : Nat) (s : State) : Out :=
  .next (
    let q := s.port port
    let used := q.tx.any (2 ^ 36 ≤ ·.count) || q.rx.any (2 ^ 36 ≤ ·.count)
    if s.awake ∧ port < 16 ∧ q.state = .up ∧ (s.portRole port).outer ∧ ¬ q.peerHello.isEmpty ∧ s.cs.akReady
        ∧ (q.keyTick + 2 ^ 26 ≤ s.tb.up ∨ used) then
      s.rekeyPort port
    else s)

/-- PORT_SIGNAL_LOSS (R392, R474). -/
def execPortSignalLoss (port : Nat) (s : State) : Out :=
  .next (if s.awake ∧ port < 16 ∧ (s.trained port ∨ (s.port port).retraining) then s.portDown port eLinkDown else s)

end Sys2Proof.Machine
end

