-- ==== Sys2Proof/Machine/Regs.lean ====
section
/-!
DEFINITION. The control space (R6–R9, R28–R33): every register as it reads, the validity of accesses and their faults
(R32), pair shadows and holds (R6), and writes by the access codes (R7); MG_BAY_EPOCH (R169) and MG_WATCHDOG (R473).
-/
namespace Sys2Proof.Machine

/-- A register from fields: low bit, width, value (R4). -/
def packW (fs : List (Nat × Nat × Nat)) : Word := BitVec.ofNat 32 (fs.map fun f => fieldAt f.1 f.2.1 f.2.2).sum

def loWord (n : Nat) : Word := BitVec.ofNat 32 n
def hiWord (n : Nat) : Word := BitVec.ofNat 32 (n >>> 32)

def bayCode : BayState → Nat
  | .empty => 0 | .ready => 1 | .running => 2 | .draining => 3 | .fenced => 4 | .swapping => 5 | .saving => 6
  | .stopped => 7 | .faulted => 8

def planeCode : PlaneState → Nat
  | .empty => 0 | .loading => 1 | .loaded => 2 | .active => 3

def unitCode : UnitState → Nat
  | .absent => 0 | .training => 1 | .inService => 2 | .mappedOut => 3

def portCode : PortState → Nat
  | .down => 0 | .training => 1 | .handshake => 2 | .up => 3 | .disabled => 4

def stageCode : BootStage → Nat
  | .rom => 0 | .firmware => 1 | .selfTest => 2 | .footing => 3 | .bringUp => 4 | .time => 5 | .ready => 6 | .failed => 7
  | .recovery => 8

/-- The low-word addresses of the 64-bit pairs (R6). -/
def pairLow (a : Nat) : Bool :=
  [0x18, 0x2010, 0x7030, 0x7114, 0x9808, 0x9810, 0x9818, 0xA008, 0xA010, 0xA018, 0xC008, 0xE00C, 0x100010, 0x100030].contains a
    || (0x3800 ≤ a && a < 0x4000 && (a % 0x20 == 0 || a % 0x20 == 8))
    || (0x6000 ≤ a && a < 0x7000 && [8, 0x10, 0x18, 0x20].contains (a % 0x40))
    || (0x10000 ≤ a && a < 0x12000 && a % 8 == 0)
    || [0x8200004, 0x8200104, 0x9200004, 0x9200104, 0x8500024, 0x9500024].contains a

/-- The address of a statistics counter (R53). -/
def isStat (a : Nat) : Bool :=
  let off (lo n size : Nat) (l : List Nat) : Bool := lo ≤ a && a < lo + n * size && l.contains ((a - lo) % size)
  [0x10, 0x20, 0x24, 0x2040, 0x2044, 0x7100, 0x7104, 0x7108, 0x9820, 0x9824, 0x9828, 0xA020, 0xA024, 0xA028, 0xA02C, 0xC018,
    0xE018, 0xE01C, 0xE020, 0xE024, 0xF040, 0xF044, 0xF048, 0xF04C, 0xF050, 0x100100, 0x100104].contains a
    || off 0xC030 1 0x18 [0, 4, 8, 0xC, 0x10, 0x14]
    || off 0x1000 64 0x20 [0x18, 0x1C] || off 0x3000 64 4 [0] || off 0x3800 64 0x20 [0x18]
    || off 0x4000 64 0x20 [0xC, 0x10, 0x14, 0x18] || off 0x5000 32 0x40 [0x2C, 0x30, 0x34]
    || off 0x6000 64 0x40 [0x28, 0x2C, 0x30, 0x34] || off 0x8000 64 0x20 [0, 4, 8, 0xC, 0x10] || off 0x9000 64 0x10 [0, 4, 8]
    || off 0xD000 128 0x10 [4, 8, 0xC]
    || (List.range 4).any (fun d => off (ashlarBase d + 0x4000) 1024 4 [0] || off (ashlarBase d + 0x6000) 1024 4 [0]
      || off (ashlarBase d + 0x7000) 1024 4 [0] || off (ashlarBase d + 0x8000) 1024 4 [0]
      || off (ashlarBase d + 0x400000) 1056 0x100 [0x40, 0x44])
    || [false, true].any (fun k => off (keystoneBase k) 10 0x100 [8, 0xC, 0x10, 0x14, 0x18]
      || off (keystoneBase k + 0x100000) 8 0x100 [0x10, 0x14, 0x18, 0x1C, 0x20, 0x24, 0x28, 0x2C, 0x30, 0x34]
      || off (keystoneBase k + 0x200000) 2 0x100 [0xC, 0x10, 0x14, 0x18]
      || off (keystoneBase k + 0x300000) 1 0x100 [8, 0xC, 0x10, 0x14, 0x18] || off (keystoneBase k + 0x500000) 1 0x100 [0x14, 0x18])

namespace State

/-! ### The registers as they read -/

/-- A bay's registers (R97); of the plane tags, which are per brick, the anchor's are shown (log entry 112). -/
def bayReg (s : State) (b off : Nat) : Option Word :=
  let v := s.bay b
  let k := s.brick (s.anchor b)
  let none_ := (s.bricksOf b).isEmpty
  match off with
  | 0x00 => some (packW [(0, 4, bayCode v.state), (4, 4, v.plan.role), (8, 1, bit01 (v.saveObj.isSome && v.state != .saving)),
      (9, 1, bit01 v.swapAt.isSome), (10, 1, bit01 v.shutdown.isSome), (11, 1, bit01 v.enableHeld), (12, 1, bit01 v.shadowReady),
      (16, 16, v.lastCode.toNat)])
  | 0x04 => some 0
  | 0x08 => some v.arg
  | 0x0C => some (if none_ || k.active.state != .active then 0 else k.active.tag)
  | 0x10 => some (if none_ || k.shadow.state == .empty then 0 else k.shadow.tag)
  | 0x14 => some (packW [(0, 13, s.livePositions b), (16, 12, if none_ then 0 else s.anchor b)])
  | _ => none

def checkReg (s : State) (off : Nat) : Option Word :=
  let v := s.validator
  match off with
  | 0x00 => some 0
  | 0x04 => some v.arg
  | 0x08 => some (packW [(0, 1, bit01 v.running.isSome), (1, 1, bit01 v.refused), (16, 16, v.lastCode.toNat)])
  | 0x10 => some (loWord v.offset)
  | 0x14 => some (hiWord v.offset)
  | 0x18 => some (packW [(0, 13, v.section_), (13, 1, bit01 v.sectionValid)])
  | _ => if 0x20 ≤ off ∧ off < 0x40 then some (wordOf v.digest ((off - 0x20) / 4)) else none

/-- The draw epoch last written, whether or not it has taken effect (R7, R169). -/
def lastEpoch (v : Bay) : DWord := v.epochNext.getD v.epoch

def randReg (s : State) (b off : Nat) : Option Word :=
  let v := s.bay b
  match off with
  | 0x00 => some (loWord v.plan.seed.toNat)
  | 0x04 => some (hiWord v.plan.seed.toNat)
  | 0x08 => some (loWord (lastEpoch v).toNat)
  | 0x0C => some (hiWord (lastEpoch v).toNat)
  | 0x10 => some v.plan.streamFirst
  | 0x14 => some (loWord v.plan.streamCount)
  | _ => none

def hodReg (s : State) (b off : Nat) : Option Word :=
  let v := s.bay b
  match off with
  | 0x00 => some (packW [(0, 10, v.plan.hodFirst), (10, 7, v.plan.hodCount)])
  | 0x04 => some (packW [(0, 21, s.liveHandles b)])
  | 0x08 => some (loWord v.parked)
  | _ => none

def relayReg (s : State) (c off : Nat) : Option Word :=
  let r := s.relay c
  match off with
  | 0x00 => some 0
  | 0x04 => some r.cfg
  | 0x08 => some r.peer
  | 0x0C => some r.object
  | 0x10 => some r.xfer
  | 0x14 => some r.count
  | 0x18 => some r.start
  | 0x1C => some r.laggardTicks
  | 0x20 => some (packW [(0, 3, r.state), (3, 1, bit01 r.laggard), (16, 16, r.lastCode.toNat)])
  | 0x24 => some (loWord r.next)
  | 0x28 => some (loWord r.avail)
  | 0x38 => some (loWord r.tokens)
  | _ => none

def quotaReg (s : State) (b off : Nat) : Option Word :=
  let v := s.bay b
  match off with
  | 0x00 => some (loWord v.plan.clayQuota)
  | 0x04 => some (loWord v.clayUsed)
  | 0x08 => some (loWord v.plan.loamQuota)
  | 0x0C => some (hiWord v.plan.loamQuota)
  | 0x10 => some (loWord v.loamUsed)
  | 0x14 => some (hiWord v.loamUsed)
  | 0x18 => some (loWord v.plan.marlQuota)
  | 0x1C => some (hiWord v.plan.marlQuota)
  | 0x20 => some (loWord v.marlUsed)
  | 0x24 => some (hiWord v.marlUsed)
  | _ => none

def tierReg (s : State) (off : Nat) : Option Word :=
  let t := s.tier
  match off with
  | 0x00 | 0x24 => some 0
  | 0x04 | 0x08 | 0x0C | 0x10 | 0x14 => some (t.args.getD (off / 4 - 1) 0)
  | 0x18 => some (packW [(0, 16, t.seq), (16, 16, t.lastCode.toNat)])
  | 0x1C => some (packW [(0, 7, t.cmds.length + t.done.length), (7, 7, t.done.length),
      (14, 5, (t.cmds.filter fun c => c.running).length)])
  | 0x20 => some (match t.done with
    | [] => 0
    | d :: _ => packW [(0, 16, d.1), (16, 16, d.2.toNat)])
  | 0x28 => some t.info0
  | 0x2C => some t.info1
  | 0x30 => some (loWord t.infoPins.toNat)
  | 0x34 => some (hiWord t.infoPins.toNat)
  | 0x38 => some t.infoDev
  | _ => none

def memErrReg (s : State) (off : Nat) : Option Word :=
  match off with
  | 0x0C => some (loWord s.tier.retired.length)
  | 0x10 => some s.tier.errInfo
  | 0x14 => some (loWord s.tier.errAddr.toNat)
  | 0x18 => some (hiWord s.tier.errAddr.toNat)
  | 0x1C => some s.tier.errObj
  | _ => none

def ckptReg (s : State) (off : Nat) : Option Word :=
  let c := s.ckpt
  let held := s.heldStep none
  let region := if s.system.spare then 0 else c.shares.length * c.kept.length * c.slotSize
  match off with
  | 0x00 => some (packW [(0, 2, c.state), (2, 1, bit01 (c.slots.any fun (x : Nat × CkptSlot) => s.slotGood x.1)), (3, 1, bit01 c.shrunk),
      (16, 16, c.lastCode.toNat)])
  | 0x08 => some (loWord c.sent)
  | 0x0C => some (hiWord c.sent)
  | 0x10 => some (loWord held)
  | 0x14 => some (hiWord held)
  | 0x18 => some (loWord region)
  | 0x1C => some (hiWord region)
  | _ => none

def turnReg (s : State) (off : Nat) : Option Word :=
  let t := s.turn
  let next := (t.next.map (·.tick)).getD 0
  match off with
  | 0x00 => some (packW [(0, 3, t.phase), (3, 1, bit01 t.late), (4, 1, bit01 (s.footing.present && s.isRoot)), (16, 16, t.lastCode.toNat)])
  | 0x08 => some (loWord t.turn)
  | 0x0C => some (hiWord t.turn)
  | 0x10 => some (loWord next)
  | 0x14 => some (hiWord next)
  | 0x18 => some (loWord t.step)
  | 0x1C => some (hiWord t.step)
  | _ => none

def relReg (s : State) (off : Nat) : Option Word :=
  let r := s.rel
  match off with
  | 0x00 => some (packW [(0, 16, r.fatalCode.toNat), (16, 3, r.fatalSource), (19, 1, bit01 r.fatal)])
  | 0x04 => some r.fatalArg
  | 0x08 => some (loWord r.fatalTick)
  | 0x0C => some (hiWord r.fatalTick)
  | 0x10 => some r.later
  | 0x14 => some (packW [(0, 1, bit01 r.auditPass), (1, 4, r.auditPool), (5, 13, r.auditIndex)])
  | 0x1C => some (loWord r.degraded.toNat)
  | 0x20 => some 0
  | 0x24 => some (loWord (r.total % 1024))
  | 0x28 => some (loWord r.total)
  | 0x48 => some (packW [(0, 2, s.system.standing), (16, 16, s.system.remapCode.toNat)])
  | 0x4C => some (loWord s.remapCount)
  | _ => none

def bootReg (s : State) (off : Nat) : Option Word :=
  let b := s.boot
  match off with
  | 0x00 => some (packW [(0, 4, stageCode b.stage), (4, 1, bit01 b.fwSlot), (5, 1, bit01 b.ftSlot), (16, 16, b.code.toNat)])
  | 0x04 => some (packW [(0, 16, b.fwA.toNat), (16, 16, b.fwB.toNat)])
  | 0x08 => some (packW [(0, 16, b.ftA.toNat), (16, 16, b.ftB.toNat)])
  | 0x0C => some (loWord s.footing.generation)
  | 0x10 => some (hiWord s.footing.generation)
  | 0x14 => some (packW [(0, 3, s.mgmt.conns.length), (3, 1, bit01 (b.stage == .recovery))])
  | 0x28 => some (loWord s.mgmt.alarm.toNat)
  | _ => none

def tempWord (t : Int) : Word := packW [(0, 16, unsigned 16 t)]

def pwrReg (s : State) (off : Nat) : Option Word :=
  let p := s.power
  match off with
  | 0x00 => some (packW [(0, 1, bit01 s.pins.capLow), (1, 1, bit01 (0 < p.gt.getD 0 0)), (2, 1, bit01 (0 < p.gt.getD 1 0)),
      (3, 1, bit01 (0 < p.gt.getD 2 0)), (4, 1, bit01 (0 < p.gt.getD 3 0)), (5, 1, bit01 p.ocWarn), (6, 6, p.gp)])
  | 0x04 => some (loWord p.limit)
  | 0x08 => some (loWord p.now)
  | 0x0C => some (packW [(0, 6, s.gate 0), (6, 6, s.gate 1), (12, 6, s.gate 2), (18, 6, s.gate 3)])
  | 0x10 | 0x14 | 0x18 | 0x1C => some (tempWord (p.tempAshlar.getD ((off - 0x10) / 4) 0))
  | 0x20 | 0x24 | 0x28 | 0x2C => some (tempWord (p.tempClay.getD ((off - 0x20) / 4) 0))
  | 0x30 => some (tempWord p.tempKsN)
  | 0x38 => some (tempWord p.tempKsS)
  | 0x58 => some (packW [(0, 10, p.vid)])
  | _ => none

def attReg (s : State) (b off : Nat) : Option Word :=
  match off with
  | 0x14 => some (s.bay b).attInfo
  | 0x18 => some (s.bay b).attSeq
  | _ => none

def srvReg (s : State) (m c off : Nat) : Option Word :=
  match off with
  | 0x00 => some (packW [(0, 16, (aget ([] : List (Nat × Nat × Nat)) s.serving.queues (m * 8 + c)).length),
      (16, 16, ((s.footing.models.find? fun x => x.1 == m).map fun x => x.2.depths.getD c 0).getD 0)])
  | _ => none

def errReg (s : State) (off : Nat) : Word :=
  match aget (none : Option ErrEntry) s.rel.log (off / 16) with
  | none => 0
  | some e => wordOf (leBytes 8 e.tick ++ leBytes 1 e.cls ++ leBytes 1 e.source ++ leBytes 2 e.code.toNat
      ++ leBytes 4 e.arg.toNat) (off % 16 / 4)

/-- The device global window (R28), but for its statistics counters. -/
def globalReg (s : State) (a : Nat) : Option Word :=
  if a = 0 then some mgDeviceId
  else if a = 4 then
    some (packW [(0, 4, s.dies.ashlarOk.toNat), (4, 16, s.dies.clayOk.toNat), (20, 1, bit01 s.dies.ksN), (21, 1, bit01 s.dies.ksS),
      (22, 1, bit01 s.boot.primaryS), (23, 1, bit01 s.dies.d2d)])
  else if a = 0x18 then some (loWord s.ctlFaultAddr.toNat)
  else if a = 0x1C then some (hiWord s.ctlFaultAddr.toNat)
  else if 0x1000 ≤ a ∧ a < 0x1800 then s.bayReg ((a - 0x1000) / 0x20) (a % 0x20)
  else if 0x2000 ≤ a ∧ a < 0x2048 then s.checkReg (a - 0x2000)
  else if 0x3800 ≤ a ∧ a < 0x4000 then s.randReg ((a - 0x3800) / 0x20) (a % 0x20)
  else if 0x4000 ≤ a ∧ a < 0x4800 then s.hodReg ((a - 0x4000) / 0x20) (a % 0x20)
  else if 0x5000 ≤ a ∧ a < 0x5800 then s.relayReg ((a - 0x5000) / 0x40) (a % 0x40)
  else if 0x6000 ≤ a ∧ a < 0x7000 then s.quotaReg ((a - 0x6000) / 0x40) (a % 0x40)
  else if 0x7000 ≤ a ∧ a < 0x7040 then s.tierReg (a - 0x7000)
  else if 0x7100 ≤ a ∧ a < 0x7120 then s.memErrReg (a - 0x7100)
  else if 0x8000 ≤ a ∧ a < 0x8800 then s.attReg ((a - 0x8000) / 0x20) (a % 0x20)
  else if 0x9800 ≤ a ∧ a < 0x9840 then s.ckptReg (a - 0x9800)
  else if 0xA000 ≤ a ∧ a < 0xA100 then s.turnReg (a - 0xA000)
  else if 0xA100 ≤ a ∧ a < 0xA200 then
    let v := s.bay ((a - 0xA100) / 4)
    some (packW [(0, 12, v.wsDelta), (12, 1, bit01 v.wsActive), (13, 1, bit01 v.wsPending)])
  else if 0xC000 ≤ a ∧ a < 0xC050 then s.relReg (a - 0xC000)
  else if 0xD000 ≤ a ∧ a < 0xE000 ∧ a % 0x100 < 0x80 then s.srvReg ((a - 0xD000) / 0x100) (a % 0x100 / 0x10) (a % 0x10)
  else if 0xE000 ≤ a ∧ a < 0xE02C then s.bootReg (a - 0xE000)
  else if 0xF000 ≤ a ∧ a < 0xF05C then s.pwrReg (a - 0xF000)
  else if 0x10000 ≤ a ∧ a < 0x12000 then
    let o := (aget (0 : DWord) (s.bay ((a - 0x10000) / 0x80)).origin (a % 0x80 / 8)).toNat
    some (if a % 8 = 0 then loWord o else hiWord o)
  else if 0x40000 ≤ a ∧ a < 0x44000 then some (s.errReg (a - 0x40000))
  else none

/-- The time-base window (R48). -/
def timeReg (s : State) (off : Nat) : Option Word :=
  let t := s.tb
  let f := s.footing
  match off with
  | 0x00 => some (packW [(0, 3, tbCode t.state), (3, 2, f.timeSource), (5, 4, if f.timeSource = 2 then t.upstream else 0)])
  | 0x10 => some (loWord t.tick)
  | 0x14 => some (hiWord t.tick)
  | 0x18 => some t.offset
  | 0x1C => some t.steer
  | 0x20 => some (packW [(0, 2, f.timeSource), (2, 1, bit01 f.ptpEthernet), (3, 8, f.ptpDomain), (11, 12, f.holdover),
      (23, 5, f.leadLog2)])
  | 0x30 => some (loWord t.latchTick)
  | 0x34 => some (hiWord t.latchTick)
  | 0x38 => some t.latchSeq
  | 0x3C => some (packW [(0, 1, bit01 t.latchTurn), (1, 1, bit01 t.latchCensus)])
  | 0x40 => some (packW [(0, 1, bit01 s.census.matched), (1, 1, bit01 s.census.skew), (2, 1, bit01 s.census.absent),
      (3, 1, bit01 s.census.timeLost)])
  | _ => if 0x60 ≤ off ∧ off < 0x80 ∧ off % 4 = 0 then some (wordOf s.census.digest ((off - 0x60) / 4)) else none

/-- A site status block (R98). -/
def siteReg (s : State) (d r c off : Nat) : Option Word :=
  let pos := s.rowOfSite d r c
  let n := brickId d (pos.getD 0) c
  let k := s.brick n
  let b := if pos.isSome ∧ ¬ s.vacant n then s.bayOf n else none
  let idx := siteIndex d r c
  let st := if s.faultRow d c = r then 2 else if aget false s.dies.failed idx then 4 else if aget false s.dies.faulty idx then 3
    else if pos.isSome then 0 else 1
  match off with
  | 0x00 => some (packW ([(0, 3, st), (3, 6, b.getD 0), (9, 1, bit01 b.isSome)] ++
      if b.isSome then [(10, 1, bit01 k.activePlane), (11, 2, planeCode k.plane0.state), (13, 2, planeCode k.plane1.state)] else []))
  | 0x04 => some (if pos.isSome then packW [(0, 12, n), (12, 1, 1)] else 0)
  | 0x08 => some (if b.isSome && k.plane0.state != .empty then k.plane0.tag else 0)
  | 0x0C => some (if b.isSome && k.plane1.state != .empty then k.plane1.tag else 0)
  | _ => none

/-- An Ashlar window (R30, R76, R98, R201). -/
def ashlarReg (s : State) (d off : Nat) : Option Word :=
  if 0x10000 ≤ off ∧ off < 0x30000 then
    let n := d * 1024 + (off - 0x10000) / 0x80
    let x := aget ({} : Amax) (s.brick n).amax (off % 0x80 / 8)
    some (if s.vacant n || (s.bayOf n).isNone then 0 else if off % 8 = 0 then x.amax else x.scale)
  else if 0x100000 ≤ off ∧ off < 0x100080 then
    let c := (off - 0x100000) / 4
    some (packW [(0, 6, s.faultRow d c), (6, 1, bit01 (aget false s.dies.fieldOrigin (d * 32 + c)))])
  else if 0x100080 ≤ off ∧ off < 0x100100 then
    let c := (off - 0x100080) / 4
    some (packW ((List.range 32).map fun r => (r, 1, bit01 (s.vacant (brickId d r c)))))
  else if off = 0x100100 then
    some (packW [(0, 6, ((List.range 32).filter fun c => s.faultRow d c != 0x3F).length), (6, 11, (s.vacantOn d).length)])
  else if 0x400000 ≤ off ∧ off < 0x442000 then
    let i := (off - 0x400000) / 0x100
    s.siteReg d (i / 32) (i % 32) (off % 0x100)
  else none

def channelReg (s : State) (d off : Nat) : Option Word :=
  let u := s.unit d
  match off with
  | 0x00 => some (packW [(0, 3, unitCode u.state), (3, 3, u.cause), (6, 2, u.rate), (8, 1, bit01 u.hot), (9, 1, bit01 u.throttled)])
  | 0x04 => some (tempWord u.temp)
  | _ => none

def cxlReg (s : State) (x off : Nat) : Option Word :=
  let u := s.unit (32 + x)
  match off with
  | 0x00 => some (packW [(0, 3, unitCode u.state), (3, 3, u.cause), (6, 2, u.rate), (8, 5, u.width)])
  | 0x04 => some (loWord u.capacity)
  | 0x08 => some (hiWord u.capacity)
  | _ => none

def hxReg (s : State) (p off : Nat) : Option Word :=
  let q := s.port p
  let r := s.portRole p
  match off with
  | 0x00 => some (packW [(0, 3, portCode q.state), (3, 4, q.lanes), (7, 1, bit01 q.keyed), (8, 1, bit01 q.txPhase),
      (9, 1, bit01 q.detour), (16, 16, q.lastCode.toNat)])
  | 0x04 => some (packW [(0, 4, r.role), (4, 1, bit01 r.outer), (5, 1, p / 8), (6, 14, if r.role = 8 then r.aux else 0)])
  | 0x08 => some (packW [(0, 14, q.peerDev), (14, 4, q.peerRole), (18, 1, bit01 q.peerValid)])
  | 0x0C => some (packW [(0, 24, min q.delay 0xFFFFFF)])
  | _ => none

def systemReg (s : State) (off : Nat) : Option Word :=
  let y := s.system
  match off with
  | 0x800 => some (packW [(0, 14, y.device), (14, 5, y.x), (19, 5, y.y), (24, 5, y.z), (29, 1, bit01 y.spare), (30, 1, bit01 y.substituting)])
  | 0x804 => some (packW [(0, 5, s.footing.ex - 1), (5, 5, s.footing.ey - 1), (10, 5, s.footing.ez - 1), (15, 1, bit01 s.footing.cairns)])
  | 0x808 => some (packW [(0, 14, y.substDev), (14, 1, bit01 y.substValid), (15, 1, bit01 y.noSpare), (16, 16, y.substCode.toNat)])
  | 0x80C => some (packW [(0, 16, y.subst.length)])
  | _ => none

def serviceReg (s : State) (e off : Nat) : Option Word :=
  let p := s.svPort e
  match off with
  | 0x00 => some (packW [(0, 1, bit01 p.linkUp), (1, 1, bit01 p.gwResolved), (2, 1, bit01 s.footing.confidential)])
  | 0x04 => some (packW [(0, 15, (s.serving.sessions.filter fun x => x.port == e && x.isOpen).length)])
  | _ => none

/-- A Cornerstone block (R445); what only the boot-primary one holds reads 0 in the other. -/
def csReg (s : State) (south : Bool) (off : Nat) : Option Word :=
  let c := s.cs
  let own := south == s.boot.primaryS
  let mine (w : Word) : Option Word := some (if own then w else 0)
  match off with
  | 0x00 => some (packW [(0, 1, bit01 s.footing.confidential), (1, 1, bit01 own), (2, 1, bit01 (own && c.identityOk)),
      (3, 1, bit01 (own && c.akReady)), (4, 2, s.entropyOf south), (6, 1, bit01 c.scrubbed), (7, 1, bit01 c.debugLocked),
      (16, 16, c.lastCode.toNat)])
  | 0x04 | 0x08 | 0x0C | 0x10 => mine (wordOf c.deviceId (off / 4 - 1))
  | 0x1C => mine (loWord c.progs.length)
  | 0x20 => mine (loWord c.weights.length)
  | 0x24 => mine (loWord s.journal.seq)
  | 0x28 => mine (hiWord s.journal.seq)
  | 0x30 | 0x34 | 0x38 | 0x3C | 0x40 | 0x44 | 0x48 | 0x4C => mine (wordOf s.journal.head ((off - 0x30) / 4))
  | 0x50 => some 0
  | 0x54 => mine c.wopenArg
  | 0x58 => mine c.wopenPeer
  | 0x5C => mine (packW [(0, 1, bit01 c.wopen.isSome), (1, 2, c.wopenOrigin), (16, 16, c.wopenCode.toNat)])
  | _ => none

/-- A Keystone window (R29). -/
def keystoneReg (s : State) (south : Bool) (off : Nat) : Option Word :=
  if off < 0xA00 then s.channelReg (10 * bit01 south + off / 0x100) (off % 0x100)
  else if 0x100000 ≤ off ∧ off < 0x100800 then s.hxReg (8 * bit01 south + (off - 0x100000) / 0x100) (off % 0x100)
  else if 0x100800 ≤ off ∧ off < 0x100810 ∧ ¬ south then s.systemReg (off - 0x100000)
  else if 0x200000 ≤ off ∧ off < 0x200200 then s.cxlReg (2 * bit01 south + (off - 0x200000) / 0x100) (off % 0x100)
  else if 0x300000 ≤ off ∧ off < 0x300100 then s.serviceReg (bit01 south) (off - 0x300000)
  else if 0x500000 ≤ off ∧ off < 0x500100 then s.csReg south (off - 0x500000)
  else none

/-- Cycles a site's shadow loader has been busy since they were last counted (R98). -/
def loadingNow (s : State) (d r c : Nat) : Nat :=
  match (s.rowOfSite d r c).bind fun row => (s.bayOf (brickId d row c)).map fun b => (brickId d row c, b) with
  | some x => if (s.bay x.2).loading.isSome ∧ ¬ (s.bay x.2).loadedBy.contains x.1 then s.tb.cycle - (s.bay x.2).loadCycle else 0
  | none => 0

/-- Cycles a counter of cycles is still to be given up to now: a FENCED bay's (R97), a busy loader's (R98). -/
def runningCycles (s : State) (a : Nat) : Nat :=
  let v := s.bay ((a - 0x1000) / 0x20)
  let off := a % 0x1000000
  if 0x1000 ≤ a ∧ a < 0x1800 ∧ a % 0x20 = 0x1C ∧ v.state = .fenced then s.tb.cycle - v.waitFrom
  else if 0x1000000 ≤ a ∧ a < 0x5000000 ∧ 0x400000 ≤ off ∧ off % 0x100 = 0x44 then
    s.loadingNow (a / 0x1000000 - 1) ((off - 0x400000) / 0x2000) ((off - 0x400000) / 0x100 % 32)
  else 0

/-- The flag word of a vacant position, live or snapshot, reads 0 (R162). -/
def vacantWord (s : State) (a : Nat) : Bool :=
  let off := a % 0x80000
  0x1000000 ≤ a && a < 0x5000000 && a % 0x1000000 < 0x100000 && 0x4000 ≤ off && off < 0x5000
    && s.vacant ((a / 0x1000000 - 1) * 1024 + (off - 0x4000) / 4)

/-- A live counter as it reads. -/
def liveStat (s : State) (a : Nat) : Word :=
  let n := s.runningCycles a
  if s.vacantWord a then 0 else if n = 0 then s.stat a else BitVec.ofNat 32 (min ((s.stat a).toNat + n) 0xFFFFFFFF)

/-- Every register of the control space as it reads, none at a reserved address (R28–R32, R54). -/
def regAt (s : State) (a : Nat) : Option Word :=
  if a % 4 ≠ 0 then none
  else if isStat a then some (s.liveStat a)
  else if 0x80000 ≤ a ∧ isStat (a - 0x80000) then some (if s.vacantWord a then 0 else aget 0 s.snap (a - 0x80000))
  else if a < 0x100000 then s.globalReg a
  else if a < 0x200000 then s.timeReg (a - 0x100000)
  else if 0x1000000 ≤ a ∧ a < 0x5000000 then s.ashlarReg (a / 0x1000000 - 1) (a % 0x1000000)
  else if 0x8000000 ≤ a ∧ a < 0xA000000 then s.keystoneReg (0x9000000 ≤ a) (a % 0x1000000)
  else none

/-- A read by an agent: the low word of a pair fills the agent's shadow, the high word reads it (R6, R33). -/
def readReg (s : State) (agent a : Nat) : State × Option Word :=
  let key (x : Nat) : Nat := agent * 2 ^ 40 + x
  match s.regAt a with
  | none => (s, none)
  | some w =>
    if pairLow a then
      ({ s with pairShadow := aput 0 s.pairShadow (key a) ((s.regAt (a + 4)).getD 0) }, some w)
    else if 4 ≤ a ∧ pairLow (a - 4) then (s, some (aget 0 s.pairShadow (key (a - 4))))
    else (s, some w)

/-- An access that is not valid (R32): counted and recorded; a Mason core takes an access fault. -/
def ctlFault (s : State) (agent a : Nat) (write : Bool) : State :=
  let hi := fieldAt 0 8 (a >>> 32) + fieldAt 8 6 agent + fieldAt 14 1 (bit01 write) + fieldAt 15 1 1
  let t := { s with ctlFaultAddr := BitVec.ofNat 64 (a % 2 ^ 32 + hi * 2 ^ 32) }.count ctlFaultCount 1
  if agent < 32 then t.emit (.trap agent write) else t

/-- A read by an agent (R32): one that is not valid takes the access fault and gives no word. No row of the table is a
Mason core's read; the management agent's are READ_REG's. -/
def readAs (s : State) (agent a width : Nat) : State × Option Word :=
  if width ≠ 32 ∨ (s.regAt a).isNone then (s.ctlFault agent (a % 2 ^ 40) false, none) else s.readReg agent a

/-! ### Writes (R6, R7, R9) -/

/-- The low word of a pair is held for the agent. -/
def holdLow (s : State) (agent a : Nat) (v : Word) : State :=
  { s with pairHold := aput none s.pairHold (agent * 2 ^ 40 + a) (some v) }

/-- The high word of a pair at a is written: the 64-bit value that takes effect, and the hold released. -/
def takeHigh (s : State) (agent a : Nat) (now v : Word) : State × DWord :=
  let key := agent * 2 ^ 40 + a
  let low := (aget none s.pairHold key).getD now
  ({ s with pairHold := aput none s.pairHold key none }, BitVec.ofNat 64 (low.toNat + v.toNat * 2 ^ 32))

/-- A draw epoch takes effect at once, or at the next step_end fence of a running bay (R169). -/
def setEpoch (s : State) (b : Nat) (e : DWord) : State :=
  let v := s.bay b
  if v.state = .running ∨ v.state = .draining then s.setBay b { v with epochNext := some e }
  else s.setBay b { v with epoch := e, epochNext := none }

/-- A write to MG_BAY_EPOCH_LO or _HI (R6, R169). -/
def epochWrite (s : State) (agent b : Nat) (high : Bool) (value : Word) : State :=
  let a := randBase b + 8
  if high then
    let r := s.takeHigh agent a (loWord (lastEpoch (s.bay b)).toNat) value
    r.1.setEpoch b r.2
  else s.holdLow agent a value

/-- A write to MG_BAY_ORIGIN_LO or _HI of a tag (R363): bits [4:0] stay 0. -/
def originWrite (s : State) (agent b tag : Nat) (high : Bool) (value : Word) : State :=
  let a := 0x10000 + b * 0x80 + tag * 8
  if high then
    let old := aget (0 : DWord) (s.bay b).origin tag
    let r := s.takeHigh agent a (loWord old.toNat) value
    let v := r.1.bay b
    r.1.setBay b { v with origin := aput 0 v.origin tag (r.2 &&& ~~~(31 : DWord)) }
  else s.holdLow agent a value

/-- A field of a relay channel, written only while it is IDLE or CLOSED (R231). -/
def relayField (s : State) (c off : Nat) (v : Word) : State :=
  let r := s.relay c
  if r.state ≠ 0 ∧ r.state ≠ 3 then s.setRelay c { r with badWrite := true }
  else match off with
    | 0x04 => s.setRelay c { r with cfg := v &&& 0x7FFFFFF }
    | 0x08 => s.setRelay c { r with peer := v &&& 0x7FFFF }
    | 0x0C => s.setRelay c { r with object := v }
    | 0x10 => s.setRelay c { r with xfer := v }
    | 0x14 => s.setRelay c { r with count := v }
    | 0x18 => s.setRelay c { r with start := v }
    | 0x1C => s.setRelay c { r with laggardTicks := v &&& 0xFFFF }
    | _ => s

/-- A write to a tier argument, its reserved bits ignored (R9, R265). -/
def tierArg (s : State) (i : Nat) (v : Word) : State :=
  let mask : Word := if i = 1 then 0x1FFF else if i = 4 then 0xFFF else 0xFFFFFFFF
  { s with tier := { s.tier with args := s.tier.args.set i (v &&& mask) } }

/-- A kick restarts the writing core's watchdog (R473, R486). -/
def kick (s : State) (core : Nat) (v : Word) : State :=
  if v.getLsbD 0 ∧ core < 32 then { s with rel := { s.rel with kicks := aput 0 s.rel.kicks (hartId core) s.tb.up } } else s

/-- The writes that do something, by address; every other register is read-only. -/
def writeGlobal (s : State) (agent a : Nat) (v : Word) : State :=
  if 0x1000 ≤ a ∧ a < 0x1800 then
    let b := (a - 0x1000) / 0x20
    if a % 0x20 = 4 then s.bayCtrl b (bits v 0 4) (bits v 4 28) s.tb.cycle
    else if a % 0x20 = 8 then s.setBay b { s.bay b with arg := v }
    else s
  else if a = 0x2000 then s.validateCtrl (bits v 0 2) (bits v 2 30)
  else if a = 0x2004 then { s with validator := { s.validator with arg := v } }
  else if a = 0x2008 then
    if v.getLsbD 1 then { s with validator := { s.validator with refused := false } } else s
  else if 0x3800 ≤ a ∧ a < 0x4000 ∧ (a % 0x20 = 8 ∨ a % 0x20 = 0xC) then
    s.epochWrite agent ((a - 0x3800) / 0x20) (a % 0x20 == 0xC) v
  else if 0x5000 ≤ a ∧ a < 0x5800 then
    let c := (a - 0x5000) / 0x40
    let r := s.relay c
    if a % 0x40 = 0 then s.relayCtrl c (bits v 0 3) (bits v 3 29) (relayPeerDev r) (relayPeerCh r) r.start.toNat
    else s.relayField c (a % 0x40) v
  else if a = 0x7000 then s.tierCtrl (bits v 0 4) (bits v 4 28)
  else if 0x7004 ≤ a ∧ a < 0x7018 then s.tierArg ((a - 0x7004) / 4) v
  else if a = 0x7024 then
    if v.getLsbD 0 then { s with tier := { s.tier with done := s.tier.done.drop 1 } } else s
  else if 0xA100 ≤ a ∧ a < 0xA200 then s.wslot ((a - 0xA100) / 4) v
  else if a = 0xC020 then s.kick agent v
  else if a = 0xE028 then { s with mgmt := { s.mgmt with alarm := s.mgmt.alarm &&& ~~~(v.setWidth 8) } }
  else if a = 0xF004 then { s with power := { s.power with limit := bits v 0 13 } }
  else if 0x10000 ≤ a ∧ a < 0x12000 then
    s.originWrite agent ((a - 0x10000) / 0x80) (a % 0x80 / 8) (a % 8 == 4) v
  else s

/-- Writes to the weight-open registers of the boot-primary Cornerstone (R445). -/
def writeCs (s : State) (south : Bool) (off : Nat) (v : Word) : State :=
  if south ≠ s.boot.primaryS then s
  else if off = 0x50 then s.wopenCtrl south (bits v 0 2) (bits v 2 30)
  else if off = 0x54 then { s with cs := { s.cs with wopenArg := v } }
  else if off = 0x58 then { s with cs := { s.cs with wopenPeer := v &&& 0x3FFFF } }
  else s

/-- A write of a Mason core (R32): a valid one acts by the register's access codes. -/
def writeReg (s : State) (agent a width : Nat) (v : Word) : State :=
  if width ≠ 32 ∨ (s.regAt a).isNone ∨ 32 ≤ agent then s.ctlFault agent (a % 2 ^ 40) true
  else if a < 0x100000 then s.writeGlobal agent a v
  else if 0x8500000 ≤ a ∧ a < 0x8500100 then s.writeCs false (a - 0x8500000) v
  else if 0x9500000 ≤ a ∧ a < 0x9500100 then s.writeCs true (a - 0x9500000) v
  else s

end State

/-- REGISTER_WRITE (R6, R7, R32), of a Mason core that runs, at the control address its physical address stands for
(R31); a write of the management agent is never valid. -/
def execRegisterWrite (agent addr width : Nat) (value : Word) (s : State) : Out :=
  .next (if s.coreUp agent ∨ (s.awake ∧ agent = mgmtAgent) then s.writeReg agent addr width value else s)

/-- BAY_EPOCH_WRITE (R169). -/
def execBayEpochWrite (agent bay : Nat) (high : Bool) (value : Word) (s : State) : Out :=
  .next (if s.coreUp agent ∧ bay < 64 then s.epochWrite agent bay high value else s)

/-- WATCHDOG_KICK (R473). -/
def execWatchdogKick (agent : Nat) (value : Word) (s : State) : Out :=
  .next (if s.coreUp agent then s.kick agent value else s)

end Sys2Proof.Machine
end

