-- ==== Sys2Proof/Machine/Mgmt.lean ====
section
/-!
DEFINITION. The management port (18_boot_management.md): connections (R459), Cirid messages (R460–R462), the journal
(R443), changes and their outcomes (R463–R465), WRITE_FOOTING (R464); bay plan changes (R80).
-/
namespace Sys2Proof.Machine

/-! ### Messages (R460, R461) -/

/-- The offset an error body holds where no field offends. -/
abbrev noOffset : Nat := 0xFFFFFFFF

/-- The command message as it arrived (R460). -/
def commandBytes (op : Nat) (m : Cirid) : Bytes :=
  leBytes 4 (16 + m.body.length) ++ leBytes 2 op ++ leBytes 2 m.flags.toNat ++ leBytes 4 m.tag.toNat
    ++ leBytes 2 m.code.toNat ++ leBytes 2 m.reserved.toNat ++ m.body

/-- A code that is an error, not a status (R12). -/
def isError (c : Code) : Bool := 0x100 ≤ c.toNat

/-- Steps 1–3 of R461: the fields, each as offset, size and whether it is out of range, of which a short body lacks
some; the length; and the refusal of the confidential mode. -/
def checkMsg (m : Cirid) (fields : List (Nat × Nat × Bool)) (lengthOk refused : Bool) : Code × Nat :=
  let head := [(6, 2, m.flags != 0), (12, 2, m.code != 0), (14, 2, m.reserved != 0)]
  match (head ++ fields).find? fun f => f.2.2 && f.1 + f.2.1 ≤ 16 + m.body.length with
  | some f => (eBadField, f.1)
  | none =>
    if ¬ lengthOk then (eBadLength, 0)
    else if refused then (eModeRefused, noOffset)
    else (sOk, noOffset)

/-- The fields of a bay record at offset 24 of its command. -/
def planFields (v : Bytes) : List (Nat × Nat × Bool) :=
  let f (at_ n : Nat) : Nat := fieldLE v at_ n
  let n := f 2 1
  ([(24, 1, 64 ≤ f 0 1), (25, 1, 8 ≤ f 1 1 || (f 1 1 == 0) != (n == 0)), (26, 1, 16 < n), (27, 1, f 3 1 != 0), (28, 2, 4096 ≤ f 4 2),
   (30, 2, f 6 2 == 0), (32, 4, 16777216 < f 8 4), (52, 2, 1023 < f 28 2), (54, 1, 64 < f 30 1 || 1024 < f 28 2 + f 30 1),
   (55, 1, f 31 1 != 0), (60, 4, 65536 < f 36 4)] : List (Nat × Nat × Bool))
    ++ (List.range (min n 16)).map fun i =>
      (72 + 4 * i, 4, 128 ≤ f (48 + 4 * i) 1 || ((bayOfRecord v).2.rects[i]?).any rectBad)

/-- The fields SET_FIELD may change, with the bytes of their values (R463). -/
def settable : List (Nat × Nat) := [(0x0701, 24), (0x0702, 17), (0x0803, 20)]

/-- Every field id of R453. -/
def footingIds : List Nat :=
  [0x0101, 0x0102, 0x0103, 0x0104, 0x0105, 0x0106, 0x0107, 0x0201, 0x0202, 0x0203, 0x0204, 0x0301, 0x0302, 0x0303, 0x0401, 0x0402,
   0x0403, 0x0501, 0x0601, 0x0701, 0x0702, 0x0801, 0x0802, 0x0803, 0x0804, 0x0805, 0x0806, 0x0807, 0x0901]

/-- The fields of a SET_FIELD value, at offset 26 of its command. -/
def setFields (id : Nat) (v : Bytes) : List (Nat × Nat × Bool) :=
  let f (at_ n : Nat) : Nat := fieldLE v at_ n
  if id = 0x0701 then
    [(26, 1, 1 < f 0 1), (27, 1, f 1 1 == 0 || 8 < f 1 1), (28, 2, f 2 2 != 0), (42, 4, f 12 4 ≤ f 16 4)]
  else if id = 0x0702 then [(26, 1, 16 ≤ f 0 1)]
  else if id = 0x0803 then
    (26, 4, f 0 4 < 2 ^ 11 || 2 ^ 20 < f 0 4) :: (List.range 4).map fun i => (30 + 4 * i, 4, f (4 + 4 * i) 4 == 0 || 2 ^ 30 < f (4 + 4 * i) 4)
  else []

/-- The checks of a change but for its own (R461–R463); of SET_FIELD the field id's too. -/
def changeCheck (op : Nat) (m : Cirid) : Code × Nat :=
  let n := m.body.length
  let b := m.body.drop 8
  let f (at_ k : Nat) : Nat := fieldLE b at_ k
  match op with
  | 0x0101 =>
    let id := f 0 2
    let size := (settable.find? fun x => x.1 == id).map (·.2)
    let c := checkMsg m ((24, 2, !footingIds.contains id) :: setFields id (b.drop 2))
      (10 ≤ n && (match size with | some k => n == 10 + k | none => true)) false
    if c.1 ≠ sOk ∨ size.isSome then c
    else if id = 0x0103 then (eModeRefused, 24)
    else (eNotChangeable, 24)
  | 0x0102 => checkMsg m (planFields b) (56 ≤ n && n == 56 + 4 * f 2 1) false
  | 0x0103 => checkMsg m [(24, 1, 64 ≤ f 0 1), (25, 1, !([1, 2, 7].contains (f 1 1)))] (n == 10) false
  | 0x0104 =>
    let w (i : Nat) : Word := BitVec.ofNat 32 (f (4 * i) 4)
    checkMsg m [(24, 4, cmdBad (f 0 4) 0), (32, 4, 2 ^ 13 ≤ f 8 4 || arg1Bad (f 0 4) (w 2)), (36, 4, arg2Bad (f 0 4) (w 2) (w 3)),
      (40, 4, arg3Bad (f 0 4) (w 2) (w 4)), (44, 4, 4096 ≤ f 20 4)] (n == 32) false
  | 0x0105 => checkMsg m [(24, 1, 16 ≤ f 0 1), (25, 3, f 1 3 != 0)] (n == 76) false
  | 0x0106 => checkMsg m [] (n == 16) false
  | _ => checkMsg m [(24, 1, !(f 0 1 == 1 || f 0 1 == 2))] (n == 9) false

/-- The ops of R462; every other is reserved. -/
def tableOps : List Nat := [0x0001, 0x0002, 0x0003, 0x0004, 0x0005, 0x0006, 0x0007, 0x0101, 0x0102, 0x0103, 0x0104, 0x0105, 0x0106,
  0x0107, 0x0201, 0x0202, 0x0203]

/-- The op of a command: that of its row, with WRITE_FOOTING's sub-op above bit 16, or the reserved one its header carries. -/
def opOf (op : Nat) (m : Cirid) : Nat := ((m.reservedOp.map (·.toNat)).filter fun o => !tableOps.contains o).getD op

/-- The ops the fatal state serves (R474), with the registers and statistics in standard mode. -/
def servedFatal (op : Nat) (confidential : Bool) : Bool :=
  [0x0001, 0x0007, 0x0005, 0x0202].contains op || (!confidential && (op == 2 || op == 3))

/-! ### Journal entries (R443) -/

/-- The hashed part of an entry. -/
def hashedPart (e : JournalEntry) : Bytes :=
  leBytes 8 e.seq ++ leBytes 8 e.tick ++ leBytes 1 e.slot ++ [0] ++ leBytes 2 e.code.toNat ++ zeros 12 ++ slice e.cmdDigest 0 32
    ++ slice e.prev 0 32

/-- The 128 bytes of an entry. -/
def entryBytes (e : JournalEntry) : Bytes := hashedPart e ++ leBytes 8 e.accepted ++ zeros 24

/-- An entry whose change has not fired. -/
def KeptEntry.isWaiting (k : KeptEntry) : Bool := k.entry.tick != 0 && k.entry.code == sOk && !k.fired && !k.cancelled

namespace State

/-- The journal would have to drop an entry whose change has not fired. -/
def journalFull (s : State) : Bool :=
  65536 ≤ s.journal.entries.length && (s.journal.entries.headD ⟨⟨0, 0, 0, 0, [], [], 0, 0, []⟩, [], true, 0, 0, true⟩).isWaiting

/-- Enter a command in the journal with a result code. -/
def enterJournal (s : State) (op slot : Nat) (m : Cirid) (code : Code) : State :=
  let e : JournalEntry := {
    seq := s.journal.seq + 1, tick := fieldLE m.body 0 8, slot := slot, code := code, cmdDigest := digest (commandBytes op m),
    prev := s.journal.head, accepted := s.tb.tick, op := op, body := m.body }
  let head := digest (hashedPart e)
  let all := s.journal.entries ++ [{ entry := e, head := head, fired := false, outcome := 0, outcomeCycle := 0, cancelled := false }]
  let j := { s.journal with seq := e.seq, head := head, entries := all }
  { s with journal := if all.length ≤ 65536 then j
      else match all with
        | [] => j
        | old :: rest => { j with baseSeq := old.entry.seq, baseHead := old.head, entries := rest } }

/-- Change the kept entry of a sequence number. -/
def mapEntry (s : State) (seq : Nat) (f : KeptEntry → KeptEntry) : State :=
  { s with journal := { s.journal with entries := s.journal.entries.map fun (k : KeptEntry) => if k.entry.seq = seq then f k else k } }

/-- The outcome of a change that has been applied; one other than S_OK and S_PENDING_ENABLE is alarmed (R465). -/
def noteOutcome (s : State) (seq : Nat) (code : Code) : State :=
  let t := s.mapEntry seq fun k => { k with fired := true, outcome := code, outcomeCycle := s.tb.cycle }
  if code = sOk ∨ code = sPendingEnable then t
  else (t.count mgmtChgFail 1).alarm 3 code (BitVec.ofNat 32 seq)

/-! ### What changes do (R462, R463) -/

/-- SET_FIELD. -/
def setField (s : State) (id : Nat) (v : Bytes) : State :=
  let f (at_ n : Nat) : Nat := fieldLE v at_ n
  let g := s.footing
  if id = 0x0701 then
    { s with footing := { g with
        clientAuth := f 0 1 == 1, specDepth := f 1 1, idleTicks := f 4 4, retainTicks := f 8 4, svcHi := f 12 4
        svcLo := f 16 4, svcHold := f 20 4 } }
  else if id = 0x0702 then
    let depths := (List.range 8).map fun c => f (1 + 2 * c) 2
    let models := g.models.map fun x => if x.1 = f 0 1 then (x.1, { x.2 with depths := depths }) else x
    { s with footing := { g with models := models } }
  else
    { s with footing := { g with turn := { g.turn with
        phaseLead := f 0 4, genLimit := f 4 4, scoreLimit := f 8 4, learnLimit := f 12 4, redistLimit := f 16 4 } } }

/-- A TIER command through the tier registers. -/
def tierChange (s : State) (b : Bytes) : State × Code :=
  let t := (List.range 5).foldl (fun (t : State) i => t.tierArg i (BitVec.ofNat 32 (fieldLE b (4 + 4 * i) 4))) s
  let u := t.tierCtrl (fieldLE b 0 4) 0
  (u, u.tier.lastCode)

/-- The header image of a digest the device holds. -/
def headerImage (s : State) (dig : Bytes) : Option Bytes :=
  s.objs.findSome? fun c => match c.2 with
    | some o =>
      if o.bytesKind && !o.creating && fieldLE (s.objBytes c.1 o 0 4) 0 4 == weightMagic then
        let img := s.wholeObj c.1 o
        if digest (weightSigned img) = dig then some img else none
      else none
    | none => none

/-- The shape of an image: its tensor table (R434). -/
def imageShape (img : Bytes) : Bytes := slice img 192 (16 * weightTensors img)

/-- The new image has another shape than the one the slot runs, as far as the device holds both headers. -/
def shapeChanges (s : State) (old new : Bytes) : Bool :=
  match s.headerImage old, s.headerImage new with
  | some a, some b => imageShape a != imageShape b
  | _, _ => false

/-- Note the replacement of a slot's image; where the device has opened the image its flips are requested at once, else the
seed device fetches what it does not hold (R384, R467). -/
def noteReplace (s : State) (slot : Nat) (x : ModelSlot) (dig : Bytes) : State :=
  let bays := (List.range 64).filter fun b => x.bays.getLsbD b
  if bays.isEmpty then s
  else
    let g := aget {} s.serving.groups slot
    let r : Replace := { header := dig, weights := [], old := x.weights, ready := false, bays := bays }
    let t := { s with serving := { s.serving with groups := aput {} s.serving.groups slot { g with replace := some r } } }
    match s.headerImage dig with
    | some img => if s.cs.weights.any fun w => w.digest == slice img 32 32 then t.startFlips img else t
    | none => if s.system.device = s.footing.seedDevice then t.startFetch dig (bays.headD 0) else t

/-- REPLACE_WEIGHTS (R384). -/
def replaceChange (s : State) (b : Bytes) : State × Code :=
  let slot := fieldLE b 0 1
  let dig := slice b 4 32
  let draft := slice b 36 32
  match s.footing.models.find? fun x => x.1 == slot with
  | none => (s, eBadField)
  | some x =>
    let other := s.footing.models.find? fun y => y.1 == x.2.draft
    let unbound (d : Bytes) : Bool := (s.headerImage d).any fun img => (unwrapKey img).isNone
    if (aget {} s.serving.groups slot).replace.isSome then (s, eServeBusy)
    else if x.2.draft ≠ 0xFF ∧ allZero draft ∧ s.shapeChanges x.2.header dig then (s, eBadField)
    else if unbound dig ∨ (¬ allZero draft ∧ unbound draft) then (s, eNotBound)
    else
      let t := s.noteReplace slot x.2 dig
      match other with
      | some y => if allZero draft then (t, sOk) else (t.noteReplace y.1 y.2 draft, sOk)
      | none => (t, sOk)

/-- CANCEL. -/
def cancelEntry (s : State) (seq : Nat) : State × Code :=
  if s.journal.entries.any fun k => k.entry.seq == seq && k.isWaiting then
    let t := s.mapEntry seq fun k => { k with cancelled := true }
    let mine (e : SchedEntry) : Bool := e.cls == 0 && e.arg == BitVec.ofNat 32 seq
    ({ t with tb := { t.tb with sched := t.tb.sched.filter fun (e : SchedEntry) => !mine e } }, sOk)
  else (s, eChangeDone)

/-- JOB: hold or resume; a re-mapping that ended without a host holds the job for good (R484). -/
def jobChange (s : State) (action : Nat) : State × Code :=
  ({ s with turn := { s.turn with jobHeld := action == 1 || s.system.remapCode == eRemapNone } }, sOk)

/-- A change takes effect: the state after, and the code of the operation. -/
def applyChange (s : State) (op : Nat) (b : Bytes) : State × Code :=
  match op with
  | 0x0101 => (s.setField (fieldLE b 0 2) (b.drop 2), sOk)
  | 0x0102 => s.planChange (bayOfRecord b).1 (bayOfRecord b).2
  | 0x0103 =>
    let bay := fieldLE b 0 1
    let t := s.bayCommand bay (fieldLE b 1 1) 0 s.tb.cycle
    (t, (t.bay bay).lastCode)
  | 0x0104 => s.tierChange b
  | 0x0105 => s.replaceChange b
  | 0x0106 => s.cancelEntry (fieldLE b 0 8)
  | _ => s.jobChange (fieldLE b 0 1)

/-! ### Answers -/

/-- A response on a connection that is still open (R460, R461); an error carries the error body alone. -/
def answerOn (s : State) (conn op : Nat) (tag : Word) (code : Code) (at_ seq : Nat) (body : Bytes) : State :=
  let b := if isError code then leBytes 4 at_ ++ leBytes 8 seq ++ zeros 4 else body
  let t := if isError code then s.count mgmtRefused 1 else s
  if t.mgmt.conns.any fun c => c.id == conn then t.emit (.cirid conn (ciridMsg op 1 tag code b)) else t

def answerTo (s : State) (op : Nat) (m : Cirid) (code : Code) (at_ : Nat) (body : Bytes) : State :=
  s.answerOn m.conn op m.tag code at_ 0 body

/-- A change (R443, R461, R465): entered in the journal in the cycle it is taken, and applied or scheduled. -/
def takeChangeCmd (s : State) (slot op : Nat) (m : Cirid) : State :=
  let chk := changeCheck op m
  let seq := s.journal.seq + 1
  if s.journalFull then s.answerTo op m eSchedFull noOffset []
  else if chk.1 ≠ sOk then (s.enterJournal op slot m chk.1).answerOn m.conn op m.tag chk.1 chk.2 seq []
  else
    let tick := fieldLE m.body 0 8
    if tick = 0 then
      let r := s.applyChange op (m.body.drop 8)
      (((r.1.enterJournal op slot m r.2).noteOutcome seq r.2)).answerOn m.conn op m.tag r.2 noOffset seq []
    else
      let arg := BitVec.ofNat 32 seq
      let code := s.schedCode true tick 0 arg
      let at_ := if code = eTickPast ∨ code = eTickHorizon then 16 else noOffset
      ((s.schedule true tick 0 arg).enterJournal op slot m code).answerOn m.conn op m.tag code at_ seq []

/-! ### Reads (R462) -/

/-- STATUS. -/
def statusBody (s : State) : Bytes :=
  leBytes 4 mgDeviceId.toNat ++ leBytes 4 ((s.bootReg 0).getD 0).toNat ++ leBytes 4 ((s.timeReg 0).getD 0).toNat
    ++ leBytes 8 s.tb.tick ++ leBytes 8 s.turn.turn ++ leBytes 4 s.rel.degraded.toNat ++ leBytes 4 s.mgmt.alarm.toNat

/-- Registers read one after another as requester 32; the first invalid address ends it (R32, R461). -/
def readRegs : Nat → Nat → State × Bytes → State × Bytes × Option Nat
  | 0, _, x => (x.1, x.2, none)
  | n + 1, a, x => match x.1.readAs mgmtAgent a 32 with
    | (t, some w) => readRegs n (a + 4) (t, x.2 ++ leBytes 4 w.toNat)
    | (_, none) => (x.1, x.2, some a)

/-- READ_REG and READ_STATS name an address that is not valid: rejected, counted and recorded (R32). That READ_STATS of a
valid register that is no counter is answered so too is the model's choice (log entry 104). -/
def badRead (s : State) (op : Nat) (m : Cirid) (a : Nat) : State := (s.ctlFault mgmtAgent (a % 2 ^ 40) false).answerTo op m eBadField 16 []

/-- READ_REG. The refusal of confidential mode comes before the check of R32, so that a refused command records no fault
(log entry 105). -/
def serveReadReg (s : State) (m : Cirid) : State :=
  let n := fieldLE m.body 8 4
  let chk := checkMsg m [(24, 4, n == 0 || 256 < n)] (m.body.length == 12) s.footing.confidential
  if chk.1 ≠ sOk then s.answerTo 2 m chk.1 chk.2 []
  else match readRegs n (fieldLE m.body 0 8) (s, []) with
    | (t, bs, none) => t.answerTo 2 m sOk noOffset bs
    | (_, _, some a) => s.badRead 2 m a

/-- READ_STATS: the snapshots, or the last complete turn aggregates, of consecutive counters, then TB_LATCH_SEQ (R55,
R440). -/
def serveReadStats (s : State) (m : Cirid) : State :=
  let n := fieldLE m.body 8 4
  let a := fieldLE m.body 0 8
  let chk := checkMsg m [(24, 4, n == 0 || 256 < n)] (m.body.length == 12) false
  let values := if s.footing.confidential then s.mgmt.aggDone else s.snap
  if chk.1 ≠ sOk then s.answerTo 3 m chk.1 chk.2 []
  else match ((List.range n).map fun i => a + 4 * i).find? fun x => x % 4 != 0 || !isStat x with
    | some x => s.badRead 3 m x
    | none =>
      s.answerTo 3 m sOk noOffset (((List.range n).flatMap fun i => leBytes 4 (aget 0 values (a + 4 * i)).toNat)
        ++ leBytes 4 s.tb.latchSeq.toNat)

/-- REPORT: the response follows when the report is signed (R428). -/
def serveReport (s : State) (m : Cirid) : State :=
  let chk := checkMsg m [] (m.body.length == 32) false
  if chk.1 ≠ sOk then s.answerTo 4 m chk.1 chk.2 []
  else if s.reportRoom then s.askReport m.body (.mgmt m.conn m.tag)
  else s.answerTo 4 m eCsBusy noOffset []

/-- READ_JOURNAL: entries of 128 B, each with its outcome: code, 6 B zero, cycle (R465). -/
def serveReadJournal (s : State) (m : Cirid) : State :=
  let first := fieldLE m.body 0 8
  let n := fieldLE m.body 8 4
  let chk := checkMsg m [(24, 4, n == 0 || 1024 < n)] (m.body.length == 12) false
  if chk.1 ≠ sOk then s.answerTo 5 m chk.1 chk.2 []
  else s.answerTo 5 m sOk noOffset ((s.journal.entries.filter fun k => first ≤ k.entry.seq && k.entry.seq < first + n).flatMap fun k =>
    entryBytes k.entry ++ leBytes 2 k.outcome.toNat ++ zeros 6 ++ leBytes 8 k.outcomeCycle)

/-- READ_OBJECT: tiles from the residence. -/
def serveReadObject (s : State) (m : Cirid) : State :=
  let id := fieldLE m.body 0 4
  let first := fieldLE m.body 4 4
  let n := fieldLE m.body 8 4
  let chk := checkMsg m [(24, 4, n == 0 || 256 < n)] (m.body.length == 12) s.footing.confidential
  if chk.1 ≠ sOk then s.answerTo 6 m chk.1 chk.2 []
  else match s.readable id with
    | none => s.answerTo 6 m eNoSuchObject 16 []
    | some o =>
      if o.tiles < first + n then s.answerTo 6 m eBadField 20 []
      else if o.lost then s.answerTo 6 m eObjLost noOffset []
      else
        let r := s.fetchTiles id o m.read first n
        match r.2 with
        | none => r.1.answerTo 6 m eStepAbort noOffset []
        | some ts => r.1.answerTo 6 m sOk noOffset ts.flatten

/-! ### Actions (R462, R464) -/

/-- RESET, now or at a tick (R462, R465). -/
def serveReset (s : State) (m : Cirid) : State :=
  let chk := checkMsg m [] (m.body.length == 8) false
  let tick := fieldLE m.body 0 8
  let code := s.schedCode true tick 3 0
  if chk.1 ≠ sOk then s.answerTo 0x0202 m chk.1 chk.2 []
  else if tick = 0 then (s.answerTo 0x0202 m sOk noOffset []).enterReset s.pins.pwrOk s.pins.resetIn
  else
    let t := s.schedule true tick 3 0
    let u := if code = sOk then { t with mgmt := { t.mgmt with resetAt := some (min tick (t.mgmt.resetAt.getD tick)) } } else t
    u.answerTo 0x0202 m code (if code = eTickPast ∨ code = eTickHorizon then 16 else noOffset) []

/-- SUBSTITUTE: on a spare it counts as the three SUSPECTs (R414). -/
def serveSubstitute (s : State) (m : Cirid) : State :=
  let f := fieldLE m.body 0 2
  let chk := checkMsg m [(16, 2, !s.isDevice f)] (m.body.length == 2) false
  if chk.1 ≠ sOk then s.answerTo 0x0203 m chk.1 chk.2 []
  else if s.system.spare then
    if 16320 + s.cairnNum (s.coordsOf f) = s.system.device then (s.substituteFor f).answerTo 0x0203 m sOk noOffset []
    else s.answerTo 0x0203 m eBadField 16 []
  else if s.system.substituting ∧ f ≠ s.system.device ∧ sameCairn (s.coordsOf f) s.selfCoords then
    State.answerTo { s with system := { s.system with substCode := eSubstNone } } 0x0203 m eSubstNone noOffset []
  else s.answerTo 0x0203 m sOk noOffset []

/-- The checks of a WRITE_FOOTING of a sub-op. -/
def footingOpCheck (s : State) (sub : Nat) (m : Cirid) : Code × Nat :=
  let n := m.body.length
  let slot := fieldLE m.body 1 1
  let chk := checkMsg m [(16, 1, fieldLE m.body 0 1 != sub), (17, 1, 1 < slot), (18, 2, fieldLE m.body 2 2 != 0)]
    (if sub = 1 then 9 ≤ n && n ≤ 1048568 else n == 8) false
  if chk.1 ≠ sOk then chk
  else if s.footing.present ∧ s.boot.ftSlot = (slot == 1) then (eSlotActive, 17)
  else if sub = 1 ∧ slotSize s.boot.flashMib < fieldLE m.body 4 4 + (n - 8) then (eBadLength, 20)
  else (sOk, noOffset)

/-- WRITE_FOOTING begins, or waits while one runs. -/
def startFooting (s : State) (sub : Nat) (m : Cirid) : State :=
  let chk := s.footingOpCheck sub m
  if chk.1 ≠ sOk then s.answerTo 0x0201 m chk.1 chk.2 []
  else { s with mgmt := { s.mgmt with flashOp := some (sub, m) } }

/-- A whole slot reads 0xFF. -/
def eraseSlot (s : State) (b : Bool) : State :=
  let lo := footingBase s.boot.flashMib b
  let hi := lo + slotSize s.boot.flashMib
  { s with flash := s.flash.filter fun (c : Host.Cell) => c.1 < lo || hi ≤ c.1 }

/-- Page programming clears bits only. -/
def programFlash (s : State) (at_ : Nat) (bs : Bytes) : State :=
  { s with flash := awrite 0xFF s.flash at_ (List.zipWith (· &&& ·) (aread 0xFF s.flash at_ bs.length) bs) }

/-- The running WRITE_FOOTING has its effect and is answered. -/
def finishFooting (s : State) (sub : Nat) (m : Cirid) : State :=
  let b := fieldLE m.body 1 1 == 1
  let t := { s with mgmt := { s.mgmt with flashOp := none } }
  if sub = 0 then (t.eraseSlot b).answerTo 0x0201 m sOk noOffset []
  else if sub = 1 then
    (t.programFlash (footingBase s.boot.flashMib b + fieldLE m.body 4 4) (m.body.drop 8)).answerTo 0x0201 m sOk noOffset []
  else
    let r := footingCheck s.flash s.boot.flashMib b s.marlFound
    t.answerTo 0x0201 m r.1 noOffset (leBytes 8 r.2.generation)

/-! ### The management agent (R461, R464, R474) -/

/-- Serve a command by its op; a reserved one is answered with E_BAD_FIELD (R10, R461). -/
def serve (s : State) (slot op : Nat) (m : Cirid) : State :=
  if ¬ tableOps.contains (op % 65536) then s.answerTo op m eBadField 4 []
  else match op with
  | 0x0001 =>
    let chk := checkMsg m [] m.body.isEmpty false
    s.answerTo 1 m chk.1 chk.2 s.statusBody
  | 0x0002 => s.serveReadReg m
  | 0x0003 => s.serveReadStats m
  | 0x0004 => s.serveReport m
  | 0x0005 => s.serveReadJournal m
  | 0x0006 => s.serveReadObject m
  | 0x0007 =>
    let chk := checkMsg m [] m.body.isEmpty false
    s.answerTo 7 m chk.1 chk.2 s.alarmBytes
  | 0x0202 => s.serveReset m
  | 0x0203 => s.serveSubstitute m
  | 0x00201 => s.startFooting 0 m
  | 0x10201 => s.startFooting 1 m
  | 0x20201 => s.startFooting 2 m
  | _ => s.takeChangeCmd slot op m

/-- The op as the header carries it. -/
def wireOp (op : Nat) : Nat := op % 65536

/-- A command of a connection must wait: one of the same connection is not yet answered, or a WRITE_FOOTING runs. -/
def mustWait (s : State) (op : Nat) (m : Cirid) : Bool :=
  s.mgmt.flashOp.any (fun x => x.2.conn == m.conn || wireOp op == 0x0201)
    || s.cs.reports.any (fun r => match r.who with | .mgmt c _ => c == m.conn | .session _ _ => false)

/-- Serve a command, or answer that it is not offered in the fatal state or in recovery. -/
def serveOffered (s : State) (slot op : Nat) (m : Cirid) : State :=
  if s.rel.fatal ∧ ¬ servedFatal op s.footing.confidential then s.answerTo (wireOp op) m eDeviceFatal noOffset []
  else if s.boot.stage = .recovery ∧ ¬ [0x0001, 0x0201, 0x0202].contains (wireOp op) then s.answerTo (wireOp op) m eRecovery noOffset []
  else s.serve slot op m

/-- A complete message arrives (R460, R461): a length out of range closes the connection. -/
def onCirid (s : State) (rowOp : Nat) (m : Cirid) : State :=
  let op := opOf rowOp m
  if ¬ s.powered ∨ ¬ s.boot.mgmtOpen then s
  else match s.mgmt.conns.find? fun c => c.id == m.conn with
  | none => s
  | some c =>
    if 1048576 < m.body.length then
      State.emit { s with mgmt := { s.mgmt with conns := s.mgmt.conns.filter fun (x : MgmtConn) => x.id ≠ m.conn } } (.tcpClosed m.conn)
    else
      let t := State.count { s with mgmt := { s.mgmt with conns := s.mgmt.conns.map fun (x : MgmtConn) =>
        if x.id = m.conn then { x with lastTick := s.tb.up } else x } } mgmtCmds 1
      if t.mgmt.waiting.any (fun x => x.2.conn == m.conn) || t.mustWait op m then
        { t with mgmt := { t.mgmt with waiting := t.mgmt.waiting ++ [(op, m)] } }
      else t.serveOffered c.slot op m

/-- Serve the waiting commands that need wait no longer, in order of arrival. -/
def serveWaiting : Nat → State → State
  | 0, s => s
  | n + 1, s =>
    let ready := s.mgmt.waiting.zipIdx.find? fun x =>
      !s.mustWait x.1.1 x.1.2 && !(s.mgmt.waiting.take x.2).any fun y => y.2.conn == x.1.2.conn
    match ready with
    | none => s
    | some x =>
      let t := { s with mgmt := { s.mgmt with waiting := s.mgmt.waiting.eraseIdx x.2 } }
      match t.mgmt.conns.find? fun c => c.id == x.1.2.conn with
      | some c => serveWaiting n (t.serveOffered c.slot x.1.1 x.1.2)
      | none => serveWaiting n t

/-- What waits is looked at again after a command ends. -/
def serveNext (s : State) : State := serveWaiting s.mgmt.waiting.length s

/-- A connection is refused with a reset, fails its handshake, or opens (R458, R459). -/
def connect (s : State) (f : MgmtFacts) : State :=
  let key := if s.boot.stage = .recovery then (if f.clientKey = Config.ownerKey then some 0 else none)
    else (s.footing.operators.find? fun x => x.2 == f.clientKey).map (·.1)
  if s.mgmt.conns.any fun c => c.id == f.conn then s
  else if 4 ≤ s.mgmt.conns.length ∨ 16 ≤ aget 0 s.mgmt.tlsFails f.source then s.emit (.tcpReset f.conn)
  else match f.tlsOk, key with
    | true, some slot =>
      { s with mgmt := { s.mgmt with conns := s.mgmt.conns ++ [{ id := f.conn, slot := slot, source := f.source, lastTick := s.tb.up }] } }
    | _, _ =>
      State.emit (State.count { s with mgmt := { s.mgmt with
        tlsFails := aput 0 s.mgmt.tlsFails f.source (aget 0 s.mgmt.tlsFails f.source + 1) } } mgmtAuthFail 1) (.tcpClosed f.conn)

/-- A connection idle for 2^28 ticks is closed (R459). -/
def idleClose (s : State) (conn : Nat) : State :=
  if s.mgmt.conns.any fun c => c.id == conn && c.lastTick + 2 ^ 28 ≤ s.tb.up then
    State.emit { s with mgmt := { s.mgmt with conns := s.mgmt.conns.filter fun (x : MgmtConn) => x.id ≠ conn } } (.tcpClosed conn)
  else s

end State

/-- BAY_PLAN (R80, R462). -/
def execBayPlan (src : PlanSource) (s : State) : Out :=
  .next (match src with
    | .mortar bay plan => if s.mortarUp ∧ bay < 64 then (s.planChange bay plan).1 else s
    | .mgmt m => s.onCirid 0x0102 m)

/-- MGMT_CONNECTION (R459). -/
def execMgmtConnection (facts : MgmtFacts) (s : State) : Out :=
  .next (if s.powered ∧ s.boot.mgmtOpen then s.connect facts else s)

/-- MGMT_IDLE_TIMEOUT (R459). -/
def execMgmtIdleTimeout (conn : Nat) (s : State) : Out := .next (if s.powered then s.idleClose conn else s)

/-- STATUS (R462). -/
def execStatus (m : Cirid) (s : State) : Out := .next (s.onCirid 0x0001 m)
/-- READ_REG (R32, R462). -/
def execReadReg (m : Cirid) (s : State) : Out := .next (s.onCirid 0x0002 m)
/-- READ_STATS (R55, R440, R462). -/
def execReadStats (m : Cirid) (s : State) : Out := .next (s.onCirid 0x0003 m)
/-- REPORT (R428, R462). -/
def execReport (m : Cirid) (s : State) : Out := .next (s.onCirid 0x0004 m)
/-- READ_JOURNAL (R443, R462). -/
def execReadJournal (m : Cirid) (s : State) : Out := .next (s.onCirid 0x0005 m)
/-- READ_OBJECT (R462). -/
def execReadObject (m : Cirid) (s : State) : Out := .next (s.onCirid 0x0006 m)
/-- ALARMS (R466). -/
def execAlarms (m : Cirid) (s : State) : Out := .next (s.onCirid 0x0007 m)
/-- SET_FIELD (R463). -/
def execSetField (m : Cirid) (s : State) : Out := .next (s.onCirid 0x0101 m)
/-- BAY_CMD (R462). -/
def execBayCmd (m : Cirid) (s : State) : Out := .next (s.onCirid 0x0103 m)
/-- TIER (R462). -/
def execTierCmd (m : Cirid) (s : State) : Out := .next (s.onCirid 0x0104 m)
/-- REPLACE_WEIGHTS (R384). -/
def execReplaceWeights (m : Cirid) (s : State) : Out := .next (s.onCirid 0x0105 m)
/-- CANCEL_CHANGE (R462). -/
def execCancelChange (m : Cirid) (s : State) : Out := .next (s.onCirid 0x0106 m)
/-- JOB (R358, R462). -/
def execJob (m : Cirid) (s : State) : Out := .next (s.onCirid 0x0107 m)
/-- ERASE (R464). -/
def execErase (m : Cirid) (s : State) : Out := .next (s.onCirid 0x00201 m)
/-- WRITE (R464). -/
def execWrite (m : Cirid) (s : State) : Out := .next (s.onCirid 0x10201 m)
/-- VERIFY (R464). -/
def execVerify (m : Cirid) (s : State) : Out := .next (s.onCirid 0x20201 m)
/-- RESET (R462). -/
def execReset (m : Cirid) (s : State) : Out := .next (s.onCirid 0x0202 m)
/-- SUBSTITUTE_COMMAND (R414). -/
def execSubstituteCommand (m : Cirid) (s : State) : Out := .next (s.onCirid 0x0203 m)

/-- WRITE_FOOTING_DONE (R464). -/
def execWriteFootingDone (s : State) : Out :=
  .next (if s.powered then
      match s.mgmt.flashOp with
      | none => s
      | some (sub, m) => (s.finishFooting sub m).serveNext
    else s)

/-- REPORT_COMPLETE (R428, R433). -/
def execReportComplete (s : State) : Out := .next (if s.awake then s.finishReport.serveNext else s)

end Sys2Proof.Machine
end

