-- ==== Sys2Proof/Machine/Census.lean ====
section
/-!
DEFINITION. What falls on a tick (R50, R51): scheduled events, the census and its exchange (R56–R59), the conservation
audits (R475, R476), adopting a journal (R444) and the watchdogs (R473).
-/
namespace Sys2Proof.Machine

/-- The order of R51: by tick, class and argument. -/
def firesBefore (a b : SchedEntry) : Bool :=
  a.tick < b.tick || (a.tick == b.tick && (a.cls < b.cls || (a.cls == b.cls && a.arg.toNat < b.arg.toNat)))

/-- The first of a list of entries in that order. -/
def firstEntry : List SchedEntry → Option SchedEntry
  | [] => none
  | e :: es => match firstEntry es with
    | some x => some (if firesBefore x e then x else e)
    | none => some e

/-- Digests of 32 bytes in ascending byte order. -/
def insertDigest (d : Bytes) : List Bytes → List Bytes
  | [] => [d]
  | x :: xs => if beNat x < beNat d then x :: insertDigest d xs else d :: x :: xs

def sortDigests (l : List Bytes) : List Bytes := l.foldr insertDigest []

namespace State

/-! ### Scheduled events (R50, R51) -/

/-- The tick is a census tick (R56). -/
def isCensusTick (s : State) : Bool := s.tb.loaded && s.tb.tick % 2 ^ 20 == 0

/-- A turn boundary is due. -/
def boundaryDue (s : State) : Bool := s.tb.sched.any fun e => e.cls == 2 && e.tick ≤ s.tb.tick

/-- The latch of a tick, once (R51, R53). -/
def latchTick (s : State) : State :=
  if (s.isCensusTick || s.boundaryDue) && s.tb.lastLatch != some s.tb.tick then s.latch s.boundaryDue s.isCensusTick else s

/-- A scheduled change fires, and its outcome is recorded (R465). -/
def fireChange (s : State) (arg : Word) : State :=
  match s.journal.entries.find? fun k => k.isWaiting && BitVec.ofNat 32 k.entry.seq == arg with
  | none => s
  | some k =>
    let r := s.applyChange k.entry.op (k.entry.body.drop 8)
    r.1.noteOutcome k.entry.seq r.2

/-- A turn boundary: the announced one of that number, else one Mortar requested itself. -/
def fireBoundary (s : State) (arg : Word) : State :=
  let here : Nat := s.turn.turn / 2 ^ 32 * 2 ^ 32 + arg.toNat
  if ¬ s.footing.turn.enable then s
  else match s.turn.next with
  | some a => if !a.void && a.phase == 1 && BitVec.ofNat 32 a.turn == arg then s.takeChange a else s.takeBoundary here
  | none => s.takeBoundary here

/-- A Mortar wake: an announced phase or void of this tick, or a re-mapping's tick B, is taken with it. -/
def fireWake (s : State) (arg : Word) : State :=
  let t := s.emit (.mortar 0 arg.toNat)
  let u := match t.turn.next with
    | some a => if (a.void || a.phase != 1) && a.tick ≤ t.tb.tick then t.takeChange a else t
    | none => t
  if u.system.remapNext.any fun x => x.2.2.2 ≤ u.tb.tick then u.fireRemap else u

/-- One entry fires. -/
def fireEntry (s : State) (e : SchedEntry) : State :=
  match e.cls with
  | 0 => s.fireChange e.arg
  | 1 => s.bayCommand (e.arg.toNat % 64) 3 0 s.tb.cycle
  | 2 => s.fireBoundary e.arg
  | _ => s.fireWake e.arg

/-- The entries of passed ticks, and those of this tick with a class up to a limit, fire in ascending tick and then in
R51's order, each freed first (R45). -/
def fireDue (limit : Nat) : Nat → State → State
  | 0, s => s
  | n + 1, s =>
    match firstEntry (s.tb.sched.filter fun e => e.tick < s.tb.tick || (e.tick == s.tb.tick && e.cls ≤ limit)) with
    | none => s
    | some e => fireDue limit n (State.fireEntry { s with tb := { s.tb with sched := s.tb.sched.erase e } } e)

/-- A scheduled RESET is due (R462). -/
def resetDue (s : State) : Bool := s.mgmt.resetAt.any fun t => t ≤ s.tb.tick

/-! ### The conservation audits (R226, R419, R475) -/

/-- Charges of the objects, and of the movements under way, that a predicate picks. -/
def chargesOf (s : State) (obj : Nat → Obj → Nat) (cmd : TierCmd → Nat) : Nat :=
  (s.objs.map fun c => match c.2 with | some o => obj c.1 o | none => 0).sum + (s.tier.cmds.map cmd).sum

def sectorCharges (s : State) (t : Tier) (b : Nat) : Nat :=
  s.chargesOf (fun id o => if ownerOf id = b ∧ o.residence = t then o.sectorCharge else 0)
    fun c => if ownerOf c.obj = b ∧ destTier c = t then c.sectorCharge else 0

/-- Buffers occupied and credits in return on a brick's links stay within their counts, per virtual channel (R226). -/
def brickLinks (s : State) (n : Nat) : Bool :=
  (List.range 8).all fun d => (List.range 4).all fun vc => s.spentCredits (8 * n + d) vc ≤ linkCredits (8 * n + d)

/-- The endpoint a grit link leads from: a brick, or the Keystone or first Ashlar die of a die-to-die link. -/
def gritEndpoint (link : Nat) : Nat := if link < 32768 then link / 8 else 4096

/-- Buffers occupied on an endpoint's grit links stay within 2 per class (R70, R226). -/
def endpointGrit (s : State) (e : Nat) : Bool :=
  s.net.grit.all fun m => match m.place with
    | none => true
    | some l => gritEndpoint l != e || (gritBuffer s.net.grit l m.p.fence).length ≤ gritCredits

/-- The invariant of a pool instance, on this device's own counters. -/
def poolOk (s : State) (pool i : Nat) : Bool :=
  let v := s.bay i
  let q := s.port i
  let r := s.relay i
  match pool with
  | 0 => s.handlesBalance i
  | 1 => v.parked == (s.objs.map fun c => match c.2 with | some o => if o.parkedBay = i then o.parked else 0 | none => 0).sum
  | 2 => s.brickLinks i
  | 3 => s.endpointGrit i
  | 4 => r.granted == r.retired + r.tokens + r.spent + r.flits + (r.slotTiles.map (·.2)).sum
  | 5 => (List.range 8).all fun ch => aget 0 q.spent ch ≤ channelCap ch && s.occupied i ch + aget 0 q.owed ch ≤ channelCap ch
  | 6 => aget 0 q.spent 8 ≤ channelCap 8 && s.occupied i 8 + aget 0 q.owed 8 ≤ channelCap 8
  | 7 => v.clayUsed == s.chargesOf (fun _ o => if o.charged = i then o.clayCharge else 0)
      fun c => if argBay c.arg1 = i ∧ destTier c = .clay then c.clayCharge else 0
  | 8 => v.loamUsed == s.sectorCharges .loam i
  | 9 => v.marlUsed == s.sectorCharges .marl i
  | 10 => v.drawsIssued == v.drawsServed
  | _ => true

/-- The instances of a pool that can mismatch: of the credits, those of the stops and endpoints that spend any. -/
def poolIndices (s : State) : Nat → List Nat
  | 2 => (s.net.flits.filterMap fun f => f.occupies.map fun x => x.1 / 8) ++ s.net.credits.map fun c => c.link / 8
  | 3 => s.net.grit.filterMap fun m => m.place.map gritEndpoint
  | 4 => List.range 32
  | 5 | 6 => List.range 16
  | _ => List.range 64

/-- The least of a list of numbers. -/
def leastOf (l : List Nat) : Option Nat := l.head?.map fun x => l.foldl min x

/-- The lowest pool code, then the lowest index, that mismatches (R476). -/
def firstMismatch (s : State) : Option (Nat × Nat) :=
  (List.range 11).findSome? fun p => (leastOf ((s.poolIndices p).filter fun i => !s.poolOk p i)).map fun i => (p, i)

/-! ### The census (R56–R59) -/

/-- The configuration digest (R57). -/
def configDigest (s : State) : Bytes :=
  digest (slice s.footing.systemDigest 0 32 ++ slice s.journal.head 0 32 ++ leBytes 8 s.turn.turn
    ++ (sortDigests (s.footing.bonds.map fun x => x.2.2.2)).flatten ++ (sortDigests (s.footing.images.map fun x => x.2.2.2.1)).flatten)

/-- The device joins a running system, and so must adopt a journal: a spare that substitutes, or a device that rejoins
after reset (R444). -/
def joins (s : State) : Bool :=
  s.system.substituting || (s.boot.rejoins && 1 < s.footing.ex * s.footing.ey * s.footing.ez)

/-- The device takes part in a census (R58, R444, R480). -/
def inCensus (s : State) : Bool :=
  s.boot.stage == .ready && !s.boot.adoptFailed && (!s.joins || s.boot.adopted) && s.system.standing != 2

/-- Match, absent and time-lost of the reports in hand, as flags (R399, R58). -/
def censusFlags (s : State) : Nat :=
  let rs := s.census.reports
  let missing := s.children.any fun c => !rs.any fun r => r.child == c
  let lost := s.tb.state == .lost || rs.any (·.timeLost)
  let absent := missing || rs.any (·.absent)
  let ok := rs.all (fun r => r.equal && r.matched) && !absent && !lost
  bit01 ok + 2 * bit01 absent + 4 * bit01 lost

/-- Count each child's consecutive absences; a second one is evidence of a failure (R479; log entry 82). -/
def noteAbsences (s : State) : State :=
  s.children.foldl (fun (t : State) c =>
    let here := t.census.reports.any fun r => r.child == c
    let n := if here then 0 else aget 0 t.census.absences c + 1
    let u := { t with census := { t.census with absences := aput 0 t.census.absences c n } }
    if n = 2 then (if u.answersFor c then u.declareFailed c else u.emit (.mortar 5 c)) else u) s

/-- Send this device's report to its parent. -/
def sendReport (s : State) : State :=
  let c := s.census.tick.getD 0
  State.noteAbsences (({ s with census := { s.census with sent := true } }).sendMsg s.parent { typ := 0x10, arg := c % 2 ^ 32 }
    (slice s.census.digest 0 32 ++ leBytes 1 s.censusFlags))

/-- A verdict on the census: TB_CENSUS_STATUS, and on any but a match the skew of R59. -/
def takeVerdict (s : State) (matched absent lost : Bool) : State :=
  let t := { s with census := { s.census with matched := matched, absent := absent, timeLost := lost, verdict := true
                                              skew := !matched } }
  if matched then t else State.alarm { t with turn := { t.turn with lastCode := eConfigSkew } } 2 eConfigSkew 0

/-- Pass a verdict down the tree. -/
def sendVerdict (s : State) (flags : Nat) : State :=
  s.sendAll s.children { typ := 0x11, arg := s.census.tick.getD 0 % 2 ^ 32 } (leBytes 1 flags)

/-- The memory units count uncorrectable reads, Recovery entries and violations from a census tick to the next (R275,
R282). -/
def clearUnitCounts (s : State) : State :=
  { s with units := arun {} 0 ((List.range 36).map fun u =>
      { s.unit u with uncorr := 0, parity := 0, recoveries := 0, violations := 0 }) }

/-- The capture at a census tick, once: the audit's counters, and the digest of a device that takes part; a leaf reports
at once. One that takes no part captures no digest and sends no report, but takes the verdict (R57, R58, R476). -/
def capture (s : State) : State :=
  if ¬ s.isCensusTick ∨ s.census.tick = some s.tb.tick then s
  else
    let t := State.clearUnitCounts { s with rel := { s.rel with audit := some s.firstMismatch } }
    if t.inCensus then
      let u := { t with census := { t.census with
        tick := some t.tb.tick, part := true, digest := t.configDigest, reports := [], sent := false, verdict := false } }
      if ¬ u.isRoot ∧ u.children = [] then u.sendReport else u
    else { t with census := { t.census with tick := some t.tb.tick, part := false, reports := [], sent := true, verdict := false } }

/-- Everything that falls on a tick up to the capture. -/
def tickEvents (s : State) : State :=
  let t := s.latchTick
  (State.fireDue 2 t.tb.sched.length t).capture

/-- SCHEDULE_ENTRY_FIRE: all of R51's order; a scheduled RESET last. In the fatal state only the RESET is taken. -/
def fireSchedule (s : State) : State :=
  let t := if s.rel.fatal then s else
    let u := s.tickEvents
    State.fireDue 3 u.tb.sched.length u
  if t.resetDue then t.enterReset t.pins.pwrOk t.pins.resetIn else t

/-- CENSUS_REPORT: a child's digest and flags; with the last one this device reports upward. -/
def takeReport (s : State) (child : Nat) (low : Word) (dig : Bytes) (flags : Byte) : State :=
  let due := s.census.tick.any fun c => BitVec.ofNat 32 c == low
  if ¬ due ∨ s.census.verdict ∨ ¬ s.children.contains child ∨ s.census.reports.any (fun r => r.child == child) then s
  else
    let r : ChildReport := { child := child, equal := dig == s.census.digest, matched := flags.getLsbD 0,
                             absent := flags.getLsbD 1, timeLost := flags.getLsbD 2 }
    let t := { s with census := { s.census with reports := s.census.reports ++ [r] } }
    if ¬ t.isRoot ∧ ¬ t.census.sent ∧ t.children.all (fun c => t.census.reports.any fun x => x.child == c) then t.sendReport else t

/-- A census tick lies n ticks back. -/
def censusAge (s : State) (n : Nat) : Bool := s.census.tick.any fun c => c + n ≤ s.tb.tick

/-- CENSUS_ROOT_DECISION: the verdict goes down the tree. -/
def decideCensus (s : State) : State :=
  let f := s.censusFlags
  ((s.sendVerdict f).noteAbsences).takeVerdict (f % 2 == 1) (f / 2 % 2 == 1) (f / 4 == 1)

/-- CENSUS_VERDICT from the parent. -/
def hearVerdict (s : State) (low : Word) (flags : Byte) : State :=
  if ¬ (s.census.tick.any fun c => BitVec.ofNat 32 c == low) ∨ s.census.verdict then s
  else (s.sendVerdict flags.toNat).takeVerdict (flags.getLsbD 0) (flags.getLsbD 1) (flags.getLsbD 2)

/-! ### Adopting a journal (R444) -/

/-- The heads of a chain of entries from a head; none where an entry does not continue it. -/
def chainHeads : Nat → Bytes → List JournalEntry → Option (List Bytes)
  | _, _, [] => some []
  | n, h, e :: es =>
    if e.prev = h ∧ e.seq = n + 1 then
      let head := digest (hashedPart e)
      (chainHeads (n + 1) head es).map (head :: ·)
    else none

/-- The second neighbour's base agrees: the first's, or a later one whose head the chain holds. -/
def baseOk (base : Nat) (heads : List Bytes) (baseHead : Bytes) (second : Nat) (secondHead : Bytes) : Bool :=
  (second == base && secondHead == baseHead) || (base < second && heads[second - base - 1]? == some secondHead)

/-- A CANCEL of the entries that has been taken names a change (R462). -/
def cancelledIn (s : State) (entries : List JournalEntry) (seq : Nat) : Bool :=
  entries.any fun e => e.op == 0x0106 && e.code == sOk && e.tick ≤ s.tb.tick && fieldLE e.body 8 8 == seq

/-- The adopted journal: changes whose tick has passed are not executed, the others are scheduled but those cancelled. -/
def adopt (s : State) (baseSeq : Nat) (baseHead : Bytes) (entries : List JournalEntry) (heads : List Bytes) : State :=
  let kept : List KeptEntry := (entries.zip heads).map fun x =>
    { entry := x.1, head := x.2, fired := x.1.tick ≤ s.tb.tick, outcome := 0, outcomeCycle := 0
      cancelled := s.cancelledIn entries x.1.seq }
  let due := (kept.filter fun k => k.isWaiting).map fun k =>
    ({ tick := k.entry.tick, cls := 0, arg := BitVec.ofNat 32 k.entry.seq } : SchedEntry)
  { s with
    journal := { seq := baseSeq + entries.length, head := heads.getLastD baseHead, baseSeq := baseSeq, baseHead := baseHead
                 entries := kept }
    tb := { s.tb with sched := s.tb.sched ++ due.take (256 - s.tb.sched.length) }
    boot := { s.boot with adopted := true, adoptFailed := false } }

def adoptJournal (s : State) (baseSeq : Nat) (baseHead : Bytes) (entries : List JournalEntry) (second : Nat) (secondHead : Bytes) :
    State :=
  let fail := State.alarm { s with boot := { s.boot with adoptFailed := true }, cs := { s.cs with lastCode := eConfigSkew } } 2
    eConfigSkew 0
  match chainHeads baseSeq baseHead entries with
  | none => fail
  | some heads =>
    let start := if baseSeq = 0 then baseHead == journalStart s.footing.systemDigest
      else baseOk baseSeq heads baseHead second secondHead
    if start then s.adopt baseSeq baseHead entries heads else fail

end State

/-- SCHEDULE_ENTRY_FIRE (R50, R51, R53, R93, R465). -/
def execScheduleEntryFire (s : State) : Out := .next (if s.powered then s.fireSchedule else s)

/-- CENSUS_TICK (R51, R53, R56–R58, R476). -/
def execCensusTick (s : State) : Out := .next (if s.awake ∧ s.isCensusTick then s.tickEvents else s)

/-- CENSUS_REPORT (R58). -/
def execCensusReport (child : Nat) (tickLow : Word) (digest : Bytes) (flags : Byte) (s : State) : Out :=
  .next (if s.awake then s.takeReport child tickLow digest flags else s)

/-- CENSUS_CHILD_DEADLINE (R58). -/
def execCensusChildDeadline (s : State) : Out :=
  .next (if s.awake ∧ ¬ s.isRoot ∧ ¬ s.census.sent ∧ s.censusAge 4096 then s.sendReport else s)

/-- CENSUS_ROOT_DECISION (R58, R59, R479). -/
def execCensusRootDecision (s : State) : Out :=
  .next (if s.awake ∧ s.isRoot ∧ s.census.part ∧ ¬ s.census.verdict ∧ s.censusAge 6144 then s.decideCensus else s)

/-- CENSUS_VERDICT (R58, R59). -/
def execCensusVerdict (tickLow : Word) (flags : Byte) (s : State) : Out :=
  .next (if s.awake ∧ ¬ s.isRoot then s.hearVerdict tickLow flags else s)

/-- CENSUS_VERDICT_DEADLINE (R58, R59). -/
def execCensusVerdictDeadline (s : State) : Out :=
  .next (if s.awake ∧ ¬ s.census.verdict ∧ s.censusAge 8192 then
      s.takeVerdict false true (s.tb.state == .lost || s.census.reports.any (·.timeLost))
    else s)

/-- JOURNAL_ADOPT (R444). -/
def execJournalAdopt (baseSeq : Nat) (baseHead : Bytes) (entries : List JournalEntry) (secondSeq : Nat) (secondHead : Bytes)
    (s : State) : Out :=
  .next (if s.awake ∧ s.boot.mortar then s.adoptJournal baseSeq baseHead entries secondSeq secondHead else s)

/-- WATCHDOG_EXPIRY (R473). -/
def execWatchdogExpiry (core : Nat) (s : State) : Out :=
  .next (if s.awake ∧ core < 32 ∧ s.boot.mortar ∧ aget 0 s.rel.kicks core + 2 ^ 16 ≤ s.tb.up then
      s.fatalError eWatchdog (ksSource (16 ≤ core)) (BitVec.ofNat 32 core)
    else s)

/-- AUDIT_RESULT (R475, R476). -/
def execAuditResult (s : State) : Out :=
  .next (if s.awake then
      match s.rel.audit with
      | none => s
      | some none => State.count { s with rel := { s.rel with audit := none, auditPass := true, auditPool := 0, auditIndex := 0 } } auditRuns 1
      | some (some x) =>
        State.fatalError { s with rel := { s.rel with audit := none, auditPass := false, auditPool := x.1, auditIndex := x.2 } }
          eAuditMismatch (ksSource false) (BitVec.ofNat 32 (fieldAt 0 4 x.1 + fieldAt 4 13 x.2))
    else s)

end Sys2Proof.Machine
end

