-- ==== Sys2Proof/Machine/Fetch.lean ====
section
/-!
DEFINITION. The image fetch from the storage endpoint (R467): DATA, ERROR and timeouts, and the objects a fetched image
becomes.
-/
namespace Sys2Proof.Machine

/-- The fields of a fetch datagram: op, digest, offset, length; none where it is not laid out as R467 says. -/
def fetchFields (d : Bytes) : Option (Nat × Bytes × Nat × Nat) :=
  if d.length < 52 ∨ fieldLE d 0 4 ≠ 0x48435447 ∨ fieldLE d 5 3 ≠ 0 then none
  else some (fieldLE d 4 1, slice d 8 32, fieldLE d 40 8, fieldLE d 48 4)

/-- Bytes of the tensors' tiles, and those before tensor t, in table order. -/
def tensorBytes (img : Bytes) (t : Nat) : Nat :=
  let x := weightTensor img t
  x.2.2 * tileSize false x.2.1

def tensorsBefore (img : Bytes) (t : Nat) : Nat := ((List.range t).map (tensorBytes img)).sum

namespace State

/-- The header of a fetch as far as its first bytes tell. -/
def fetchHeader (f : Fetch) (n : Nat) : Bytes := aread 0 f.data 0 n

/-- The fetch ends with E_FETCH (R467): a management alarm; a replacement that waited for the image is given up. -/
def failFetch (s : State) (f : Fetch) : State :=
  let clear (g : Group) : Group :=
    if g.replace.any fun r => r.header == f.digest && !r.ready then { g with replace := none } else g
  let groups := s.serving.groups.map fun x => (x.1, clear x.2)
  State.alarm { s with fetch := none, serving := { s.serving with groups := groups.filter fun (x : Nat × Group) => x.2 ≠ {} } } 7 eFetch 0

/-- The lowest free object index of a bay's Loam objects. -/
def freeIndex (s : State) (owner : Nat) (taken : List Nat) : Nat :=
  ((List.range (s.objs.length + taken.length + 1)).find? fun i =>
    (s.obj (owner * 2 ^ 26 + i)).isNone && !taken.contains i).getD 0

/-- The image's objects in Loam: the header, then each tensor's ciphertext; the code of the first failure. -/
def imageObjects (s : State) (f : Fetch) (n : Nat) : State × Nat × Code :=
  let img := fetchHeader f n
  let tensors := List.range (weightTensors img)
  let id := f.owner * 2 ^ 26 + s.freeIndex f.owner (tensors.map fun t => (weightTensor img t).1)
  let h := s.loamObject id (bytesObj n) fun k => slice img (4096 * k) 4096
  tensors.foldl (fun (acc : State × Nat × Code) t =>
    if acc.2.2 ≠ sOk then acc
    else
      let x := weightTensor img t
      let z := tileSize false x.2.1
      let o : Obj := { bytesKind := false, fmt := x.2.1, tiles := x.2.2, size := x.2.2 * z, residence := .loam, creating := false,
                       charged := f.owner }
      let at_ := n + tensorsBefore img t
      let r := acc.1.loamObject (f.owner * 2 ^ 26 + x.1) o fun k => aread 0 f.data (at_ + k * z) z
      (r.1, acc.2.1, r.2)) (h.1, id, h.2)

/-- The whole image is here: its objects are made and its header validated, and the next fetch starts. -/
def finishFetch (s : State) (f : Fetch) (n : Nat) : State :=
  let r := State.imageObjects { s with fetch := none } f n
  if r.2.2 ≠ sOk then r.1.alarm 7 r.2.2 (BitVec.ofNat 32 r.2.1)
  else
    let c := r.1.checkObj r.2.1 []
    let t := c.1.recordCheck r.2.1 c.2
    State.fetchNext (if c.2.code = sOk then t else t.alarm 7 c.2.code (BitVec.ofNat 32 r.2.1))

/-- How long the stream is known to be: 192 bytes, then the header, then the whole image; none where the header makes no
sense. -/
def streamLength (f : Fetch) : Option Nat :=
  if f.total = 192 then
    let n := fieldLE (fetchHeader f 192) 16 8
    if n < 400 ∨ 192 + 16 * 65536 + 64 * 16384 + 128 < n ∨ fieldLE (fetchHeader f 4) 0 4 ≠ weightMagic then none else some n
  else
    let n := fieldLE (fetchHeader f 192) 16 8
    let img := fetchHeader f n
    if n < f.total then some f.total
    else if n ≠ 192 + 16 * weightTensors img + 64 * weightMembers img + 128 ∨ digest (weightSigned img) ≠ f.digest then none
    else some (n + tensorsBefore img (weightTensors img))

/-- Every byte asked for has come: more is known of the stream, or the image is whole. -/
def advanceFetch (s : State) (f : Fetch) : State :=
  match streamLength f with
  | none => s.failFetch f
  | some n =>
    if f.total = n ∧ 192 < n then s.finishFetch f (fieldLE (fetchHeader f 192) 16 8)
    else s.pumpFetch { f with total := n }

/-- DATA that matches an outstanding GET fills it; any other is discarded and counted. -/
def takeData (s : State) (port : Nat) (d : Bytes) : State :=
  match s.fetch, fetchFields d with
  | some f, some (2, dig, off, len) =>
    if dig = f.digest ∧ d.length = 52 + len ∧ f.gets.any (fun g => g.offset == off && g.length == len) then
      let g := { f with gets := f.gets.filter fun (x : Get) => x.offset ≠ off, data := awrite 0 f.data off (d.drop 52) }
      if g.gets.isEmpty ∧ g.total ≤ g.next then s.advanceFetch g else s.pumpFetch g
    else s.count (svRxDrop port) 1
  | _, _ => s.count (svRxDrop port) 1

/-- ERROR ends the fetch it names. -/
def endWithError (s : State) (port : Nat) (d : Bytes) : State :=
  match s.fetch, fetchFields d with
  | some f, some (3, dig, _, 0) => if dig = f.digest ∧ d.length = 52 then s.failFetch f else s.count (svRxDrop port) 1
  | _, _ => s.count (svRxDrop port) 1

/-- A GET without DATA for 2 ms is sent again, 8 times at most. -/
def getTimeout (s : State) (offset : Nat) : State :=
  match s.fetch with
  | none => s
  | some f =>
    match f.gets.find? fun g => g.offset == offset with
    | none => s
    | some g =>
      if 8 ≤ g.tries then s.failFetch f
      else
        let h := { g with tries := g.tries + 1 }
        State.sendGet { s with fetch := some { f with gets := f.gets.map fun (x : Get) => if x.offset = offset then h else x } } f.digest h

end State

/-- FETCH_DATA (R467). -/
def execFetchData (port : Nat) (datagram : Bytes) (s : State) : Out :=
  .next (if s.awake ∧ port < 2 then s.takeData port datagram else s)

/-- FETCH_ERROR (R467). -/
def execFetchError (port : Nat) (datagram : Bytes) (s : State) : Out :=
  .next (if s.awake ∧ port < 2 then s.endWithError port datagram else s)

/-- FETCH_GET_TIMEOUT (R467). -/
def execFetchGetTimeout (offset : Nat) (s : State) : Out := .next (if s.awake then s.getTimeout offset else s)

end Sys2Proof.Machine
end

