-- ==== Sys2Proof/Machine/Dispatch.lean ====
section
/-!
DEFINITION. The meaning of every command: one arm per constructor of Instr, each one direct call.
-/
namespace Sys2Proof.Machine

/-- The command's effect on everything but the queue. -/
def exec (i : Instr) (s : State) : Host.Outcome State Fault Refusal :=
  match i with
  | .registerWrite agent addr width value => Sys2Proof.Machine.execRegisterWrite agent addr width value s
  | .d2dFlitRetry source consecutive retrainFails => Sys2Proof.Machine.execD2dFlitRetry source consecutive retrainFails s
  | .tickStart => Sys2Proof.Machine.execTickStart s
  | .ppsEdge phaseNs => Sys2Proof.Machine.execPpsEdge phaseNs s
  | .todMessage bytes usAfterEdge => Sys2Proof.Machine.execTodMessage bytes usAfterEdge s
  | .ptpMessage msg => Sys2Proof.Machine.execPtpMessage msg s
  | .upstreamTimeout => Sys2Proof.Machine.execUpstreamTimeout s
  | .referenceLossTimeout => Sys2Proof.Machine.execReferenceLossTimeout s
  | .holdoverLimitExpiry => Sys2Proof.Machine.execHoldoverLimitExpiry s
  | .scheduleRequest mgmt tick cls arg => Sys2Proof.Machine.execScheduleRequest mgmt tick cls arg s
  | .scheduleEntryFire => Sys2Proof.Machine.execScheduleEntryFire s
  | .censusTick => Sys2Proof.Machine.execCensusTick s
  | .censusReport child tickLow digest flags => Sys2Proof.Machine.execCensusReport child tickLow digest flags s
  | .censusChildDeadline => Sys2Proof.Machine.execCensusChildDeadline s
  | .censusRootDecision => Sys2Proof.Machine.execCensusRootDecision s
  | .censusVerdict tickLow flags => Sys2Proof.Machine.execCensusVerdict tickLow flags s
  | .censusVerdictDeadline => Sys2Proof.Machine.execCensusVerdictDeadline s
  | .siteFailure die row col => Sys2Proof.Machine.execSiteFailure die row col s
  | .bayPlan src => Sys2Proof.Machine.execBayPlan src s
  | .enable agent bay reserved => Sys2Proof.Machine.execEnable agent bay reserved s
  | .shutDown agent bay reserved => Sys2Proof.Machine.execShutDown agent bay reserved s
  | .swap agent bay reserved cycle => Sys2Proof.Machine.execSwap agent bay reserved cycle s
  | .load agent bay reserved cycle => Sys2Proof.Machine.execLoad agent bay reserved cycle s
  | .save agent bay reserved cycle => Sys2Proof.Machine.execSave agent bay reserved cycle s
  | .saveComplete bay cycle eccs => Sys2Proof.Machine.execSaveComplete bay cycle s eccs
  | .restore agent bay reserved read => Sys2Proof.Machine.execRestore agent bay reserved s read
  | .clear agent bay reserved => Sys2Proof.Machine.execClear agent bay reserved s
  | .shadowLoadError brick unit => Sys2Proof.Machine.execShadowLoadError brick unit s
  | .loadedReport brick cycle corrected => Sys2Proof.Machine.execLoadedReport brick cycle s corrected
  | .brickQuiet brick => Sys2Proof.Machine.execBrickQuiet brick s
  | .quietReport brick cycle => Sys2Proof.Machine.execQuietReport brick cycle s
  | .swapPacket brick => Sys2Proof.Machine.execSwapPacket brick s
  | .swapSequence bay => Sys2Proof.Machine.execSwapSequence bay s
  | .swappedReport brick cycle => Sys2Proof.Machine.execSwappedReport brick cycle s
  | .swapWaitTimeout bay cycle => Sys2Proof.Machine.execSwapWaitTimeout bay cycle s
  | .validate agent reserved => Sys2Proof.Machine.execValidate agent reserved s
  | .validateComplete read => Sys2Proof.Machine.execValidateComplete s read
  | .endWord brick prog => Sys2Proof.Machine.execEndWord brick prog s
  | .baseWord brick prog => Sys2Proof.Machine.execBaseWord brick prog s
  | .loopWord brick prog => Sys2Proof.Machine.execLoopWord brick prog s
  | .moveWord brick prog ecc => Sys2Proof.Machine.execMoveWord brick prog ecc s
  | .fenceWord brick prog => Sys2Proof.Machine.execFenceWord brick prog s
  | .waitWord brick prog ecc => Sys2Proof.Machine.execWaitWord brick prog ecc s
  | .postWord brick prog => Sys2Proof.Machine.execPostWord brick prog s
  | .jumpWord brick prog => Sys2Proof.Machine.execJumpWord brick prog s
  | .arrayPass brick => Sys2Proof.Machine.execArrayPass brick s
  | .accumWord brick => Sys2Proof.Machine.execAccumWord brick s
  | .bankDrain brick => Sys2Proof.Machine.execBankDrain brick s
  | .bankClear brick => Sys2Proof.Machine.execBankClear brick s
  | .primaryTile brick => Sys2Proof.Machine.execPrimaryTile brick s
  | .addOp brick k => Sys2Proof.Machine.execAddOp brick k s
  | .mulOp brick k => Sys2Proof.Machine.execMulOp brick k s
  | .maxOp brick k => Sys2Proof.Machine.execMaxOp brick k s
  | .minOp brick k => Sys2Proof.Machine.execMinOp brick k s
  | .absOp brick k => Sys2Proof.Machine.execAbsOp brick k s
  | .negOp brick k => Sys2Proof.Machine.execNegOp brick k s
  | .recipOp brick k => Sys2Proof.Machine.execRecipOp brick k s
  | .sqrtOp brick k => Sys2Proof.Machine.execSqrtOp brick k s
  | .rsqrtOp brick k => Sys2Proof.Machine.execRsqrtOp brick k s
  | .expOp brick k => Sys2Proof.Machine.execExpOp brick k s
  | .logOp brick k => Sys2Proof.Machine.execLogOp brick k s
  | .cosOp brick k => Sys2Proof.Machine.execCosOp brick k s
  | .tanhOp brick k => Sys2Proof.Machine.execTanhOp brick k s
  | .sigmoidOp brick k => Sys2Proof.Machine.execSigmoidOp brick k s
  | .geluOp brick k => Sys2Proof.Machine.execGeluOp brick k s
  | .siluOp brick k => Sys2Proof.Machine.execSiluOp brick k s
  | .randOp brick k => Sys2Proof.Machine.execRandOp brick k s
  | .subrOp brick k => Sys2Proof.Machine.execSubrOp brick k s
  | .scalebOp brick k => Sys2Proof.Machine.execScalebOp brick k s
  | .copysignOp brick k => Sys2Proof.Machine.execCopysignOp brick k s
  | .rowstatOp brick k => Sys2Proof.Machine.execRowstatOp brick k s
  | .amaxOp brick k => Sys2Proof.Machine.execAmaxOp brick k s
  | .shareOp brick k => Sys2Proof.Machine.execShareOp brick k s
  | .cvtOp brick k => Sys2Proof.Machine.execCvtOp brick k s
  | .flagsOp brick k => Sys2Proof.Machine.execFlagsOp brick k s
  | .sortOp brick k ecc => Sys2Proof.Machine.execSortOp brick k s ecc
  | .amaxPacket brick => Sys2Proof.Machine.execAmaxPacket brick s
  | .amaxReturn brick => Sys2Proof.Machine.execAmaxReturn brick s
  | .bayEpochWrite agent bay high value => Sys2Proof.Machine.execBayEpochWrite agent bay high value s
  | .lineFlit link cands => Sys2Proof.Machine.execLineFlit link cands s
  | .creditReturn link vc => Sys2Proof.Machine.execCreditReturn link vc s
  | .gritData p => Sys2Proof.Machine.execGritData p s
  | .gritPost p => Sys2Proof.Machine.execGritPost p s
  | .handleJoin brick stream => Sys2Proof.Machine.execHandleJoin brick stream s
  | .gritRelease p => Sys2Proof.Machine.execGritRelease p s
  | .swapModeExchange brick stream => Sys2Proof.Machine.execSwapModeExchange brick stream s
  | .progressPacket channel tiles => Sys2Proof.Machine.execProgressPacket channel tiles s
  | .relayBuffer brick ecc => Sys2Proof.Machine.execRelayBuffer brick ecc s
  | .openIn agent channel reserved => Sys2Proof.Machine.execOpenIn agent channel reserved s
  | .openOut agent channel reserved => Sys2Proof.Machine.execOpenOut agent channel reserved s
  | .closeChannel agent channel reserved => Sys2Proof.Machine.execCloseChannel agent channel reserved s
  | .splice agent channel reserved device peerChannel resume => Sys2Proof.Machine.execSplice agent channel reserved device peerChannel resume s
  | .relayEgressSend channel read => Sys2Proof.Machine.execRelayEgressSend channel read s
  | .relayGrant channel source sourceChannel xfer tokens next => Sys2Proof.Machine.execRelayGrant channel source sourceChannel xfer tokens next s
  | .relayToken channel source sourceChannel xfer tokens => Sys2Proof.Machine.execRelayToken channel source sourceChannel xfer tokens s
  | .relayTile channel source sourceChannel xfer index tile => Sys2Proof.Machine.execRelayTile channel source sourceChannel xfer index tile s
  | .relayError channel source code index => Sys2Proof.Machine.execRelayError channel source code index s
  | .laggardTimeout channel => Sys2Proof.Machine.execLaggardTimeout channel s
  | .create agent reserved => Sys2Proof.Machine.execCreate agent reserved s
  | .promote agent reserved => Sys2Proof.Machine.execPromote agent reserved s
  | .evict agent reserved => Sys2Proof.Machine.execEvict agent reserved s
  | .migrate agent reserved => Sys2Proof.Machine.execMigrate agent reserved s
  | .pin agent reserved => Sys2Proof.Machine.execPin agent reserved s
  | .unpin agent reserved => Sys2Proof.Machine.execUnpin agent reserved s
  | .delete agent reserved => Sys2Proof.Machine.execDelete agent reserved s
  | .markLost agent reserved => Sys2Proof.Machine.execMarkLost agent reserved s
  | .query agent reserved => Sys2Proof.Machine.execQuery agent reserved s
  | .movementStart seq => Sys2Proof.Machine.execMovementStart seq s
  | .movementTile seq first second => Sys2Proof.Machine.execMovementTile seq first second s
  | .tierDoneAck agent value => Sys2Proof.Machine.execTierDoneAck agent value s
  | .patrolScrub brick unit found => Sys2Proof.Machine.execPatrolScrub brick unit found s
  | .ddrTrainingDone results => Sys2Proof.Machine.execDdrTrainingDone results s
  | .dqsOscillatorRead unit overLimit => Sys2Proof.Machine.execDqsOscillatorRead unit overLimit s
  | .ddrRetrainDone unit ok => Sys2Proof.Machine.execDdrRetrainDone unit ok s
  | .moduleTempRead unit quarterDegrees => Sys2Proof.Machine.execModuleTempRead unit quarterDegrees s
  | .ddrAlert unit writeCrc alerts => Sys2Proof.Machine.execDdrAlert unit writeCrc alerts s
  | .i3cTransfer unit failures => Sys2Proof.Machine.execI3cTransfer unit failures s
  | .pmicInterrupt unit fault => Sys2Proof.Machine.execPmicInterrupt unit fault s
  | .cxlBringup unit facts => Sys2Proof.Machine.execCxlBringup unit facts s
  | .memoryActiveTimeout unit => Sys2Proof.Machine.execMemoryActiveTimeout unit s
  | .cxlReadTimeout unit seq => Sys2Proof.Machine.execCxlReadTimeout unit seq s
  | .cxlWriteTimeout unit seq => Sys2Proof.Machine.execCxlWriteTimeout unit seq s
  | .cxlResponse unit kind seq => Sys2Proof.Machine.execCxlResponse unit kind seq s
  | .cxlRecoveryEntry unit => Sys2Proof.Machine.execCxlRecoveryEntry unit s
  | .cxlLinkDownTimeout unit => Sys2Proof.Machine.execCxlLinkDownTimeout unit s
  | .cxlFatalError unit => Sys2Proof.Machine.execCxlFatalError unit s
  | .attend brick ecc => Sys2Proof.Machine.execAttend brick ecc s
  | .backward brick ecc => Sys2Proof.Machine.execBackward brick ecc s
  | .merge brick cycles ecc => Sys2Proof.Machine.execMerge brick cycles s ecc
  | .mergeCombine brick => Sys2Proof.Machine.execMergeCombine brick s
  | .adamw brick => Sys2Proof.Machine.execAdamw brick s
  | .momentum brick => Sys2Proof.Machine.execMomentum brick s
  | .stepRerun => Sys2Proof.Machine.execStepRerun s
  | .ckptWrite objects read => Sys2Proof.Machine.execCkptWrite objects s read
  | .ckptData source offset sectors => Sys2Proof.Machine.execCkptData source offset sectors s
  | .ckptAck source stepLow => Sys2Proof.Machine.execCkptAck source stepLow s
  | .ckptTimeout => Sys2Proof.Machine.execCkptTimeout s
  | .ownPartDone verdict => Sys2Proof.Machine.execOwnPartDone verdict s
  | .voteReport source phase turn verdict step => Sys2Proof.Machine.execVoteReport source phase turn verdict step s
  | .phaseLimitExpiry => Sys2Proof.Machine.execPhaseLimitExpiry s
  | .voteAnnounce kind turn phase tick smin => Sys2Proof.Machine.execVoteAnnounce kind turn phase tick smin s
  | .wslotWrite agent bay value => Sys2Proof.Machine.execWslotWrite agent bay value s
  | .ethernetFrame port frame bufferFull => Sys2Proof.Machine.execEthernetFrame port frame bufferFull s
  | .neighborSolicitation port source target sourceMac => Sys2Proof.Machine.execNeighborSolicitation port source target sourceMac s
  | .hello port addr udp frame => Sys2Proof.Machine.execHello port addr udp frame s
  | .record port addr udp frame => Sys2Proof.Machine.execRecord port addr udp frame s
  | .confirm port session => Sys2Proof.Machine.execConfirm port session s
  | .submit port session => Sys2Proof.Machine.execSubmit port session s
  | .cancelReq port session => Sys2Proof.Machine.execCancelReq port session s
  | .resend port session => Sys2Proof.Machine.execResend port session s
  | .ackReq port session => Sys2Proof.Machine.execAckReq port session s
  | .reportReq port session => Sys2Proof.Machine.execReportReq port session s
  | .closeRecord port session => Sys2Proof.Machine.execCloseRecord port session s
  | .confirmTimeout port session => Sys2Proof.Machine.execConfirmTimeout port session s
  | .sessionIdleTimeout port session => Sys2Proof.Machine.execSessionIdleTimeout port session s
  | .outputRetainTimeout port session request => Sys2Proof.Machine.execOutputRetainTimeout port session request s
  | .servingStepBoundary bay batchRoom tokenRoom rooms results => Sys2Proof.Machine.execServingStepBoundary bay batchRoom tokenRoom rooms results s
  | .linkTraining port lanes => Sys2Proof.Machine.execLinkTraining port lanes s
  | .linkTrainingRetry port => Sys2Proof.Machine.execLinkTrainingRetry port s
  | .flitCrcFail port => Sys2Proof.Machine.execFlitCrcFail port s
  | .linkRetrainDone port lanes => Sys2Proof.Machine.execLinkRetrainDone port lanes s
  | .dataFlit port flit corrected => Sys2Proof.Machine.execDataFlit port flit corrected s
  | .ctrlFlit port flit => Sys2Proof.Machine.execCtrlFlit port flit s
  | .nak port flit => Sys2Proof.Machine.execNak port flit s
  | .beacon port flit localSub => Sys2Proof.Machine.execBeacon port flit localSub s
  | .beaconSend sub => Sys2Proof.Machine.execBeaconSend sub s
  | .delayReq port flit arriveSub sendSub => Sys2Proof.Machine.execDelayReq port flit arriveSub sendSub s
  | .delayReqSend port sub => Sys2Proof.Machine.execDelayReqSend port sub s
  | .delayResp port flit arriveSub => Sys2Proof.Machine.execDelayResp port flit arriveSub s
  | .linkHello port body => Sys2Proof.Machine.execLinkHello port body s
  | .rekey port => Sys2Proof.Machine.execRekey port s
  | .portDownTimeout port => Sys2Proof.Machine.execPortDownTimeout port s
  | .suspect source device => Sys2Proof.Machine.execSuspect source device s
  | .substitute failed spare => Sys2Proof.Machine.execSubstitute failed spare s
  | .mortarMessage source kind body => Sys2Proof.Machine.execMortarMessage source kind body s
  | .remapAnnounce failed host placement tick => Sys2Proof.Machine.execRemapAnnounce failed host placement tick s
  | .remapReady host => Sys2Proof.Machine.execRemapReady host s
  | .stateFetch source job slot => Sys2Proof.Machine.execStateFetch source job slot s
  | .remapTableFetch removed hosts => Sys2Proof.Machine.execRemapTableFetch removed hosts s
  | .journalAdopt baseSeq baseHead entries secondSeq secondHead => Sys2Proof.Machine.execJournalAdopt baseSeq baseHead entries secondSeq secondHead s
  | .reportComplete => Sys2Proof.Machine.execReportComplete s
  | .openImage agent keystone reserved => Sys2Proof.Machine.execOpenImage agent keystone reserved s
  | .acceptImage agent keystone reserved => Sys2Proof.Machine.execAcceptImage agent keystone reserved s
  | .checkImage agent keystone reserved => Sys2Proof.Machine.execCheckImage agent keystone reserved s
  | .wopenComplete read => Sys2Proof.Machine.execWopenComplete read s
  | .entropyHealthFail keystone => Sys2Proof.Machine.execEntropyHealthFail keystone s
  | .entropyRetestDone keystone pass => Sys2Proof.Machine.execEntropyRetestDone keystone pass s
  | .tapInstruction ir => Sys2Proof.Machine.execTapInstruction ir s
  | .resetRelease facts => Sys2Proof.Machine.execResetRelease facts s
  | .firmwareVerifyDone readable mib => Sys2Proof.Machine.execFirmwareVerifyDone readable mib s
  | .selfTestDone facts => Sys2Proof.Machine.execSelfTestDone facts s
  | .footingVerifyDone => Sys2Proof.Machine.execFootingVerifyDone s
  | .scrubDone => Sys2Proof.Machine.execScrubDone s
  | .ready => Sys2Proof.Machine.execReady s
  | .mgmtConnection facts => Sys2Proof.Machine.execMgmtConnection facts s
  | .mgmtIdleTimeout conn => Sys2Proof.Machine.execMgmtIdleTimeout conn s
  | .status m => Sys2Proof.Machine.execStatus m s
  | .readReg m => Sys2Proof.Machine.execReadReg m s
  | .readStats m => Sys2Proof.Machine.execReadStats m s
  | .report m => Sys2Proof.Machine.execReport m s
  | .readJournal m => Sys2Proof.Machine.execReadJournal m s
  | .readObject m => Sys2Proof.Machine.execReadObject m s
  | .alarms m => Sys2Proof.Machine.execAlarms m s
  | .setField m => Sys2Proof.Machine.execSetField m s
  | .bayCmd m => Sys2Proof.Machine.execBayCmd m s
  | .tierCmd m => Sys2Proof.Machine.execTierCmd m s
  | .replaceWeights m => Sys2Proof.Machine.execReplaceWeights m s
  | .cancelChange m => Sys2Proof.Machine.execCancelChange m s
  | .job m => Sys2Proof.Machine.execJob m s
  | .erase m => Sys2Proof.Machine.execErase m s
  | .write m => Sys2Proof.Machine.execWrite m s
  | .verify m => Sys2Proof.Machine.execVerify m s
  | .reset m => Sys2Proof.Machine.execReset m s
  | .substituteCommand m => Sys2Proof.Machine.execSubstituteCommand m s
  | .fetchData port datagram => Sys2Proof.Machine.execFetchData port datagram s
  | .fetchError port datagram => Sys2Proof.Machine.execFetchError port datagram s
  | .fetchGetTimeout offset => Sys2Proof.Machine.execFetchGetTimeout offset s
  | .watchdogKick agent value => Sys2Proof.Machine.execWatchdogKick agent value s
  | .watchdogExpiry core => Sys2Proof.Machine.execWatchdogExpiry core s
  | .auditResult => Sys2Proof.Machine.execAuditResult s
  | .pwrOkFall => Sys2Proof.Machine.execPwrOkFall s
  | .resetInNAssert => Sys2Proof.Machine.execResetInNAssert s
  | .powerWindow facts => Sys2Proof.Machine.execPowerWindow facts s
  | .pwrCapChange low => Sys2Proof.Machine.execPwrCapChange low s
  | .pmbAlert overCurrent failures => Sys2Proof.Machine.execPmbAlert overCurrent failures s
  | .thermalTrip => Sys2Proof.Machine.execThermalTrip s
  | .entropyStartupTestsDone passN passS => Sys2Proof.Machine.execEntropyStartupTestsDone passN passS s
  | .writeFootingDone => Sys2Proof.Machine.execWriteFootingDone s
  | .portSignalLoss port => Sys2Proof.Machine.execPortSignalLoss port s
  | .cxlLinkDown unit => Sys2Proof.Machine.execCxlLinkDown unit s
  | .cxlRecoveryExit unit => Sys2Proof.Machine.execCxlRecoveryExit unit s
  | .servicePortLinkChange port up => Sys2Proof.Machine.execServicePortLinkChange port up s
  | .neighborAdvertisement port source target mac => Sys2Proof.Machine.execNeighborAdvertisement port source target mac s

end Sys2Proof.Machine
end

