-- ==== Sys2Proof/Safety.lean ====
section
/-!
DEFINITION. What counts as a safe state, in the terms the statements use: the canonical form of the byte memories,
the bounds the spec sets on the tables and gates of the block, and the frame of the device's own state.
-/
namespace Sys2Proof.Machine

/-- The command is answered with a next state, of which P holds. -/
def Completes (c : Instr) (s : State) (P : State → Prop) : Prop := ∃ t, exec c s = .next t ∧ P t

/-- A brick of a bay that runs its ACTIVE bond, on a site in service: its programs, array and lanes work. -/
def State.Running (s : State) (b n : Nat) : Prop :=
  s.awake = true ∧ s.bayOf n = some b ∧ (s.bay b).state = .running ∧ s.vacant n = false

/-- The word program p of a brick stands at. -/
def Brick.wordAt (k : Brick) (p : Nat) : DWord := progWord k.conf p (k.gen p).word

/-- Program p of a running brick stands at a word of an opcode. -/
def State.AtWord (s : State) (b n p op : Nat) : Prop :=
  s.Running b n ∧ p < 4 ∧ ((s.brick n).gen p).word < 64 ∧ progOp ((s.brick n).wordAt p) = op
    ∧ (((s.brick n).gen p).state = .running ∨ ((s.brick n).gen p).state = .waiting)

/-- The lanes of a running brick hold a tile, and word k of the chain, of an op code, is the next one. -/
def State.LaneAt (s : State) (b n k op : Nat) (rest : List Nat) : Prop :=
  s.Running b n ∧ (s.brick n).laneWords = some (k :: rest) ∧ epiOp (epi (s.brick n).conf k) = op

/-- The oldest fence-class packet of a kind from a brick (to one, where the flag is set) is the packet p, and it can be the
next to arrive at its endpoint (R70, R214). -/
def State.Arriving (s : State) (kind n : Nat) (toBrick : Bool) (p : GritPacket) : Prop :=
  (s.net.grit.find? fun m => m.p.kind == kind && (if toBrick then m.p.dest else m.p.source) == n).map (·.p) = some p
    ∧ s.gritDue p = true

/-- The connection of a management command has sent it: the connection is not idle, and the command is counted (R459). -/
def State.noted (s : State) (m : Cirid) : State :=
  State.count { s with mgmt := { s.mgmt with conns := s.mgmt.conns.map fun x =>
    if x.id = m.conn then { x with lastTick := s.tb.up } else x } } mgmtCmds 1

/-- A management command of an op is served at once: it comes on an open connection of a key slot, carries no reserved op,
and neither the fatal state, recovery, nor an earlier command holds it up (R461, R464, R474). -/
def State.Serves (s : State) (op slot : Nat) (m : Cirid) : Prop :=
  s.powered = true ∧ s.rel.fatal = false ∧ s.boot.mgmtOpen = true ∧ s.boot.stage ≠ .recovery ∧ opOf op m = op
    ∧ (∃ c, s.mgmt.conns.find? (fun c => c.id == m.conn) = some c ∧ c.slot = slot) ∧ m.body.length ≤ 1048576
    ∧ (∀ x ∈ s.mgmt.waiting, x.2.conn ≠ m.conn) ∧ s.mustWait op m = false

/-- A header with nothing in the fields that hold nothing in a command (R460). -/
def plainHeader (m : Cirid) : Prop := m.flags = 0 ∧ m.code = 0 ∧ m.reserved = 0

/-- A state answers a management command with a code and a body, and says nothing else. -/
def State.Answers (s t : State) (op : Nat) (m : Cirid) (c : Code) (body : Bytes) : Prop :=
  t.out = s.out ++ [.cirid m.conn (State.ciridMsg op 1 m.tag c body)]

/-- The body of an error: the offset of the field, the journal's sequence number, zeros (R461). -/
def errorBody (offset seq : Nat) : Bytes := leBytes 4 offset ++ leBytes 8 seq ++ zeros 4

/-- The boot flash and the stored sectors are in canonical form. -/
def State.memoryCanonical (s : State) : Prop := Memory.wf 0xFF s.flash ∧ Memory.wf 0 s.sectors

/-- The schedule table holds at most 256 entries (R49). -/
def State.scheduleBounded (s : State) : Prop := s.tb.sched.length ≤ 256

/-- At most four management connections are open (R459). -/
def State.connectionsBounded (s : State) : Prop := s.mgmt.conns.length ≤ 4

/-- The power and thermal gates lie within 0 to 56 cycles (R501, R505). -/
def State.gatesBounded (s : State) : Prop := s.power.gp ≤ 56 ∧ ∀ g ∈ s.power.gt, g ≤ 56

/-- What every command keeps. -/
def State.Inv (s : State) : Prop :=
  s.memoryCanonical ∧ s.scheduleBounded ∧ s.connectionsBounded ∧ s.gatesBounded

end Sys2Proof.Machine
end

