-- ==== Sys2Proof/Certificates/Slice0/Obligations.lean ====
section
/-!
DEFINITION. The statements for the provers: what the rules of the spec say each command does, family by family; what reset
leaves; and the invariant every step keeps. `Completes c s P` says that the command c answers a next state at s, of which
P holds.
-/
open Sys2Proof Sys2Proof.Machine

/-! ### The queue, reset and what every command keeps -/

/-- A step with a command at the front of the queue is that command's effect on the state with the queue's rest; on an
empty queue the block idles, which is the model's choice (log entry 3). -/
def Obligations.StepTakesTheFrontCommand : Prop :=
  (∀ (s : State) (c : Instr) (rest : List Instr), step { s with pending := c :: rest } = exec c { s with pending := rest })
  ∧ (∀ s : State, s.pending = [] → step s = .next s)

/-- Reset leaves the schedule table empty (R52), the time base UNSET with no census matched, the turn machine IDLE,
every bay EMPTY, every brick and relay channel at rest, and no statistics counted. -/
def Obligations.ResetLeavesTheBlockAtRest : Prop :=
  State.reset.tb.sched = [] ∧ State.reset.tb.state = .unset ∧ State.reset.tb.tick = 0 ∧ State.reset.tb.steer = 0
  ∧ State.reset.census.matched = false ∧ State.reset.census.skew = false
  ∧ State.reset.turn.phase = 0 ∧ State.reset.turn.turn = 0
  ∧ (∀ b, (State.reset.bay b).state = .empty)
  ∧ (∀ c, (State.reset.relay c).state = 0)
  ∧ (∀ a, State.reset.stat a = 0)
  ∧ State.reset.inReset = true ∧ State.reset.rel.fatal = false ∧ State.reset.out = [] ∧ State.reset.pending = []

/-- The invariant of StepKeepsInvariant holds after reset. -/
def Obligations.ResetMeetsInvariant : Prop :=
  State.Inv State.reset

/-- Every step keeps the invariant: the boot flash and the stored sectors stay in canonical form, the schedule table
holds at most 256 entries (R49), at most four management connections are open (R459), and every power and thermal gate
lies between 0 and 56 cycles (R501, R505). -/
def Obligations.StepKeepsInvariant : Prop :=
  ∀ s t : State, State.Inv s → step s = .next t → State.Inv t

/-- Every command is answered with a next state, and none changes the queue: a step takes the front command and
nothing else. -/
def Obligations.EveryCommandKeepsTheQueue : Prop :=
  ∀ (c : Instr) (s : State), ∃ t, exec c s = .next t ∧ t.pending = s.pending

/-- A device held in reset (R496) changes only by the release of reset, its input pins and the TAP. In the fatal state
(R474) the block answers only reset and its pins, the TAP, the tick and what falls on it, the power loop and the
management port. Every other command leaves it as it is, so counters, bays, networks, memories and ports stand still.
-/
def Obligations.ResetAndFatalStateStopTheBlock : Prop :=
  (∀ (c : Instr) (s : State), s.inReset = true →
      (match c with
        | .resetRelease _ | .pwrOkFall | .resetInNAssert | .pwrCapChange _ | .thermalTrip | .tapInstruction _ => False
        | _ => True) →
      exec c s = .next s)
  ∧ (∀ (c : Instr) (s : State), s.rel.fatal = true →
      (match c with
        | .resetRelease _ | .pwrOkFall | .resetInNAssert | .pwrCapChange _ | .thermalTrip | .tapInstruction _
        | .tickStart | .scheduleEntryFire | .powerWindow _ | .pmbAlert _ _ | .mgmtConnection _ | .mgmtIdleTimeout _
        | .bayPlan (.mgmt _) | .status _ | .readReg _ | .readStats _ | .report _ | .readJournal _ | .readObject _ | .alarms _
        | .setField _ | .bayCmd _ | .tierCmd _ | .replaceWeights _ | .cancelChange _ | .job _ | .erase _ | .write _
        | .verify _ | .reset _ | .substituteCommand _ | .writeFootingDone => False
        | _ => True) →
      exec c s = .next s)

/-! ### The time base, scheduled events and the census (02_course_clock.md) -/

/-- TICK_START (R42): the fraction takes the steer value, the tick's length is 2,047, 2,048 or 2,049 cycles by the
rule, the steer value lies within ±2^31, and nothing else changes but the counters that count ticks, and the objects a
void turn left to delete (R359). In the fatal state the counters stand still (R474). -/
def Obligations.TickStartSteersTheTick : Prop :=
  ∀ s : State, s.powered = true → Completes .tickStart s fun t =>
    t.tb = { s.tb with
      tick := s.tb.tick + 1
      up := s.tb.up + 1
      cycle := s.tb.cycle + s.tb.len
      len := if 2 ^ 32 ≤ s.tb.frac + s.tb.steer.toInt then 2049
        else if s.tb.frac + s.tb.steer.toInt ≤ -(2 ^ 32) then 2047 else 2048
      frac := if 2 ^ 32 ≤ s.tb.frac + s.tb.steer.toInt then s.tb.frac + s.tb.steer.toInt - 2 ^ 32
        else if s.tb.frac + s.tb.steer.toInt ≤ -(2 ^ 32) then s.tb.frac + s.tb.steer.toInt + 2 ^ 32
        else s.tb.frac + s.tb.steer.toInt }
    ∧ -(2 ^ 31) ≤ s.tb.steer.toInt ∧ s.tb.steer.toInt ≤ 2 ^ 31
    ∧ t = { s with tb := t.tb, relays := t.relays, live := t.live, objs := t.objs, bays := t.bays, turn := t.turn }
    ∧ (s.turn.doomed = [] → t = { s with tb := t.tb, relays := t.relays, live := t.live })
    ∧ (s.rel.fatal = true → t = { s with tb := t.tb })

/-- TOD_MESSAGE and PPS_EDGE (R39): a valid message names the next edge's second; a bad one is discarded and counted;
an edge outside the window of a loaded count is counted and ignored; an edge without a kept message changes nothing;
an edge with one is the measurement that loads the tick number in UNSET. -/
def Obligations.PulseAndTimeOfDay : Prop :=
  ∀ s : State, s.awake = true → s.footing.timeSource = 0 → s.footing.present = true →
    (∀ bytes us, Completes (.todMessage bytes us) s fun t =>
      (State.todOk bytes us = true → t = { s with tb := { s.tb with tod := some (fieldLE bytes 2 6) } })
      ∧ (State.todOk bytes us = false →
        t = { s with tb := { s.tb with tod := none }, live := t.live }
        ∧ (t.stat tbRefFault).toNat = min ((s.stat tbRefFault).toNat + 1) 0xFFFFFFFF))
    ∧ (∀ ns, Completes (.ppsEdge ns) s fun t =>
      let here : Int := ↑(s.tb.tick * 1024 + ns)
      let near : Int := (here + 500000000) % 1000000000 - 500000000
      (s.tb.loaded = true → 2000 < near.natAbs →
        t = { s with live := t.live } ∧ (t.stat tbRefFault).toNat = min ((s.stat tbRefFault).toNat + 1) 0xFFFFFFFF)
      ∧ ((s.tb.loaded = false ∨ near.natAbs ≤ 2000) → s.tb.tod = none → t = s)
      ∧ (∀ sec, s.tb.loaded = false → s.tb.state = .unset → s.tb.tod = some sec →
        t.tb.tick = sec * 1000000000 / 1024 ∧ t.tb.state = .acquiring ∧ t.tb.loaded = true ∧ t.tb.good = 0
        ∧ t.tb.tod = none ∧ t = { s with tb := t.tb, freeCtr := t.freeCtr }))

/-- PTP_MESSAGE (R40, R44, R45): an Announce is noted; a malformed message, or one outside the profile, is counted, and
one of another domain or transport, or of the peer-delay mechanism, or from a source that is not the best, discarded; a
Follow_Up completes the Sync of its source and number, and a Delay_Resp its Delay_Req, which measures the path. A whole
Sync of the best source is a measurement, answered by a Delay_Req: what its offset does in each state of the time base. -/
def Obligations.MeasurementMovesTheTimeBase : Prop :=
  ∀ (s : State) (m : PtpMsg), s.awake = true → s.footing.timeSource = 1 → s.footing.present = true →
    (m.wellFormed = false ∨ m.inProfile = false → Completes (.ptpMessage m) s fun t =>
      t = { s with live := t.live } ∧ (t.stat tbRefFault).toNat = min ((s.stat tbRefFault).toNat + 1) 0xFFFFFFFF)
    ∧ (m.wellFormed = true → m.inProfile = true →
      (m.domain ≠ s.footing.ptpDomain ∨ m.overEthernet ≠ s.footing.ptpEthernet ∨ m.body = .peerDelay) →
      exec (.ptpMessage m) s = .next s)
    ∧ (∀ two o c, m.wellFormed = true → m.inProfile = true → m.body = .sync two o c → s.bestSource ≠ some m.source →
      exec (.ptpMessage m) s = .next s)
    ∧ (m.wellFormed = true → m.inProfile = true → m.domain = s.footing.ptpDomain → m.overEthernet = s.footing.ptpEthernet →
      (∀ k, m.body = .announce k → exec (.ptpMessage m) s = .next
        { s with tb := { s.tb with ptp := { s.tb.ptp with clocks := aput none s.tb.ptp.clocks m.source (some k) } } })
      ∧ (∀ o c, m.body = .sync true o c → s.bestSource = some m.source → exec (.ptpMessage m) s = .next
        { s with tb := { s.tb with ptp := { s.tb.ptp with
            sync := some (m.source, m.seq, ↑(s.tb.tick * 1024 + m.arriveNs) - c) } } })
      ∧ (∀ r c t1 t2 t3, m.body = .delayResp r c → s.tb.ptp.request = some (m.source, m.seq, t1, t2, t3) →
        exec (.ptpMessage m) s = .next { s with tb := { s.tb with ptp := { s.tb.ptp with
            request := none, delay := ((t2 - t1) + (r - c - t3)) / 2 } } })
      ∧ (∀ o c arrive, s.bestSource = some m.source →
        (m.body = .sync false o c ∧ arrive = ↑(s.tb.tick * 1024 + m.arriveNs)
          ∨ m.body = .followUp o c ∧ s.tb.ptp.sync = some (m.source, m.seq, arrive)) →
        Completes (.ptpMessage m) s fun t =>
          let tai : Nat := (o + c + s.tb.ptp.delay).toNat
          let off : Int := arrive - ↑tai
          (s.tb.state = .unset → t.tb.state = .acquiring ∧ t.tb.tick = tai / 1024 ∧ t.tb.loaded = true ∧ t.tb.good = 0)
          ∧ (s.tb.state = .acquiring → 1000000 < off.natAbs →
            t.tb.state = .acquiring ∧ t.tb.tick = tai / 1024 ∧ t.tb.good = 0 ∧ t.tb.sched = s.tb.sched
            ∧ (t.stat tbRefFault).toNat = min ((s.stat tbRefFault).toNat + 1) 0xFFFFFFFF)
          ∧ (s.tb.state = .locked → off.natAbs ≤ 1000000 → t.tb.state = .locked ∧ t.tb.tick = s.tb.tick)
          ∧ (s.tb.state = .locked ∨ s.tb.state = .holdover → 1000000 < off.natAbs →
            t.tb.state = .lost ∧ t.tb.tick = s.tb.tick ∧ t.tb.steer = s.tb.steer
            ∧ (t.stat tbRefFault).toNat = min ((s.stat tbRefFault).toNat + 1) 0xFFFFFFFF)
          ∧ (s.tb.state = .acquiring ∨ s.tb.state = .holdover → off.natAbs ≤ 40 →
            (s.tb.good < 15 → t.tb.state = s.tb.state ∧ t.tb.good = s.tb.good + 1) ∧ (15 ≤ s.tb.good → t.tb.state = .locked))
          ∧ (s.tb.state = .acquiring ∨ s.tb.state = .holdover → 40 < off.natAbs → off.natAbs ≤ 1000000 →
            t.tb.state = s.tb.state ∧ t.tb.good = 0)
          ∧ (s.tb.state = .lost → s.tb.stuck = false → off.natAbs ≤ 1000000 →
            t.tb.state = .holdover ∧ t.tb.good = if off.natAbs ≤ 40 then 1 else 0)
          ∧ (s.tb.state = .lost → 1000000 < off.natAbs ∨ s.tb.stuck = true →
            t.tb.state = .lost ∧ t.tb.tick = s.tb.tick ∧ t.tb.stuck = true)
          ∧ t.tb.offset = BitVec.ofInt 32 (max (-(2 ^ 31 - 1)) (min (2 ^ 31 - 1) off))
          ∧ t.out.getLast? = some (.ptpDelayReq m.seq)
          ∧ t.tb.cycle = s.tb.cycle ∧ t.tb.len = s.tb.len ∧ t.tb.frac = s.tb.frac ∧ t.tb.up = s.tb.up
          ∧ t.bricks = s.bricks ∧ t.bays = s.bays ∧ t.objs = s.objs ∧ t.flash = s.flash))

/-- UPSTREAM_TIMEOUT, REFERENCE_LOSS_TIMEOUT and HOLDOVER_LIMIT_EXPIRY (R41, R44, R47): the next listed port, then out
of LOCKED with none left; the loss of a reference that has shown nothing valid for 3 s, or has no port left; and
HOLDOVER's limit, which raises the management alarm of LOST. Before its time each changes nothing. The tick, its length
and the steer value stand. -/
def Obligations.LosingTheReference : Prop :=
  (∀ s : State, s.awake = true → s.footing.timeSource = 2 → s.footing.present = true →
    s.tb.upIndex < s.footing.upstreams.length → s.tb.lastBeacon + 4096 ≤ s.tb.up →
    Completes .upstreamTimeout s fun t =>
      t.tb.upIndex = s.tb.upIndex + 1
      ∧ (s.tb.upIndex + 1 < s.footing.upstreams.length →
        t.tb.upstream = s.footing.upstreams.getD (s.tb.upIndex + 1) 0 ∧ t.tb.state = s.tb.state ∧ t.tb.lastBeacon = s.tb.up
        ∧ t = { s with tb := t.tb, live := t.live }
        ∧ (t.stat tbRefFault).toNat = min ((s.stat tbRefFault).toNat + 1) 0xFFFFFFFF)
      ∧ (s.footing.upstreams.length ≤ s.tb.upIndex + 1 →
        t.tb.state = if s.tb.state = .locked then .holdover else s.tb.state)
      ∧ t.tb.tick = s.tb.tick ∧ t.tb.len = s.tb.len ∧ t.tb.steer = s.tb.steer)
  ∧ (∀ s : State, s.awake = true → s.tb.state = .locked →
    let gone : Prop := if s.footing.timeSource = 2 then s.footing.upstreams.length ≤ s.tb.upIndex
      else 3 * 1953125 ≤ 2 * (s.tb.up - s.tb.lastGood)
    (gone → Completes .referenceLossTimeout s fun t =>
      t.tb = { s.tb with state := .holdover, good := 0, holdSince := s.tb.up } ∧ t.mgmt.alarm = s.mgmt.alarm ||| (1 <<< 1)
      ∧ t = { s with tb := t.tb, mgmt := t.mgmt, out := t.out })
    ∧ (¬ gone → exec .referenceLossTimeout s = .next s))
  ∧ (∀ s : State, s.awake = true → s.tb.state = .holdover →
    (s.footing.holdover * 1953125 ≤ 2 * (s.tb.up - s.tb.holdSince) → Completes .holdoverLimitExpiry s fun t =>
      t.tb = { s.tb with state := .lost, good := 0 } ∧ t.mgmt.alarm = s.mgmt.alarm ||| (1 <<< 1)
      ∧ (∃ e ∈ t.mgmt.log, e.code = eTimeLost ∧ e.tick = s.tb.tick)
      ∧ t = { s with tb := t.tb, mgmt := t.mgmt, out := t.out })
    ∧ (2 * (s.tb.up - s.tb.holdSince) < s.footing.holdover * 1953125 → exec .holdoverLimitExpiry s = .next s))

/-- SCHEDULE_REQUEST (R49): the conditions of its table in order, the first that holds giving the code; a refused
request installs nothing and is counted, an accepted one is one entry more. -/
def Obligations.ScheduleRequestByTheTable : Prop :=
  ∀ (s : State) (mgmt : Bool) (tick cls : Nat) (arg : Word), s.awake = true → (mgmt = true ∨ s.mortarUp = true) →
    Completes (.scheduleRequest mgmt tick cls arg) s fun t =>
      let code : Code :=
        if 4 ≤ cls ∨ (cls = 1 ∧ 64 ≤ arg.toNat) then eBadField
        else if mgmt = true ∧ s.tb.state = .lost then eTimeLost
        else if mgmt = true ∧ tick < s.tb.tick + 2 ^ s.footing.leadLog2 then eTickPast
        else if mgmt = false ∧ tick < s.tb.tick + 2 then eTickPast
        else if s.tb.tick + 2 ^ 36 < tick then eTickHorizon
        else if 256 ≤ s.tb.sched.length then eSchedFull
        else sOk
      t.out = s.out ++ [.mortar 1 code.toNat]
      ∧ (code = sOk → t = { s with
          tb := { s.tb with sched := s.tb.sched ++ [{ tick := tick, cls := cls, arg := arg }] }
          out := t.out })
      ∧ (code ≠ sOk → t = { s with live := t.live, out := t.out }
        ∧ (t.stat tbSchedReject).toNat = min ((s.stat tbSchedReject).toNat + 1) 0xFFFFFFFF)

/-- CENSUS_TICK at a tick with nothing scheduled (R53, R56, R57): one latch, whose cause is the census alone; in a
device that takes part the digest is captured with no report yet in hand, and a leaf of the tree has reported.
SCHEDULE_ENTRY_FIRE (R50, R53, R462): with one Mortar wake due and no latch, no census and no turn change on the tick,
Mortar is handed the value and the entry is freed; a scheduled RESET that is due takes the device into reset, and with
nothing due nothing changes. -/
def Obligations.ScheduledEventsFire : Prop :=
  (∀ s : State, s.awake = true → s.tb.loaded = true → s.tb.tick % 2 ^ 20 = 0 → s.tb.sched = [] →
      s.tb.lastLatch ≠ some s.tb.tick → s.census.tick ≠ some s.tb.tick →
      (∀ b, b < 64 → (s.bay b).state ≠ .fenced ∧ (s.bay b).loading = none) →
      Completes .censusTick s fun t =>
        t.snap = s.live ∧ t.tb.latchSeq = s.tb.latchSeq + 1 ∧ t.tb.latchTick = s.tb.tick
        ∧ t.tb.latchCensus = true ∧ t.tb.latchTurn = false
        ∧ t.census.tick = some s.tb.tick ∧ t.census.reports = [] ∧ t.census.verdict = false
        ∧ (s.inCensus = true → t.census.part = true ∧ t.census.digest = s.configDigest
          ∧ t.census.sent = (!s.isRoot && s.children.isEmpty))
        ∧ (s.inCensus = false → t.census.part = false ∧ t.out = s.out ∧ t.live = [])
        ∧ t.bricks = s.bricks ∧ t.bays = s.bays ∧ t.objs = s.objs ∧ t.flash = s.flash ∧ t.footing = s.footing)
  ∧ (∀ (s : State) (e : SchedEntry), s.awake = true → s.tb.sched = [e] → e.cls = 3 → e.tick ≤ s.tb.tick →
      (s.tb.loaded = false ∨ s.tb.tick % 2 ^ 20 ≠ 0) → s.turn.next = none → s.system.remapNext = none → s.mgmt.resetAt = none →
      Completes .scheduleEntryFire s fun t =>
        t = { s with tb := { s.tb with sched := [] }, out := s.out ++ [.mortar 0 e.arg.toNat] })
  ∧ (∀ s : State, s.awake = true → s.tb.sched = [] → (s.tb.loaded = false ∨ s.tb.tick % 2 ^ 20 ≠ 0) →
      (s.mgmt.resetAt = none → exec .scheduleEntryFire s = .next s)
      ∧ (∀ r, s.mgmt.resetAt = some r → (s.tb.tick < r → exec .scheduleEntryFire s = .next s)
        ∧ (r ≤ s.tb.tick → Completes .scheduleEntryFire s fun t =>
          t.inReset = true ∧ t.bays = [] ∧ t.objs = [] ∧ t.live = [] ∧ t.flash = s.flash)))

/-- CENSUS_REPORT, CENSUS_CHILD_DEADLINE, CENSUS_ROOT_DECISION, CENSUS_VERDICT and CENSUS_VERDICT_DEADLINE (R58, R59):
a child's first report is kept, the last one sends this device's own report upward, and any other changes nothing; the
deadline sends what is in hand; the root's decision is a match only with every child's report in hand, equal and
matching, none absent or time-lost; the decision and a verdict go down the tree and are taken as they say; and without a
verdict the census is a mismatch with absent set. A mismatch sets skew and raises the management alarm. A child missing
for the first time is counted as absent once (R479). -/
def Obligations.CensusExchange : Prop :=
  (∀ (s : State) (child c : Nat) (digest : Bytes) (flags : Byte),
    s.awake = true → s.census.tick = some c → s.census.verdict = false → s.children.contains child = true →
    (∀ r ∈ s.census.reports, r.child ≠ child) →
    let rs := s.census.reports ++ [{ child := child, equal := digest == s.census.digest, matched := flags.getLsbD 0,
                                     absent := flags.getLsbD 1, timeLost := flags.getLsbD 2 }]
    let kept : State := { s with census := { s.census with reports := rs } }
    Completes (.censusReport child (BitVec.ofNat 32 c) digest flags) s fun t =>
      ((s.isRoot = true ∨ s.census.sent = true ∨ ∃ k ∈ s.children, ∀ r ∈ rs, r.child ≠ k) → t = kept)
      ∧ (s.isRoot = false → s.census.sent = false → (∀ k ∈ s.children, ∃ r ∈ rs, r.child = k) →
        t = { State.sendMsg { kept with census := { kept.census with sent := true } } s.parent
            { typ := 0x10, arg := c % 2 ^ 32 } (slice s.census.digest 0 32 ++ leBytes 1 kept.censusFlags)
            with census := t.census }
          ∧ t.census = { s.census with reports := rs, sent := true, absences := t.census.absences }))
  ∧ (∀ (s : State) (child : Nat) (low : Word) (digest : Bytes) (flags : Byte),
    (s.census.verdict = true ∨ s.census.tick = none ∨ s.children.contains child = false) →
    exec (.censusReport child low digest flags) s = .next s)
  ∧ (∀ (s : State) (c : Nat), s.awake = true → s.isRoot = false → s.census.sent = false → s.census.tick = some c →
    c + 4096 ≤ s.tb.tick → s.children.Nodup → (∀ k ∈ s.children, aget 0 s.census.absences k = 0) →
    Completes .censusChildDeadline s fun t =>
      t = { State.sendMsg { s with census := { s.census with sent := true } } s.parent
            { typ := 0x10, arg := c % 2 ^ 32 } (slice s.census.digest 0 32 ++ leBytes 1 s.censusFlags)
            with census := t.census }
      ∧ t.census = { s.census with sent := true, absences := t.census.absences }
      ∧ (∀ k ∈ s.children, aget 0 t.census.absences k = if ∃ r ∈ s.census.reports, r.child = k then 0 else 1))
  ∧ (∀ (s : State) (c : Nat), s.awake = true → s.isRoot = true → s.census.part = true → s.census.verdict = false →
    s.census.tick = some c → c + 6144 ≤ s.tb.tick → Completes .censusRootDecision s fun t =>
      t.census.verdict = true ∧ t.census.skew = !t.census.matched
      ∧ (t.census.matched = true ↔ (∀ k ∈ s.children, ∃ r ∈ s.census.reports, r.child = k)
        ∧ (∀ r ∈ s.census.reports, r.equal = true ∧ r.matched = true ∧ r.absent = false ∧ r.timeLost = false)
        ∧ s.tb.state ≠ .lost)
      ∧ (t.census.matched = true →
        t = { s.sendAll s.children { typ := 0x11, arg := c % 2 ^ 32 } (leBytes 1 s.censusFlags) with census := t.census })
      ∧ (t.census.matched = false → t.mgmt.alarm.getLsbD 2 = true ∧ t.turn.lastCode = eConfigSkew)
      ∧ (s.children.Nodup → (∀ k ∈ s.children, aget 0 s.census.absences k = 0) →
        t = { s.sendAll s.children { typ := 0x11, arg := c % 2 ^ 32 } (leBytes 1 s.censusFlags)
              with census := t.census, turn := t.turn, mgmt := t.mgmt, out := t.out }))
  ∧ (∀ (s : State) (c : Nat) (flags : Byte), s.awake = true → s.isRoot = false → s.census.verdict = false →
    s.census.tick = some c → Completes (.censusVerdict (BitVec.ofNat 32 c) flags) s fun t =>
      t.census.verdict = true ∧ t.census.matched = flags.getLsbD 0 ∧ t.census.absent = flags.getLsbD 1
      ∧ t.census.timeLost = flags.getLsbD 2 ∧ t.census.skew = !flags.getLsbD 0
      ∧ (flags.getLsbD 0 = false → t.mgmt.alarm.getLsbD 2 = true ∧ t.turn.lastCode = eConfigSkew)
      ∧ (flags.getLsbD 0 = true → t.mgmt = s.mgmt ∧ t.turn = s.turn
        ∧ t = { s.sendAll s.children { typ := 0x11, arg := c % 2 ^ 32 } (leBytes 1 flags.toNat) with census := t.census }))
  ∧ (∀ (s : State) (c : Nat), s.awake = true → s.census.verdict = false → s.census.tick = some c →
    c + 8192 ≤ s.tb.tick → Completes .censusVerdictDeadline s fun t =>
      t.census.matched = false ∧ t.census.absent = true ∧ t.census.skew = true ∧ t.census.verdict = true
      ∧ (t.census.timeLost = true ↔ s.tb.state = .lost ∨ ∃ r ∈ s.census.reports, r.timeLost = true)
      ∧ t.mgmt.alarm.getLsbD 2 = true ∧ t.turn.lastCode = eConfigSkew
      ∧ t = { s with census := t.census, turn := t.turn, mgmt := t.mgmt, out := t.out })

/-! ### Bays (03_brick_fabric.md) -/

/-- ENABLE and SHUT_DOWN (R91, R92): the effects and codes of R91's table in each state. A refused command changes
nothing but last_code; an accepted one touches the bay, and ENABLE the bricks it starts. A nonzero reserved field of
MG_BAY_CTRL refuses every bay command with E_BAD_FIELD (R97); a bay whose plan names a vacant position refuses every one
with E_BRICK_VACANT (R74), but CLEAR, which the model exempts (log entry 110). -/
def Obligations.EnableAndShutDown : Prop :=
  (∀ (s : State) (agent b : Nat), s.coreUp agent = true → b < 64 → s.namesVacant b = false →
      let v := s.bay b
      Completes (.enable agent b 0) s (fun t =>
        (v.shutdown = none → (v.state = .ready ∨ v.state = .stopped) →
          (t.bay b).state = .running ∧ (t.bay b).lastCode = sOk ∧ t = { s with bricks := t.bricks, bays := t.bays })
        ∧ (v.shutdown = none → (v.state = .running ∨ v.state = .draining ∨ v.state = .fenced ∨ (v.state = .saving ∧ v.fenceId ≠ none)) →
          t = s.setBay b { v with lastCode := sOk })
        ∧ (v.shutdown = none → v.state = .swapping →
          t = s.setBay b { v with lastCode := sOk, afterSwap := if v.fenceId.isSome then v.afterSwap else .running })
        ∧ (v.shutdown ≠ none → (v.state = .running ∨ v.state = .draining ∨ v.state = .fenced ∨ v.state = .swapping ∨ v.state = .saving) →
          t = s.setBay b { v with enableHeld := true, lastCode := sPendingEnable })
        ∧ ((v.state = .empty ∨ v.state = .faulted ∨ (v.state = .saving ∧ v.fenceId = none ∧ v.shutdown = none)) →
          t = s.setBay b { v with lastCode := eBayState }))
      ∧ Completes (.shutDown agent b 0) s (fun t =>
        (v.enableHeld = true → t = s.setBay b { v with enableHeld := false, lastCode := sOk })
        ∧ (v.enableHeld = false → v.state = .running →
          t = s.setBay b { v with shutdown := some (v.shutdown.getD sOk), lastCode := sOk })
        ∧ (v.enableHeld = false → v.state = .ready → t = s.setBay b { v with state := .stopped, lastCode := sOk })
        ∧ (v.enableHeld = false → (v.state = .stopped ∨ v.state = .empty) → t = s.setBay b { v with lastCode := sOk })
        ∧ (v.enableHeld = false →
          (v.state = .draining ∨ v.state = .fenced ∨ v.state = .swapping ∨ v.state = .saving ∨ v.state = .faulted) →
          t = s.setBay b { v with lastCode := eBayState })))
  ∧ (∀ (s : State) (agent b reserved cycle : Nat) (read : ObjRead), s.coreUp agent = true → b < 64 →
      (reserved ≠ 0 →
        let t := s.setBay b { s.bay b with lastCode := eBadField }
        exec (.enable agent b reserved) s = .next t ∧ exec (.shutDown agent b reserved) s = .next t
        ∧ exec (.swap agent b reserved cycle) s = .next t ∧ exec (.load agent b reserved cycle) s = .next t
        ∧ exec (.save agent b reserved cycle) s = .next t ∧ exec (.restore agent b reserved read) s = .next t
        ∧ exec (.clear agent b reserved) s = .next t)
      ∧ (s.namesVacant b = true →
        let t := s.setBay b { s.bay b with lastCode := eBrickVacant }
        exec (.enable agent b 0) s = .next t ∧ exec (.shutDown agent b 0) s = .next t
        ∧ exec (.swap agent b 0 cycle) s = .next t ∧ exec (.load agent b 0 cycle) s = .next t
        ∧ exec (.save agent b 0 cycle) s = .next t ∧ exec (.restore agent b 0 read) s = .next t))

/-- SWAP, LOAD, SAVE, RESTORE and CLEAR (R83, R87, R88, R91, R94, R95): the refusals in order, and what an accepted
command leaves pending, begins or clears; a swap that begins names its cycle to every brick by a packet. -/
def Obligations.SwapLoadSaveRestoreClear : Prop :=
  ∀ (s : State) (agent b cycle : Nat) (read : ObjRead), s.coreUp agent = true → b < 64 →
    let v := s.bay b
    let refused (t : State) (c : Code) : Prop := t = s.setBay b { v with lastCode := c }
    (s.namesVacant b = false → Completes (.swap agent b 0 cycle) s (fun t =>
      ((v.state = .faulted ∨ v.state = .swapping) → refused t eBayState)
      ∧ (v.state ≠ .faulted → v.state ≠ .swapping → v.swapAt ≠ none → refused t eSwapPending)
      ∧ ((v.state = .running ∨ v.state = .draining ∨ v.state = .fenced ∨ v.state = .saving) → v.swapAt = none →
        t = s.setBay b { v with swapAt := some s.tb.up, lastCode := sOk })
      ∧ ((v.state = .empty ∨ v.state = .ready ∨ v.state = .stopped) → v.swapAt = none →
        (v.shadowReady = false → t = s.setBay b { v with swapAt := some s.tb.up, lastCode := sOk })
        ∧ (v.shadowReady = true →
          (t.bay b).state = .swapping ∧ (t.bay b).swapCycle = some (cycle + 128) ∧ (t.bay b).swapAt = none
          ∧ (t.bay b).afterSwap = (if v.state = .empty then .ready else v.state)
          ∧ (∀ n ∈ s.bricksOf b, ∃ m ∈ t.net.grit, m.p.kind = 6 ∧ m.p.source = s.anchor b ∧ m.p.dest = n)))))
    ∧ (s.namesVacant b = false → Completes (.load agent b 0 cycle) s (fun t =>
      (v.state = .faulted → refused t eBayState)
      ∧ (v.state ≠ .faulted → v.swapAt ≠ none → refused t eSwapPending)
      ∧ ((v.state = .swapping ∨ v.state = .saving) → v.swapAt = none → refused t ePlaneBusy)
      ∧ (v.state ≠ .faulted → v.state ≠ .swapping → v.state ≠ .saving → v.swapAt = none →
        match s.planLoad b v.arg.toNat with
        | (_, some l) => (t.bay b).loading = some v.arg.toNat ∧ (t.bay b).shadow = some l.info ∧ (t.bay b).loadCycle = cycle
          ∧ (t.bay b).shadowReady = false ∧ (t.bay b).loadedBy = [] ∧ (t.bay b).lastCode = sOk ∧ (t.bay b).active = v.active
        | (c, none) => refused t c)))
    ∧ (s.namesVacant b = false → Completes (.save agent b 0 cycle) s (fun t =>
      (v.saveObj ≠ none → refused t eBayState)
      ∧ (v.saveObj = none → v.state = .running → t = s.setBay b { v with saveObj := some v.arg.toNat, lastCode := sOk })
      ∧ (v.saveObj = none → (v.state = .ready ∨ v.state = .stopped ∨ v.state = .fenced) →
        (s.saveCode b v.arg.toNat ≠ sOk → refused t (s.saveCode b v.arg.toNat))
        ∧ (s.saveCode b v.arg.toNat = sOk →
          (t.bay b).state = .saving ∧ (t.bay b).afterSave = v.state ∧ (t.bay b).saveObj = some v.arg.toNat
          ∧ (∃ o, t.obj v.arg.toNat = some o ∧ o.creating = true ∧ o.residence = .clay ∧ o.charged = b)))
      ∧ (v.saveObj = none → (v.state = .empty ∨ v.state = .draining ∨ v.state = .swapping ∨ v.state = .saving ∨ v.state = .faulted) →
        refused t eBayState)))
    ∧ (s.namesVacant b = false → Completes (.restore agent b 0 read) s (fun t =>
      (s.restoreCode b v.arg.toNat ≠ sOk → refused t (s.restoreCode b v.arg.toNat))
      ∧ (∀ o, s.restoreCode b v.arg.toNat = sOk → s.obj v.arg.toNat = some o →
        ((s.fetchTiles v.arg.toNat o read 0 o.tiles).2.isSome = true →
          (t.bay b).state = .ready ∧ (t.bay b).lastCode = sOk
          ∧ (t.bay b).restoreEpoch = BitVec.ofNat 32 (fieldLE (s.objBytes v.arg.toNat o 0 256) 12 4))
        ∧ ((s.fetchTiles v.arg.toNat o read 0 o.tiles).2 = none → (t.bay b).lastCode = eStepAbort ∧ t.bricks = s.bricks))))
    ∧ Completes (.clear agent b 0) s (fun t =>
      (v.state ≠ .faulted → v.state ≠ .stopped → v.state ≠ .ready → refused t eBayState)
      ∧ ((v.state = .faulted ∨ v.state = .stopped ∨ v.state = .ready) →
        (t.bay b).state = .empty ∧ (t.bay b).active = none ∧ (t.bay b).shadow = none ∧ (t.bay b).shadowReady = false
        ∧ (t.bay b).lastCode = sOk ∧ (∀ n ∈ s.bricksOf b, (t.brick n).plane0 = {} ∧ (t.brick n).plane1 = {})))

/-- LOADED_REPORT, SHADOW_LOAD_ERROR, SWAP_PACKET, SWAPPED_REPORT and QUIET_REPORT (R82, R85, R88, R110): what each
packet, once it arrives, makes of its bay, before the last one and with it; a packet that finds its bay in another state
only leaves the network. SWAP_SEQUENCE, SAVE_COMPLETE and SWAP_WAIT_TIMEOUT (R87, R88, R94): the sequence exchanges the
bonds and planes of the bay once every brick holds its cycle; a save that ends at no fence gives the bay its state back and
its object is whole; a swap whose shadow is late is dropped with E_SWAP_NOT_READY. -/
def Obligations.ReportsAndSequencesOfBays : Prop :=
  (∀ (s : State) (n b cycle corrected : Nat), s.awake = true → s.bayOf n = some b →
      let v := s.bay b
      let sent := (s.corrected memCorr corrected).sendLoaded b n
      Completes (.loadedReport n cycle corrected) s (fun t =>
        ((v.loading = none ∨ v.loadedBy.contains n = true) → t = s)
        ∧ ∀ o, v.loading = some o → v.loadedBy.contains n = false → ∀ p, sent.Arriving 5 n false p →
          ((t.brick n).shadow.state = .loaded)
          ∧ (v.loadedBy.length + 1 < s.brickCount b →
            (t.bay b).loadedBy = v.loadedBy ++ [n] ∧ (t.bay b).shadowReady = v.shadowReady ∧ (t.bay b).state = v.state)
          ∧ (s.brickCount b ≤ v.loadedBy.length + 1 → v.swapAt = none →
            (t.bay b).shadowReady = true ∧ (t.bay b).loading = none ∧ (t.bay b).state = v.state)
          ∧ t = { s with bricks := t.bricks, bays := t.bays, objs := t.objs, live := t.live, net := t.net })
      ∧ (∀ u, u < 65536 → Completes (.shadowLoadError n u) s (fun t =>
        (v.loading = none → t = s)
        ∧ (v.loading ≠ none →
          (t.bay b).loading = none ∧ (t.bay b).shadowReady = false ∧ (t.bay b).shadow = none
          ∧ (t.bay b).lastCode = eLoadAbort ∧ (t.bay b).state = v.state ∧ (t.bay b).active = v.active
          ∧ (t.stat (errCount 2)).toNat = min ((s.stat (errCount 2)).toNat + 1) 0xFFFFFFFF)))
      ∧ Completes (.swapPacket n) s (fun t => ∀ p, s.Arriving 6 n true p →
        (v.state = .swapping → (s.brick n).swapped = false →
          t = (s.tookGrit p).setBrick n { s.brick n with swapCycle := v.swapCycle })
        ∧ ((v.state ≠ .swapping ∨ (s.brick n).swapped = true) → t = s.tookGrit p))
      ∧ Completes (.swappedReport n cycle) s (fun t => ∀ p, s.Arriving 7 n false p →
        ((v.state ≠ .swapping ∨ (s.brick n).swapped = false ∨ v.swappedBy.contains n = true) → t = s.tookGrit p)
        ∧ (v.state = .swapping → (s.brick n).swapped = true → v.swappedBy.contains n = false →
          (v.swappedBy.length + 1 < s.brickCount b →
            t = (s.tookGrit p).setBay b { v with swappedBy := v.swappedBy ++ [n] })
          ∧ (s.brickCount b ≤ v.swappedBy.length + 1 → v.fenceId = none →
            (t.bay b).state = v.afterSwap ∧ (t.bay b).swapCycle = none ∧ (v.afterSwap ≠ .running → t.bricks = s.bricks))))
      ∧ Completes (.quietReport n cycle) s (fun t => ∀ p, s.Arriving 4 n false p →
        ((v.state ≠ .draining ∨ v.quietBy.contains n = true ∨ (s.brick n).quietSent = false) → t = s.tookGrit p)
        ∧ (v.state = .draining → v.quietBy.contains n = false → (s.brick n).quietSent = true →
          v.quietBy.length + 1 < s.brickCount b → t = (s.tookGrit p).setBay b { v with quietBy := v.quietBy ++ [n] })
        ∧ (v.state = .draining → v.quietBy.contains n = false → (s.brick n).quietSent = true →
          s.brickCount b ≤ v.quietBy.length + 1 → State.stepEnds v (v.fenceId.getD 0) = false → v.saveObj = none → v.swapAt = none →
          v.enableHeld = false →
          (t.bay b).fenceTick = s.tb.up ∧ (t.bay b).fenceId = none
          ∧ ((t.bay b).state = if v.shutdown = none then .running else .stopped)
          ∧ (t.stat (bayFenceCount b)).toNat = min ((s.stat (bayFenceCount b)).toNat + 1) 0xFFFFFFFF)))
  ∧ (∀ (s : State) (b cycle : Nat) (eccs : List (Nat × Ecc)), s.awake = true →
      let v := s.bay b
      Completes (.swapSequence b) s (fun t =>
        (v.state = .swapping → v.swapCycle ≠ none → (∀ n ∈ s.bricksOf b, (s.brick n).swapCycle = v.swapCycle) →
          (t.bay b).active = v.shadow ∧ (t.bay b).shadow = v.active ∧ (t.bay b).shadowReady = v.active.isSome
          ∧ (t.bay b).state = .swapping
          ∧ ((s.bricksOf b).Nodup → ∀ n ∈ s.bricksOf b,
            (t.brick n).activePlane = (!(s.brick n).activePlane) ∧ (t.brick n).swapped = true ∧ (t.brick n).clay = (s.brick n).clay))
        ∧ (v.state ≠ .swapping → t = s))
      ∧ Completes (.saveComplete b cycle eccs) s (fun t =>
        (v.state ≠ .saving → t = s)
        ∧ (∀ o, v.state = .saving → v.saveObj = some o → v.fenceId = none → v.shadowReady = false →
          (t.bay b).state = v.afterSave ∧ (t.bay b).saveObj = none
          ∧ (∀ x, s.obj o = some x → ∃ y, t.obj o = some y ∧ y.creating = false ∧ y.size = x.size)))
      ∧ Completes (.swapWaitTimeout b cycle) s (fun t =>
        (v.swapAt = none ∨ v.shadowReady = true → t = s)
        ∧ (∀ a, v.swapAt = some a → v.shadowReady = false → (v.state = .empty ∨ v.state = .ready ∨ v.state = .stopped) →
          (a + v.plan.swapWaitLimit ≤ s.tb.up → t = s.setBay b { v with swapAt := none, lastCode := eSwapNotReady })
          ∧ (s.tb.up < a + v.plan.swapWaitLimit → t = s))
        ∧ (v.state = .fenced → v.swapAt ≠ none → s.tb.up < v.fenceTick + v.plan.swapWaitLimit → t = s)
        ∧ (v.state = .fenced → v.swapAt ≠ none → v.shadowReady = false → v.fenceTick + v.plan.swapWaitLimit ≤ s.tb.up →
          v.saveObj = none → v.shutdown = none →
          (t.bay b).state = .running ∧ (t.bay b).swapAt = none ∧ (t.bay b).lastCode = eSwapNotReady)))

/-- BAY_PLAN from Mortar (R80): an entry outside its ranges is refused with E_BAD_FIELD, a change of bricks or base in
any state but EMPTY and STOPPED with E_BAY_STATE, an overlap with another bay with E_BAY_OVERLAP, each changing
last_code alone; an accepted entry is the bay's plan. SITE_FAILURE (R74, R75, R431): a failed site whose position was
in service puts its bay in FAULTED with E_BRICK_FAULT and the device in degraded operation, and belongs to no bay; a site that serves no
position is only marked. -/
def Obligations.BayPlanAndSiteFailure : Prop :=
  (∀ (s : State) (b : Nat) (p : BayPlan), s.mortarUp = true → b < 64 →
      let v := s.bay b
      let refused (t : State) (c : Code) : Prop := t = s.setBay b { v with lastCode := c }
      Completes (.bayPlan (.mortar b p)) s fun t =>
        (planBad p = true → refused t eBadField)
        ∧ (planBad p = false → (p.rects ≠ v.plan.rects ∨ p.base ≠ v.plan.base) → v.state ≠ .empty → v.state ≠ .stopped →
          refused t eBayState)
        ∧ (planBad p = false → (v.state = .empty ∨ v.state = .stopped) →
          (∃ c, c < 64 ∧ c ≠ b ∧ ∃ x ∈ p.rects, ∃ y ∈ (s.bay c).plan.rects, rectsOverlap x y = true) → refused t eBayOverlap)
        ∧ (s.planCode b p = sOk → (t.bay b).plan = p ∧ (t.bay b).lastCode = sOk ∧ (t.bay b).state = v.state
          ∧ t = { s with bricks := t.bricks, bays := t.bays }))
  ∧ (∀ (s : State) (die row col : Nat), s.awake = true → die < 4 → row < 33 → col < 32 →
      Completes (.siteFailure die row col) s fun t =>
        t.siteFaulty die row col = true
        ∧ (s.rowOfSite die row col = none → t = { s with dies := t.dies })
        ∧ (∀ r b, s.rowOfSite die row col = some r → s.vacant (brickId die r col) = false →
          s.bayOf (brickId die r col) = some b →
          t.bayOf (brickId die r col) = none ∧
          (t.bay b).state = .faulted ∧ (t.bay b).lastCode = eBrickFault ∧ (t.bay b).active = (s.bay b).active
          ∧ t.rel.degraded.getLsbD 0 = true ∧ t.pins.replaceReq = true)
        ∧ t = { s with dies := t.dies, bays := t.bays, objs := t.objs, mgmt := t.mgmt, rel := t.rel, pins := t.pins
                       live := t.live, net := t.net, out := t.out })

/-! ### Programs (04_brick_configuration.md, 09_streams.md) -/

/-- BASE, LOOP, END and JUMP (R119, R206): BASE sets the generator's space and address and goes on to the next word;
LOOP enters its body with its count and the address the body starts at; after the last word of a body the address
takes the stride and the body is run again, or with its last pass the loop ends. A program that holds no buffer stops
at END, and starts again at word 0 with address 0 at JUMP; on program 0 the next WAIT takes a new tag. While an
attention slice's engine works on the record program 0 holds, both wait. Only the brick changes. -/
def Obligations.ControlWords : Prop :=
  (∀ (s : State) (b n p : Nat),
      let k := s.brick n
      let g := k.gen p
      let w := k.wordAt p
      (s.AtWord b n p 1 → exec (.baseWord n p) s = .next (s.setBrick n (k.setGen p (nextWord k.conf p
        { g with addr := baseOffset w, space := if baseSpace w = 1 then .hopper else .column, fromBase := baseSpace w == 0 }))))
      ∧ (s.AtWord b n p 2 → exec (.loopWord n p) s = .next (s.setBrick n (k.setGen p { g with
        word := g.word + 1, state := .running
        stack := { word := g.word, remaining := loopCount w, start := g.addr } :: g.stack }))))
  ∧ (∀ (m : Memory) (p : Nat) (g : Gen) (fr : LoopFrame) (rest : List LoopFrame),
      g.stack = fr :: rest → g.word + 1 = fr.word + loopBody (progWord m p fr.word) + 1 →
      (1 < fr.remaining → nextWord m p g = { g with
        word := fr.word + 1, moved := 0, state := .running, addr := g.addr + loopStride (progWord m p fr.word)
        stack := { fr with remaining := fr.remaining - 1, start := g.addr + loopStride (progWord m p fr.word) } :: rest })
      ∧ (fr.remaining ≤ 1 → rest = [] → nextWord m p g = { g with
        word := g.word + 1, moved := 0, state := .running, addr := g.addr + loopStride (progWord m p fr.word), stack := [] }))
  ∧ (∀ (s : State) (b n p : Nat),
      let k := s.brick n
      let g := k.gen p
      (s.AtWord b n p 0 → s.engineBusy n p = false → g.held = [] → Completes (.endWord n p) s fun t =>
        t.brick n = { k.setGen p { g with state := .ended } with passWaited := if p = 0 then false else k.passWaited }
        ∧ (∀ m, m ≠ n → t.brick m = s.brick m) ∧ t = { s with bricks := t.bricks })
      ∧ (s.AtWord b n p 7 → s.engineBusy n p = false → g.held = [] → Completes (.jumpWord n p) s fun t =>
        t.brick n = { k.setGen p {} with passWaited := if p = 0 then false else k.passWaited }
        ∧ (∀ m, m ≠ n → t.brick m = s.brick m) ∧ t = { s with bricks := t.bricks })
      ∧ (s.AtWord b n p 0 → s.engineBusy n p = true → exec (.endWord n p) s = .next s)
      ∧ (s.AtWord b n p 7 → s.engineBusy n p = true → exec (.jumpWord n p) s = .next s))

/-- MOVE (R119, R183, R185, R188, R216): a read MOVE hands its consumer one tile more, or waits while the consumer is
full. A write MOVE to the address waits while there is no result; one to a slot stalls while its stream has no handle;
a raw integer result is written as it is at the MOVE's address, every other byte of the hopper unchanged. -/
def Obligations.MoveWordFeedsItsConsumer : Prop :=
  ∀ (s : State) (b n p : Nat) (ecc : Ecc), s.AtWord b n p 3 →
    let k := s.brick n
    let w := k.wordAt p
    let fw := formatWord k.conf (moveFormat w)
    let held (x : Brick) : Nat := x.acts.length + x.weights.length + x.side.length + x.prim.length
    let waits := (fw.amax && gatherHeld k fw.scaleReg) = true
    Completes (.moveWord n p ecc) s fun t =>
      (waits → t = s)
      ∧ (moveWrite w = false → State.consumerFull k p (moveFormat w) (moveTarget w) = true → t = s)
      ∧ (moveWrite w = false → State.consumerFull k p (moveFormat w) (moveTarget w) = false → ¬ waits →
        16 ≤ moveTarget w → moveTarget w ≤ 18 → held (t.brick n) = held k + 1 ∧ (t.brick n).results = k.results)
      ∧ (moveWrite w = true → moveTarget w = 18 → k.results = [] → functionOf k.conf ≠ 7 → t = s)
      ∧ (moveWrite w = true → moveTarget w < 16 → ¬ waits → s.slotReady n (moveTarget w) = false → functionOf k.conf ≠ 7 →
        t = s.stallOut n (moveTarget w))
      ∧ (∀ r rest, moveWrite w = true → moveTarget w = 18 → ¬ waits → k.results = r :: rest → r.raw = true →
        functionOf k.conf ≠ 7 → (k.gen p).space = .hopper →
        let a := s.moveByte b n p true (moveFormat w)
        (t.brick n).results = rest
        ∧ (∀ x, x < (State.rawBytes r).length → aget 0 (t.brick n).hopper (a + x) = (State.rawBytes r).getD x 0)
        ∧ (∀ x, x < a ∨ a + (State.rawBytes r).length ≤ x → aget 0 (t.brick n).hopper x = aget 0 k.hopper x)
        ∧ (t.brick n).clay = k.clay ∧ t = { s with bricks := t.bricks })

/-- FENCE and BRICK_QUIET (R85, R86, R134, R193, R217): with no request pending a program 0 passes a fence that ends no
step; one that ends a step latches the amax registers, or, where some are shared, first sends the brick's values to the
anchor in an AMAX packet once nothing is left in its paths. The first brick to reach a fence with a request pending puts
the bay in DRAINING at that fence and stays there. A draining brick changes nothing until its programs and its work have
stopped; then its unused tiles are rewound and its swap halves go back, and when nothing of it is outstanding it reports
quiet, once, to the anchor with the fence's id. -/
def Obligations.FencesAndQuiet : Prop :=
  (∀ (s : State) (b n : Nat), s.AtWord b n 0 4 → s.engineBusy n 0 = false →
      let v := s.bay b
      let k := s.brick n
      let id := fenceIdOf (k.wordAt 0)
      let asked := v.saveObj ≠ none ∨ v.swapAt ≠ none ∨ v.shutdown ≠ none
      Completes (.fenceWord n 0) s fun t =>
        (¬ asked → State.stepEnds v id = false →
          (t.brick n).fences = k.fences + 1 ∧ (∀ r, aget {} (t.brick n).amax r = aget {} k.amax r)
          ∧ t.bays = s.bays ∧ t.objs = s.objs)
        ∧ (¬ asked → State.stepEnds v id = true → State.sharedMask k.conf = 0 → n ≠ s.anchor b →
          (t.brick n).fences = k.fences + 1 ∧ t.bays = s.bays
          ∧ (∀ r, r < 16 → aget {} (t.brick n).amax r = latchReg (aget {} k.amax r)))
        ∧ (¬ asked → State.stepEnds v id = true → State.sharedMask k.conf ≠ 0 → k.amaxSent = false → State.pathsEmpty k = true →
          (t.brick n).amaxSent = true ∧ (t.brick n).fences = k.fences
          ∧ (t.net.grit.map (·.p)).getLast? = some (gritOf 8 (s.anchor b) n 0 0
            (BitVec.ofNat 32 (State.sharedMask k.conf)) ((aread {} k.amax 0 16).flatMap fun a => leBytes 4 a.amax.toNat)))
        ∧ (asked → s.firstAtFence b n = true →
          (t.bay b).state = .draining ∧ (t.bay b).fenceId = some id ∧ (t.bay b).fenceAt = k.fences
          ∧ (t.brick n).fences = k.fences ∧ (t.bay b).saveObj = v.saveObj ∧ (t.bay b).swapAt = v.swapAt))
  ∧ (∀ (s : State) (b n : Nat), s.awake = true → s.bayOf n = some b →
      let k := s.brick n
      let u := (s.setBrick n { State.rewindBrick k with rewound := k.rewound ++ State.rewoundBy k }).releaseHalves b n
      Completes (.brickQuiet n) s fun t =>
        (((s.bay b).state ≠ .draining ∨ k.quietSent = true ∨ s.drainStopped n = false) → t = s)
        ∧ ((s.bay b).state = .draining → k.quietSent = false → s.drainStopped n = true →
          (u.brickClear b n = false → t = u)
          ∧ (u.brickClear b n = true → (t.brick n).quietSent = true
            ∧ t.net.grit.map (·.p) = u.net.grit.map (·.p) ++ [gritOf 4 (u.anchor b) n 0 0
              (BitVec.ofNat 32 (((s.bay b).fenceId.getD 0) % 65536)) []]))
        ∧ t = { s with bricks := t.bricks, net := t.net })

/-- WAIT and POST (R204, R206, R208, R211, R216): a WAIT with no eligible buffer waits; with one it takes the oldest. A
WAIT of a swap stream waits for the exchange. A POST with no buffer free stalls; with one it posts it, and across the
grit path a packet tells the consumer the handle and how many flits were written. -/
def Obligations.WaitAndPostWords : Prop :=
  ∀ (s : State) (b n p : Nat),
    let k := s.brick n
    let g := k.gen p
    let i := streamOf (k.wordAt p)
    let e := k.stream i
    let w := streamWord k.conf i
    let r := routeWord k.conf w.route
    (s.AtWord b n p 5 → w.swap = false → s.engineBusy n p = false → (∀ x ∈ g.held, x.1 ≠ i) →
      ∀ ecc, Completes (.waitWord n p ecc) s fun t =>
        (State.eligibleHandle k p i = none → t = s.setBrick n (k.setGen p { g with state := .waiting }))
        ∧ (∀ h, State.eligibleHandle k p i = some h →
          ((t.brick n).stream i).queue = e.queue.erase h ∧ ((t.brick n).stream i).count = e.count + 1
          ∧ (∀ m, m ≠ n → t.brick m = s.brick m) ∧ (ecc = .clean → t = { s with bricks := t.bricks })))
    ∧ (s.AtWord b n p 5 → (w.swap = true ∨ s.engineBusy n p = true) → ∀ ecc, Completes (.waitWord n p ecc) s fun t =>
      t = s.setBrick n (k.setGen p { g with state := .waiting }))
    ∧ (s.AtWord b n p 6 → Completes (.postWord n p) s fun t =>
      (s.slotReady n i = false → t = s.stallOut n i)
      ∧ (s.slotReady n i = true →
        ((t.brick n).stream i).free = e.free.drop 1 ∧ ((t.brick n).stream i).bytes = 0
        ∧ ((t.brick n).stream i).count = e.count + 1 ∧ (∀ m, m ≠ n → t.brick m = s.brick m)
        ∧ ((r.network ≠ 2 ∨ s.heldData n (s.streamDest b n i) r.destStream = false) → t.net.grit.map (·.p) = s.net.grit.map (·.p) ++ [gritOf 2 (s.streamDest b n i) n r.destStream
            (stampHandle w.tagBits (e.free.headD 0) (e.slotTag.getD 0) (handleGen w.tagBits (e.free.headD 0) + 1))
            (BitVec.ofNat 32 e.flits) []])
        ∧ t.net.flits = s.net.flits ∧ t = { s with net := t.net, bricks := t.bricks, live := t.live }))

/-- AMAX_PACKET and AMAX_RETURN (R193, R214): an arriving packet waits at the anchor until every sharing brick has sent
its own; the last one sends the maxima back to every sharer; a return ends the exchange, the brick's registers latch
with them and it passes its fence, unless it no longer waits there. BAY_EPOCH_WRITE (R6, R169): a low word is held, and
the high word writes both, at the next fence that ends a step where the bay runs; without a held low word it joins the
low word last written. WSLOT_WRITE (R355): bit 13 asks for the exchange of a bay's weight slots; the delta is taken
only where no exchange is pending and the bay does not run. -/
def Obligations.AmaxExchangeEpochAndWeightSlots : Prop :=
  ((∀ (s : State) (b n : Nat) (p : GritPacket), s.Running b n → s.Arriving 8 n false p →
      let v := s.bay b
      let ps := v.amaxIn ++ [(p.source, p.arg.toNat, State.amaxValues p)]
      let u := s.tookGrit p
      Completes (.amaxPacket n) s fun t =>
        (ps.length < (s.sharers b).length → t = u.setBay b { v with amaxIn := ps })
        ∧ ((s.sharers b).length ≤ ps.length →
          (t.bay b).amaxIn = [] ∧ t = { u with bays := t.bays, net := t.net }
          ∧ t.net.grit.map (·.p) = u.net.grit.map (·.p) ++ ps.map fun x => gritOf 9 x.1 p.dest 0 0 (BitVec.ofNat 32 x.2.1)
              ((State.packetMaxima ps).flatMap fun w => leBytes 4 w.toNat)))
    ∧ (∀ (s : State) (b n : Nat) (p : GritPacket), s.Running b n → s.Arriving 9 n true p →
      let k := s.brick n
      let u := s.tookGrit p
      Completes (.amaxReturn n) s fun t =>
        ((k.amaxSent = false ∨ (k.gen 0).state = .held) → t = u)
        ∧ (k.amaxSent = true → (k.gen 0).state ≠ .held →
          (t.brick n).amaxSent = false ∧ (t.brick n).fences = k.fences + 1
          ∧ (n ≠ s.anchor b → (∀ m, m ≠ n → t.brick m = s.brick m) ∧ t.bays = s.bays)
          ∧ (∀ r, r < 16 → aget {} (t.brick n).amax r
            = latchReg (if p.arg.getLsbD r then { aget {} k.amax r with amax := (State.amaxValues p).getD r 0 }
                else aget {} k.amax r))))
    ∧ (∀ (s : State) (n : Nat), s.awake = true →
      ((∀ m ∈ s.net.grit, m.p.kind ≠ 8 ∨ m.p.source ≠ n) → exec (.amaxPacket n) s = .next s)
      ∧ ((∀ m ∈ s.net.grit, m.p.kind ≠ 9 ∨ m.p.dest ≠ n) → exec (.amaxReturn n) s = .next s))
    ∧ (∀ (s : State) (agent b : Nat) (lo hi : Word), s.coreUp agent = true → b < 64 →
      let v := s.bay b
      let put (low : Word) : Bay :=
        let e : DWord := BitVec.ofNat 64 (low.toNat + hi.toNat * 2 ^ 32)
        if v.state = .running ∨ v.state = .draining then { v with epochNext := some e }
        else { v with epoch := e, epochNext := none }
      Completes (.bayEpochWrite agent b false lo) s (fun t =>
        t = { s with pairHold := t.pairHold } ∧ Completes (.bayEpochWrite agent b true hi) t fun u =>
          u = { s.setBay b (put lo) with pairHold := u.pairHold })
      ∧ (aget none s.pairHold (agent * 2 ^ 40 + (randBase b + 8)) = none → Completes (.bayEpochWrite agent b true hi) s fun u =>
          u = { s.setBay b (put (loWord (v.epochNext.getD v.epoch).toNat)) with pairHold := u.pairHold })))
  ∧ (∀ (s : State) (agent b : Nat) (v : Word), s.coreUp agent = true → b < 64 →
      let y := s.bay b
      Completes (.wslotWrite agent b v) s fun t =>
        t = s.setBay b { y with
          wsPending := y.wsPending || v.getLsbD 13
          wsDelta := if y.wsPending = true ∨ y.state = .running ∨ y.state = .draining then y.wsDelta else v.toNat % 4096 })

/-! ### The matrix slice and the lanes (08_matrix_vector.md) -/

/-- ARRAY_PASS, ACCUM and BANK_CLEAR (R182–R185): a pass consumes its operand tiles and is one pass more of the fill
bank; the array waits, which only a trace counter shows, where it cannot start one; a chain-in loads the fill bank
from the next partial tile; clearing a drained bank leaves every entry 0. BANK_DRAIN and PRIMARY_TILE (R184, R185,
R195, R198): a raw drain, and a section with no epilogue word, hand program 2 one result and count the drain. -/
def Obligations.PassesDrainsAndPrimaryTiles : Prop :=
  (∀ (s : State) (b n : Nat), s.Running b n →
      let k := s.brick n
      let m := k.conf
      let w := epi m 0
      Completes (.arrayPass n) s (fun t =>
        (State.passReady k = false → t = s.stallArray n)
        ∧ (State.passReady k = true →
          (t.brick n).acts = k.acts.drop (passTiles m) ∧ (t.brick n).weights = k.weights.drop (passTiles m)
          ∧ (k.passes + 1 < accPasses w → (t.brick n).passes = k.passes + 1 ∧ (t.brick n).fill.state = .filling
            ∧ (reductionOf m = 0 → (t.brick n).fill.entries
              = intFill k.fill (k.acts.take (passTiles m)) (k.weights.take (passTiles m))))
          ∧ (t.brick n).arrayWait = false ∧ (t.brick n).results = k.results ∧ (∀ x, x ≠ n → t.brick x = s.brick x))
        ∧ t = { s with bricks := t.bricks, bays := t.bays, live := t.live, freeCtr := t.freeCtr })
      ∧ Completes (.accumWord n) s (fun t =>
        ((functionOf m ≠ 1 ∨ epiOp w ≠ 1) → t = s)
        ∧ (functionOf m = 1 → epiOp w = 1 → accJoin w = 1 → k.passes = 0 → k.chainLoaded = false →
          (k.fill.state = .clear ∨ k.fill.state = .filling) →
          match s.nextTile b n (accLink w) (State.partialSize m) with
          | none => t = s
          | some r => (t.brick n).chainLoaded = true
            ∧ (t.brick n).fill.entries = arun 0 0 (State.partialEntries m r.1) ∧ (t.brick n).fill.state = .filling)
        ∧ (functionOf m = 1 → epiOp w = 1 → accJoin w = 0 → t = s))
      ∧ Completes (.bankClear n) s (fun t =>
        (functionOf m = 1 → k.drain.state = .dirty →
          t = s.setBrick n (turnBanks (k.setBank (!k.fillBank) {})) ∧ (k.fill.state ≠ .full → (t.brick n).drain = {}))
        ∧ ((functionOf m ≠ 1 ∨ k.drain.state ≠ .dirty) → t = s)))
  ∧ (∀ (s : State) (b n : Nat), s.Running b n →
      let k := s.brick n
      let m := k.conf
      let free := k.laneWords = none ∧ State.sideReady k = true ∧ chainOrder m = [] ∧ k.results.length < 4
      Completes (.bankDrain n) s (fun t =>
        (functionOf m ≠ 1 → t = s)
        ∧ (functionOf m = 1 → accRaw (epi m 0) = true → (k.drain.state ≠ .full ∨ 4 ≤ k.results.length) → t = s)
        ∧ (functionOf m = 1 → k.drain.state = .full → (accRaw (epi m 0) = true ∧ k.results.length < 4 ∨ accRaw (epi m 0) = false ∧ free) →
          (t.brick n).drain.state = .dirty ∧ (t.brick n).drain.entries = k.drain.entries
          ∧ (t.brick n).drains = (k.drains + 1) % 2 ^ 32
          ∧ (t.brick n).results.length = k.results.length + (if takesResults m then 1 else 0)
          ∧ (t.brick n).fill = k.fill))
      ∧ Completes (.primaryTile n) s (fun t =>
        (functionOf m ≠ 2 → functionOf m ≠ 5 → t = s)
        ∧ (∀ x rest, (functionOf m = 2 ∨ functionOf m = 5) → k.prim = x :: rest → free →
          (t.brick n).prim = rest ∧ (t.brick n).drains = (k.drains + 1) % 2 ^ 32 ∧ (t.brick n).laneWords = none
          ∧ (t.brick n).results = k.results ++ (if takesResults m then
            [{ raw := false, wide := chainFmt m == 0, values := x.codes, tag := x.tag, words := [] }] else []))))

/-- The element operations of ADD, MUL, MAX, MIN, SUBR, COPYSIGN, ABS, NEG, RECIP, SQRT, RSQRT, EXP, LOG, COS, TANH,
SIGMOID, GELU, SILU and SCALEB (R187–R189): the word puts its operation on every element of the tile in the lanes, and
is done. The last word of the chain hands the tile to program 2. No other brick changes. Corners: a NaN value gives
the canonical NaN, with invalid raised only for a signaling one; MAX and MIN take −0 as below +0; the reciprocal of a
zero is an infinity of its sign with division by zero raised; the square root of a negative number, the sum of
opposite infinities and the product of an infinity and zero are invalid. -/
def Obligations.LaneWordsActOnEveryElement : Prop :=
  (∀ x ∈ ([(Instr.addOp, 0x02, fun p rnd _ v a => addOf p rnd (decodeFmt p v) (decodeFmt p a)),
        (Instr.mulOp, 0x03, fun p rnd _ v a => mulOf p rnd (decodeFmt p v) (decodeFmt p a)),
        (Instr.maxOp, 0x04, fun p _ _ v a => pickOf p true v a),
        (Instr.minOp, 0x05, fun p _ _ v a => pickOf p false v a),
        (Instr.subrOp, 0x21, fun p rnd _ v a => addOf p rnd (decodeFmt p a) (negVal (decodeFmt p v))),
        (Instr.copysignOp, 0x23, fun p _ _ v a => withSign p v (decodeFmt p a).isNeg),
        (Instr.absOp, 0x10, fun p _ _ v _ => withSign p v false),
        (Instr.negOp, 0x11, fun p _ _ v _ => withSign p v (!(decodeFmt p v).isNeg)),
        (Instr.recipOp, 0x12, fun p rnd _ v _ => recipOf p rnd (decodeFmt p v)),
        (Instr.sqrtOp, 0x13, fun p rnd _ v _ => sqrtOf p rnd (decodeFmt p v)),
        (Instr.rsqrtOp, 0x14, fun p _ _ v _ => boundedOf p 0x14 v),
        (Instr.expOp, 0x15, fun p _ _ v _ => boundedOf p 0x15 v),
        (Instr.logOp, 0x16, fun p _ _ v _ => boundedOf p 0x16 v),
        (Instr.cosOp, 0x17, fun p _ _ v _ => boundedOf p 0x17 v),
        (Instr.tanhOp, 0x18, fun p _ _ v _ => boundedOf p 0x18 v),
        (Instr.sigmoidOp, 0x19, fun p _ _ v _ => boundedOf p 0x19 v),
        (Instr.geluOp, 0x1A, fun p _ _ v _ => boundedOf p 0x1A v),
        (Instr.siluOp, 0x1B, fun p _ _ v _ => boundedOf p 0x1B v),
        (Instr.scalebOp, 0x22, fun p rnd w v _ =>
          if (decodeFmt p v).isNan then nanResult p [decodeFmt p v]
          else (fmtOf p).convert rnd (scaleBy (decodeFmt p v) (pow2 (scalebImm w))))] :
        List ((Nat → Nat → Instr) × Nat × (Nat → Rnd → Word → Nat → Nat → Rounded))),
    ∀ (s : State) (b n k : Nat) (rest : List Nat), s.LaneAt b n k x.2.1 rest →
      let m := (s.brick n).conf
      let p := chainFmt m
      let w := epi m k
      let side := (((s.brick n).laneSide.map (·.codes)).getD []).toArray
      let codes := (s.brick n).lanes.zipIdx.map fun v =>
        (x.2.2 p (rndOf (roundingOf m)) w v.1 (operandOf p w side v.2)).code
      Completes (x.1 n k) s fun t =>
        (rest ≠ [] → (t.brick n).lanes = codes ∧ (t.brick n).laneWords = some rest ∧ (t.brick n).results = (s.brick n).results)
        ∧ (rest = [] → (s.brick n).results.length < 4 →
          (t.brick n).lanes = [] ∧ (t.brick n).laneWords = none
          ∧ (t.brick n).results = (s.brick n).results ++ (if takesResults m then
            [{ raw := false, wide := p == 0, values := codes, tag := (s.brick n).laneTag, words := [] }] else []))
        ∧ (∀ y, y ≠ n → t.brick y = s.brick y)
        ∧ (t.brick n).hopper = (s.brick n).hopper ∧ (t.brick n).clay = (s.brick n).clay
        ∧ t = { s with bricks := t.bricks, live := t.live })
  ∧ (∀ (p : Nat) (rnd : Rnd), p = 0 ∨ p = 1 →
      (∀ x : FVal, x.isNan = true →
        recipOf p rnd x = { code := (fmtOf p).canonicalNan, flags := if x.isSnan then flInvalid else 0 }
        ∧ sqrtOf p rnd x = { code := (fmtOf p).canonicalNan, flags := if x.isSnan then flInvalid else 0 })
      ∧ (∀ x y : FVal, (x.isNan = true ∨ y.isNan = true) →
        addOf p rnd x y = { code := (fmtOf p).canonicalNan, flags := if x.isSnan || y.isSnan then flInvalid else 0 }
        ∧ mulOf p rnd x y = { code := (fmtOf p).canonicalNan, flags := if x.isSnan || y.isSnan then flInvalid else 0 })
      ∧ pickOf p true 0 (signMask p) = { code := 0, flags := 0 } ∧ pickOf p true (signMask p) 0 = { code := 0, flags := 0 }
      ∧ pickOf p false 0 (signMask p) = { code := signMask p, flags := 0 }
      ∧ pickOf p false (signMask p) 0 = { code := signMask p, flags := 0 }
      ∧ recipOf p rnd (.fin 0) = { code := (fmtOf p).infinity false, flags := flDivZero }
      ∧ recipOf p rnd .negZero = { code := (fmtOf p).infinity true, flags := flDivZero }
      ∧ (∀ q : Rat, q < 0 → sqrtOf p rnd (.fin q) = { code := (fmtOf p).canonicalNan, flags := flInvalid })
      ∧ addOf p rnd (.inf false) (.inf true) = { code := (fmtOf p).canonicalNan, flags := flInvalid }
      ∧ mulOf p rnd (.inf false) (.fin 0) = { code := (fmtOf p).canonicalNan, flags := flInvalid })

/-- RAND and CVT (R190, R194): every element takes its draw under the bay's epoch, or one rounding into the word's
format; the draws are counted for the bay. AMAX, SHARE, ROWSTAT, FLAGS and SORT words (R191–R197) leave the elements
in the lanes as they are: AMAX gathers them into its register, SHARE marks registers and does nothing more, ROWSTAT
updates the two registers of every row, FLAGS clears the lane states with its record, SORT keeps the best pairs of
every row in the hopper, and no other byte of it changes. A record with no buffer to go to makes the word wait. -/
def Obligations.DrawsConversionsAndGathers : Prop :=
  (∀ (s : State) (b n k j : Nat) (rest : List Nat),
      let m := (s.brick n).conf
      let p := chainFmt m
      let w := epi m k
      (s.LaneAt b n k 0x20 (j :: rest) → randKind w ≠ 1 →
        let draws := (s.laneDraws b n (randStream w) (epiImm w)).1
        Completes (.randOp n k) s fun t =>
          (t.brick n).lanes = (s.brick n).lanes.zipIdx.map (fun v =>
            (randOf p (rndOf (roundingOf m)) w (epi m (k + 1)).toNat v.1 (draws.toArray.getD v.2 0) 0).code)
          ∧ (t.brick n).laneWords = some (j :: rest) ∧ (∀ y, y ≠ n → t.brick y = s.brick y)
          ∧ (t.bay b).drawsIssued - (s.bay b).drawsIssued = (t.bay b).drawsServed - (s.bay b).drawsServed)
      ∧ (s.LaneAt b n k 0x30 (j :: rest) → cvtRnd w ≠ 5 →
        Completes (.cvtOp n k) s fun t =>
          (t.brick n).lanes = (s.brick n).lanes.map (fun v =>
            (cvtOf p (cvtFmt w) (if cvtRnd w = 6 then rndOf (roundingOf m) else rndOf (cvtRnd w)) v).code)
          ∧ (t.brick n).laneWords = some (j :: rest) ∧ (∀ y, y ≠ n → t.brick y = s.brick y)
          ∧ t = { s with bricks := t.bricks, live := t.live }))
  ∧ (∀ (s : State) (b n k j : Nat) (rest : List Nat),
      let kb := s.brick n
      let m := kb.conf
      let p := chainFmt m
      let w := epi m k
      let done (t : State) : Prop := (t.brick n).lanes = kb.lanes ∧ (t.brick n).laneWords = some (j :: rest)
      (s.LaneAt b n k 0x29 (j :: rest) → Completes (.amaxOp n k) s fun t =>
        (gatherHeld kb (amaxReg w) = true → t = s)
        ∧ (gatherHeld kb (amaxReg w) = false → done t
          ∧ aget {} (t.brick n).amax (amaxReg w)
            = kb.lanes.foldl (fun a c => gatherAmax a (decodeFmt p c) (amaxFmt w)) (aget {} kb.amax (amaxReg w))
          ∧ (∀ r, r ≠ amaxReg w → aget {} (t.brick n).amax r = aget {} kb.amax r)))
      ∧ (s.LaneAt b n k 0x2A (j :: rest) → Completes (.shareOp n k) s fun t =>
        t = s.setBrick n { kb with laneWords := some (j :: rest) })
      ∧ (s.LaneAt b n k 0x28 (j :: rest) → Completes (.rowstatOp n k) s fun t =>
        (kb.drains % rowBanks w = 0 → s.slotReady n (rowStream w) = false → t = s.stallOut n (rowStream w))
        ∧ (kb.drains % rowBanks w ≠ 0 → done t ∧ t.net = s.net
          ∧ (∀ i, i < 32 → (kb.drains + rowBanks w - 1) % rowBanks w ≠ 0 →
            aget 0 (t.brick n).rowX i
              = BitVec.ofNat 32 (rowStep p (rowMode w) (aget 0 kb.rowX i).toNat (aget 0 kb.rowY i).toNat
                  ((kb.lanes.drop (32 * i)).take 32)).x)))
      ∧ (s.LaneAt b n k 0x31 (j :: rest) → Completes (.flagsOp n k) s fun t =>
        (s.slotReady n (flagsStream w) = false → t = s.stallOut n (flagsStream w))
        ∧ (s.slotReady n (flagsStream w) = true → done t ∧ (t.brick n).laneFlags = []
          ∧ ((t.brick n).stream (flagsStream w)).count = (kb.stream (flagsStream w)).count + 1))
      ∧ (s.LaneAt b n k 0x38 (j :: rest) → aget 0 kb.sortRow k = 0 → aget 0 kb.sortTile k + 1 ≠ sortTiles (epi m (k + 1)) →
        ∀ ecc, Completes (.sortOp n k ecc) s fun t =>
          let at_ := sortAt m k 0
          let pairs := (State.sortTaken kb k).flatMap (sortBytes (sortK w))
          done t ∧ aget 0 (t.brick n).sortTile k = aget 0 kb.sortTile k + 1
          ∧ (∀ x, x < pairs.length → aget 0 (t.brick n).hopper (at_ + x) = pairs.getD x 0)
          ∧ (∀ x, x < at_ ∨ at_ + pairs.length ≤ x → aget 0 (t.brick n).hopper x = aget 0 kb.hopper x)
          ∧ (∀ i, i < 32 → (State.sortTaken kb k)[i]? = some (sortRow p (sortAsc w) (sortK w) (aget 0 kb.sortTile k)
              (sortPairs kb k (aget 0 kb.sortTile k) i) ((kb.lanes.drop (32 * i)).take 32)))
          ∧ (ecc = .clean → t = { s with bricks := t.bricks })))

/-! ### Networks, streams and relays (01_package_and_dies.md, 03_brick_fabric.md, 09_streams.md) -/

/-- LINE_FLIT and CREDIT_RETURN (R67–R69): no flit passes a link without a credit on its virtual channel; the granted
flit takes its next buffer and frees the one it leaves, or is delivered; with every requester eligible the grant goes
to the pointer's, and the pointer moves behind it; a returned credit is one less outstanding. D2D_FLIT_RETRY (R25): a
failed flit is retried, which only the corrected-error counters show; a link that fails retrain after 16 retries in a
row is a fatal device error. -/
def Obligations.FlitsPassUnderCredits : Prop :=
  ((∀ (s : State) (link : Nat) (cands : List FlitCand), s.awake = true → Completes (.lineFlit link cands) s fun t =>
      (∀ c f vc, cands = [c] → (4 ≤ link % 8 ∨ c.requester < 8) → s.waitingFlit link c = some f →
        f.path.head? = some (link, vc) →
        (linkCredits link ≤ s.spentCredits link vc → t = s)
        ∧ (s.spentCredits link vc < linkCredits link → 2 ≤ f.path.length →
          { f with path := f.path.drop 1, occupies := some (link, vc) } ∈ t.net.flits
          ∧ t.net.flits.length = s.net.flits.length
          ∧ t.net.credits = s.net.credits ++ (match f.occupies with
            | some (l, v) => [{ link := l, vc := v, src := f.src }]
            | none => [])
          ∧ t = { s with net := t.net })
        ∧ (s.spentCredits link vc < linkCredits link → f.path = [(link, vc)] → ∀ b, s.bayOf f.dest = some b →
          t.net.flits = s.net.flits.erase f
          ∧ t.net.credits = s.net.credits ++ (match f.occupies with
            | some (l, v) => [{ link := l, vc := v, src := f.src }]
            | none => []) ++ [{ link := link, vc := vc, src := f.src }]
          ∧ (let k := s.brick f.dest
            let slot := slotOf (streamWord k.conf f.destStream) f.handle
            aget 0 ((t.brick f.dest).stream f.destStream).arrived slot = aget 0 (k.stream f.destStream).arrived slot + 1)
          ∧ t = { s with net := t.net, bricks := t.bricks }))
      ∧ ((∀ c ∈ cands, s.eligible link c = false) → t = s))
    ∧ (∀ (s : State) (link vc : Nat), s.awake = true → Completes (.creditReturn link vc) s fun t =>
      t = { s with net := { s.net with credits := t.net.credits } }
      ∧ ((∃ c ∈ s.net.credits, c.link = link ∧ c.vc = vc) → t.net.credits.length + 1 = s.net.credits.length)
      ∧ ((∀ c ∈ s.net.credits, c.link = link → c.vc ≠ vc) → t = s)))
  ∧ (∀ (s : State) (link : Nat) (cands : List FlitCand) (c : FlitCand), link % 8 < 4 → aget 0 s.net.arb link < 8 →
      c ∈ cands → s.eligible link c = true → c.requester = aget 0 s.net.arb link →
      (∀ d ∈ cands, d.requester = c.requester → d = c) →
      s.grant link cands = some c ∧ aget 0 (s.lineCycle link cands).net.arb link = (c.requester + 1) % 8)
  ∧ (∀ (s : State) (source n : Nat) (bad : Bool), s.awake = true → Completes (.d2dFlitRetry source n bad) s fun t =>
      (t.stat d2dRetry).toNat = min ((s.stat d2dRetry).toNat + 1) 0xFFFFFFFF
      ∧ ((n < 16 ∨ bad = false) → t = s.corrected d2dRetry 1 ∧ t = { s with live := t.live })
      ∧ (16 ≤ n → bad = true →
        t.rel.fatal = true ∧ t.rel.fatalCode = eD2dFail ∧ t.rel.fatalSource = source ∧ t.rel.fatalTick = s.tb.tick
        ∧ t.pins.devFatal = true ∧ t.tb = s.tb ∧ t.bricks = s.bricks ∧ t.bays = s.bays ∧ t.objs = s.objs))

/-- GRIT_DATA, GRIT_POST and GRIT_RELEASE (R205, R206, R209, R213, R214, R222): a malformed packet is discarded, counted
and an internal error; one that is due leaves the network and does its work, which for data is one more flit of its
slot, for a post without the data one more post at the consumer, for a release one more free handle at the producer, a
brick or the ingress channel that filled the slot, whose tokens it gives back; one that is not due changes nothing. -/
def Obligations.GritPackets : Prop :=
  ∀ (s : State) (p : GritPacket), s.awake = true →
    let bad (t : State) : Prop := t.net = s.net ∧ t.bricks = s.bricks
      ∧ (t.stat gritBad).toNat = min ((s.stat gritBad).toNat + 1) 0xFFFFFFFF
      ∧ t = { s with mgmt := t.mgmt, rel := t.rel, live := t.live, out := t.out }
    let e := (s.brick p.dest).stream p.stream
    let u := s.tookGrit p
    Completes (.gritData p) s (fun t =>
      (gritMalformed p = true → bad t)
      ∧ (gritMalformed p = false → (p.kind ≠ 1 ∨ s.gritDue p = false) → t = s)
      ∧ (gritMalformed p = false → p.kind = 1 → s.gritDue p = true → p.post = false → s.bayOf p.dest ≠ none →
        t = u.deliver p.dest p.stream p.handle p.arg.toNat (p.body.take p.length) ∧ t.net = u.net
        ∧ aget 0 ((t.brick p.dest).stream p.stream).arrived (slotOf (streamWord (s.brick p.dest).conf p.stream) p.handle)
          = aget 0 e.arrived (slotOf (streamWord (s.brick p.dest).conf p.stream) p.handle) + 1))
    ∧ Completes (.gritPost p) s (fun t =>
      (gritMalformed p = true → bad t)
      ∧ (gritMalformed p = false → (p.kind ≠ 2 ∨ s.gritDue p = false) → t = s)
      ∧ (gritMalformed p = false → p.kind = 2 → s.gritDue p = true →
        ((t.brick p.dest).stream p.stream).posts
          = e.posts ++ [{ handle := p.handle, flits := p.arg.toNat, source := p.source, srcStream := 0 }]
        ∧ ((t.brick p.dest).stream p.stream).queue = e.queue ∧ t = { u with bricks := t.bricks }))
    ∧ Completes (.gritRelease p) s (fun t =>
      (gritMalformed p = true → bad t)
      ∧ (gritMalformed p = false → (p.kind ≠ 3 ∨ s.gritDue p = false) → t = s)
      ∧ (gritMalformed p = false → p.kind = 3 → s.gritDue p = true → p.dest < 4096 →
        ((t.brick p.dest).stream p.stream).free = e.free ++ [p.handle] ∧ t = { u with bricks := t.bricks })
      ∧ (gritMalformed p = false → p.kind = 3 → s.gritDue p = true → 4096 ≤ p.dest →
        let c := (p.dest - 4096) * 16 + p.stream
        let r := s.relay c
        let n := aget 0 r.slotTiles (slotOf (streamWord (s.brick (s.relayBrick r)).conf (relayStream r).2.2) p.handle)
        r.state = 1 → n ≠ 0 → s.ingressOf (relayStream r).1 (relayStream r).2.1 (relayStream r).2.2 = some c →
          (t.relay c).tokens = r.tokens + n ∧ (t.relay c).free = r.free ++ [p.handle] ∧ (t.relay c).granted = r.granted))

/-- The grit network (R70, R215): the injector of a brick sends a fence-class packet before any other, and among them the
first in the order SWAP, AMAX_RETURN, QUIET, LOADED, SWAPPED, AMAX; of the others it sends one of the first requester from
the rotating pointer on; it sends one whenever it has one, and behind an ordinary packet the pointer stands past its
requester. No packet moves over a link without one of the two credits of its class, so no buffer ever holds more than
two packets of a class, while packets move and when one is taken at its endpoint. -/
def Obligations.GritOrderAndCredits : Prop :=
  (∀ (ptr : Nat) (ms : List GritMsg), (∀ x ∈ ms, x.p.fence = true → 4 ≤ x.p.kind ∧ x.p.kind ≤ 9) →
      (∀ m, injectNext ptr ms = some m →
        m ∈ ms ∧ (∀ x ∈ ms, x.p.fence = true → m.p.fence = true ∧ fenceOrder m.p.kind ≤ fenceOrder x.p.kind)
        ∧ (m.p.fence = false → ∀ x ∈ ms, x.requester < 5 →
          (m.requester + 5 - ptr % 5) % 5 ≤ (x.requester + 5 - ptr % 5) % 5))
      ∧ ((∃ x ∈ ms, x.p.fence = true ∨ x.requester < 5) → ∃ m, injectNext ptr ms = some m))
  ∧ (∀ (net : Net) (m : GritMsg), m.path ≠ [] → m.place = none → m.p.fence = false →
      aget 0 (gritMove net m).gritPtr m.p.source = (m.requester + 1) % 5)
  ∧ (let within (net : Net) : Prop := ∀ x ∈ net.grit, ∀ l ∈ x.place.toList, (gritBuffer net.grit l x.p.fence).length ≤ gritCredits;
      (∀ (n : Nat) (net next : Net) (m : GritMsg), within net → gritPush n net m = some next → within next)
      ∧ (∀ (s : State) (p : GritPacket), within s.net → within (s.tookGrit p).net))

/-- HANDLE_JOIN and SWAP_MODE_EXCHANGE (R205, R207, R208, R211): a post whose flits have not all arrived waits; one that
matches what its slot expects joins the tail of the queue, or on a swap stream waits for the exchange; one that does
not is discarded, counted as stale and faults the bay. An exchange gives the consumer the posted half, returns the one it held to its producer and
takes the program past its WAIT; it happens only
with a posted half, a consumer at its WAIT, and a tag the WAIT takes. -/
def Obligations.HandlesJoinAndExchange : Prop :=
  ∀ (s : State) (b n i : Nat),
    let k := s.brick n
    let e := k.stream i
    let w := streamWord k.conf i
    (s.awake = true → s.bayOf n = some b → Completes (.handleJoin n i) s fun t =>
      ((∀ p ∈ e.posts, aget 0 e.arrived (slotOf w p.handle) < p.flits) → t = s)
      ∧ (∀ p rest, e.posts = p :: rest → p.flits ≤ aget 0 e.arrived (slotOf w p.handle) →
        (State.handleExpected b w e p.handle = true →
          ((t.brick n).stream i).posts = rest
          ∧ aget 0 ((t.brick n).stream i).last (slotOf w p.handle) = p.handle
          ∧ (w.swap = false → ((t.brick n).stream i).queue = e.queue ++ [p.handle])
          ∧ (w.swap = true → ((t.brick n).stream i).queue = e.queue ∧ ((t.brick n).stream i).swapPosted = some p.handle)
          ∧ t = { s with bricks := t.bricks })
        ∧ (State.handleExpected b w e p.handle = false →
          ((t.brick n).stream i).queue = e.queue ∧ ((t.brick n).stream i).posts = rest
          ∧ (t.bay b).state = .faulted ∧ (t.bay b).lastCode = eHandleStale)))
    ∧ (s.Running b n → Completes (.swapModeExchange n i) s fun t =>
      ((e.swapPosted = none ∨ s.waiterOn n i = none) → t = s)
      ∧ (∀ h p, e.swapPosted = some h → s.waiterOn n i = some p →
        (State.tagFits k p i h = false → t = s)
        ∧ (State.tagFits k p i h = true → (s.swapProducer b n i).1 ≠ n →
          ((t.brick n).stream i).half = some h ∧ ((t.brick n).stream i).swapPosted = none
          ∧ ((t.brick n).stream i).count = e.count + 1
          ∧ (t.brick n).gen p = nextWord k.conf p { k.gen p with
            addr := handleAddr h, space := handleSpace h, fromBase := false
            held := ((k.gen p).held.filter fun x => x.1 != i) ++ [(i, h)] }
          ∧ (let r := s.swapProducer b n i
            ((t.brick r.1).stream r.2).free = ((s.brick r.1).stream r.2).free ++ e.half.toList)))
      ∧ t = { s with bricks := t.bricks })

/-- OPEN_IN, OPEN_OUT, CLOSE and SPLICE (R221, R222, R225, R231): a field written while the channel was open refuses the
command, and so does a reserved field; then the ranges. An ingress grants a token for every tile its free slots have
room for; one bound again for the transfer it was receiving keeps its part-filled slot, and grants the rest. A close
retires the tokens; a splice stops at count, tells the old peer, retires the tokens of the laggard and names the new
peer and index. -/
def Obligations.RelayChannelCommands : Prop :=
  ∀ (s : State) (agent c reserved dev ch resume : Nat), s.coreUp agent = true → c < 32 →
    let r := s.relay c
    let refused (t : State) (code : Code) : Prop := t = s.setRelay c { r with lastCode := code, badWrite := false }
    let first (t : State) : Prop := (r.badWrite = true → refused t eRelayState)
      ∧ (r.badWrite = false → reserved ≠ 0 → refused t eBadField)
    Completes (.openIn agent c reserved) s (fun t => first t
      ∧ (reserved = 0 → r.badWrite = false → r.state = 1 → refused t eRelayState)
      ∧ (reserved = 0 → r.badWrite = false → r.state ≠ 1 → (r.count = 0 ∨ r.count.toNat ≤ r.start.toNat) → refused t eRelayRange)
      ∧ (reserved = 0 → r.badWrite = false → s.openInCode r = sOk →
        (t.relay c).state = 1 ∧ (t.relay c).egress = false ∧ (t.relay c).next = r.start.toNat
        ∧ (t.relay c).free = s.freeSlots (s.relayBrick r) (relayStream r).2.2 ∧ (t.relay c).lastCode = sOk
        ∧ (∃ u : State, u.net = s.net ∧ u.objs = s.objs ∧ t = u.grantTokens c ((t.relay c).free.length
            * tilesPerSlot (s.brick (s.relayBrick r)).conf (relayStream r).2.2 - if State.rebinds r then r.flits else 0))
        ∧ (State.rebinds r = false → (t.relay c).bytes = 0 ∧ (t.relay c).granted = (t.relay c).tokens
          ∧ (t.relay c).tokens = (t.relay c).free.length * tilesPerSlot (s.brick (s.relayBrick r)).conf (relayStream r).2.2)
        ∧ (State.rebinds r = true → (t.relay c).bytes = r.bytes ∧ (t.relay c).flits = r.flits
          ∧ (t.relay c).granted = (t.relay c).tokens + r.flits)))
    ∧ Completes (.openOut agent c reserved) s (fun t => first t
      ∧ (reserved = 0 → r.badWrite = false → r.state = 1 → refused t eRelayState)
      ∧ (reserved = 0 → r.badWrite = false → s.openOutCode c r = sOk →
        (t.relay c).state = 1 ∧ (t.relay c).egress = true ∧ (t.relay c).next = r.start.toNat ∧ (t.relay c).tokens = 0
        ∧ ((t.relay c).avail = if bits r.cfg 26 1 = 1 then r.start.toNat else r.count.toNat)
        ∧ t = { s.pinObj r.object.toNat with relays := t.relays }))
    ∧ Completes (.closeChannel agent c reserved) s (fun t => first t
      ∧ (reserved = 0 → r.badWrite = false → (t.relay c).state = 3 ∧ (t.relay c).tokens = 0
        ∧ (t.relay c).retired = r.retired + r.tokens ∧ (t.relay c).laggard = false
        ∧ t = { s with relays := t.relays, objs := t.objs }))
    ∧ Completes (.splice agent c reserved dev ch resume) s (fun t => first t
      ∧ (reserved = 0 → r.badWrite = false → (r.state ≠ 1 ∨ r.egress = false) → refused t eRelayState)
      ∧ (reserved = 0 → r.badWrite = false → r.state = 1 → r.egress = true → r.count.toNat ≤ resume → refused t eRelayRange)
      ∧ (reserved = 0 → r.badWrite = false → r.state = 1 → r.egress = true → resume < r.count.toNat →
        (t.relay c).next = resume ∧ (t.relay c).tokens = 0 ∧ (t.relay c).state = 1 ∧ (t.relay c).laggard = false
        ∧ (t.relay c).peer = BitVec.ofNat 32 (dev % 16384 + 16384 * (ch % 32))
        ∧ t = (s.sendRelayError c (relayPeerDev r) (relayPeerCh r) eRelaySpliced r.next).setRelay c (t.relay c)))

/-- RELAY_EGRESS_SEND, RELAY_GRANT, RELAY_TOKEN and LAGGARD_TIMEOUT at an egress (R221–R224): no tile goes without a
token; a grant adds tokens, the first also naming the next index; a token from another peer or beyond those spent is
a violation, any other is one token more; laggard_ticks without a token mark the peer. RELAY_TILE, RELAY_ERROR,
PROGRESS_PACKET and RELAY_BUFFER (R220–R223, R225): a tile out of order or without a token is a violation and is not
taken; the expected one is the next of its slot; a splice by the peer closes every open channel of the transfer; a
PROGRESS raises what a tapped egress may send; a brick that is no relay does nothing; a relay takes the next buffer, and
releases it once every slot that holds its tiles is posted. -/
def Obligations.RelayTokensAndTiles : Prop :=
  (∀ (s : State) (c dev ch xfer n next : Nat) (read : TileRead), s.awake = true → c < 32 →
      let r := s.relay c
      let peer := relayPeerDev r = dev ∧ relayPeerCh r = ch ∧ r.xfer.toNat = xfer
      Completes (.relayEgressSend c read) s (fun t =>
        ((r.state ≠ 1 ∨ r.egress = false ∨ r.tokens = 0 ∨ r.count.toNat ≤ r.next ∨ r.avail ≤ r.next) → t = s)
        ∧ (∀ o, r.state = 1 → r.egress = true → 0 < r.tokens → r.next < r.count.toNat → r.next < r.avail →
          s.obj r.object.toNat = some o → s.tileWaits o r.next = false →
          (∀ tile, (s.fetchTile r.object.toNat o r.next read).2 = some tile → r.next + 1 < r.count.toNat →
            let u := (s.fetchTile r.object.toNat o r.next read).1
            let p := relayPort c r
            t = ((u.setRelay c { u.relay c with
                next := r.next + 1, tokens := r.tokens - 1, spent := r.spent + 1, starved := 0 }).sendVia
                (if u.isUp p then some p else none) (relayMember c) (relayPeerDev r)
                { typ := 3, dstCh := relayPeerCh r, srcCh := c, xfer := r.xfer.toNat, arg := r.next } tile).count (relayTiles c) 1
            ∧ (t.relay c).next = r.next + 1 ∧ (t.relay c).tokens = r.tokens - 1 ∧ (t.relay c).spent = r.spent + 1
            ∧ (t.relay c).state = 1)
          ∧ ((s.fetchTile r.object.toNat o r.next read).2 = none →
            (t.relay c).state = 3 ∧ (t.relay c).lastCode = eStepAbort ∧ (t.relay c).tokens = 0)))
      ∧ Completes (.relayGrant c dev ch xfer n next) s (fun t =>
        (r.state = 1 → r.egress = true → peer → t = s.setRelay c { r with
          tokens := r.tokens + n, granted := r.granted + n, laggard := false, starved := 0
          next := if r.granted = 0 then next else r.next })
        ∧ ((r.state ≠ 1 ∨ r.egress = false ∨ ¬ peer) → t = s))
      ∧ Completes (.relayToken c dev ch xfer n) s (fun t =>
        ((r.state ≠ 1 ∨ r.egress = false) → t = s)
        ∧ (r.state = 1 → r.egress = true → (¬ peer ∨ r.spent < n) →
          (t.stat (relayBad c)).toNat = min ((s.stat (relayBad c)).toNat + 1) 0xFFFFFFFF ∧ (t.relay c).granted = r.granted)
        ∧ (r.state = 1 → r.egress = true → peer → n ≤ r.spent → r.next < r.count.toNat →
          t = s.setRelay c { r with
            tokens := r.tokens + n, spent := r.spent - n, laggard := r.laggard && n == 0, starved := 0 }))
      ∧ Completes (.laggardTimeout c) s (fun t =>
        (r.state = 1 → r.egress = true → r.tokens = 0 → r.laggard = false → bits r.laggardTicks 0 16 ≤ r.starved →
          t = (s.setRelay c { r with laggard := true, lastCode := eRelayLaggard }).emit (.mortar 2 (relayPeerDev r)))
        ∧ ((r.tokens ≠ 0 ∨ r.laggard = true) → t = s)))
  ∧ ((∀ (s : State) (c dev ch xfer index : Nat) (tile : Bytes), s.awake = true → c < 32 →
      let r := s.relay c
      let m := (s.brick (s.relayBrick r)).conf
      let i := (relayStream r).2.2
      let peer := relayPeerDev r = dev ∧ relayPeerCh r = ch ∧ r.xfer.toNat = xfer
      Completes (.relayTile c dev ch xfer index tile) s fun t =>
        ((r.state ≠ 1 ∨ r.egress = true) → t = s)
        ∧ (r.state = 1 → r.egress = false → (¬ peer ∨ index ≠ r.next ∨ r.tokens = 0) →
          (t.stat (relayBad c)).toNat = min ((s.stat (relayBad c)).toNat + 1) 0xFFFFFFFF
          ∧ (t.relay c).next = r.next ∧ t.bricks = s.bricks)
        ∧ (r.state = 1 → r.egress = false → peer → index = r.next → r.tokens ≠ 0 → r.free ≠ [] →
          r.bytes + tile.length ≤ (streamWord m i).slotUnits * 256 → r.flits + 1 < tilesPerSlot m i → r.next + 1 < r.count.toNat →
          t = ((s.deliver (s.relayBrick r) i (r.free.headD 0) r.bytes tile).setRelay c { r with
              next := r.next + 1, tokens := r.tokens - 1, bytes := r.bytes + tile.length, flits := r.flits + 1 }).count
              (relayTiles c) 1
          ∧ (t.relay c).next = r.next + 1 ∧ (t.relay c).tokens = r.tokens - 1 ∧ (t.relay c).flits = r.flits + 1
          ∧ (t.stat (relayTiles c)).toNat = min ((s.stat (relayTiles c)).toNat + 1) 0xFFFFFFFF)
        ∧ (r.state = 1 → r.egress = false → peer → index = r.next → r.tokens ≠ 0 → r.free ≠ [] →
          r.bytes + tile.length ≤ (streamWord m i).slotUnits * 256 → tilesPerSlot m i ≤ r.flits + 1 → r.next + 1 < r.count.toNat →
          let u := s.deliver (s.relayBrick r) i (r.free.headD 0) r.bytes tile
          let w := streamWord (u.brick (s.relayBrick r)).conf i
          let h := stampHandle w.tagBits (r.free.headD 0) 0 (handleGen w.tagBits (r.free.headD 0) + 1)
          (t.relay c).next = r.next + 1 ∧ (t.relay c).tokens = r.tokens - 1 ∧ (t.relay c).flits = 0 ∧ (t.relay c).bytes = 0
          ∧ (t.relay c).free = r.free.drop 1
          ∧ aget 0 (t.relay c).slotTiles (slotOf w (r.free.headD 0)) = r.flits + 1
          ∧ (∃ x ∈ t.net.grit, x.p = gritOf 2 (s.relayBrick r) (State.ksEndpoint c) i h (BitVec.ofNat 32 (r.flits + 1)) [])))
    ∧ (∀ (s : State) (c dev index : Nat) (code : Code), s.awake = true → c < 32 →
      let r := s.relay c
      Completes (.relayError c dev code index) s fun t =>
        (code ≠ eRelaySpliced → t = s.setRelay c { r with lastCode := code })
        ∧ (code = eRelaySpliced → r.state = 1 → relayPeerDev r = dev →
          ∀ i, i < 32 → (s.relay i).state = 1 → (s.relay i).xfer = r.xfer →
            (t.relay i).state = 3 ∧ (t.relay i).lastCode = eRelaySpliced ∧ (t.relay i).tokens = 0))
    ∧ (∀ (s : State) (c tiles : Nat) (p : GritPacket), s.awake = true → c < 32 →
      (s.net.grit.find? fun m => m.p.kind == 10 && m.p.dest == State.ksEndpoint c && m.p.stream == c % 16
        && m.p.arg.toNat == tiles).map (·.p) = some p → s.gritDue p = true →
      Completes (.progressPacket c tiles) s fun t =>
        t.net = (s.tookGrit p).net
        ∧ (t.relay c).avail = (s.relay c).avail
          + (if (s.relay c).state = 1 ∧ relayTapped (s.relay c) = true then tiles else 0)
        ∧ t = { s with net := t.net, relays := t.relays })
    ∧ (∀ (s : State) (b n : Nat) (ecc : Ecc), s.Running b n →
      let k := s.brick n
      Completes (.relayBuffer n ecc) s fun t =>
        (functionOf k.conf ≠ 6 → t = s)
        ∧ (∀ i, functionOf k.conf = 6 → (∀ j, j < 16 → (k.stream j).relayTaken = []) → State.relayNext k = some i →
          (streamWord k.conf i).swap = false → State.outStreams k = [] → k.results = [] →
          ((t.brick n).stream i).queue = (k.stream i).queue.erase ((k.stream i).queue.headD 0)
          ∧ (t.brick n).relayPtr = (i + 1) % 16
          ∧ ((t.brick n).stream i).relayTaken = [{ handle := (k.stream i).queue.headD 0, needs := [], told := false }])
        ∧ (∀ i x rest, functionOf k.conf = 6 → i < 16 → (∀ j, j < i → (k.stream j).relayTaken = []) →
          (k.stream i).relayTaken = x :: rest → k.results = [] → State.takePosted k x = true →
          s.tapOf b ((s.rankOf b n).getD 0) i = none → ((t.brick n).stream i).relayTaken = rest)))

/-! ### Memory tiers and units (10_memory_tiers.md, 11_memory_interfaces.md) -/

/-- The tier commands CREATE, PROMOTE, EVICT, MIGRATE, DELETE and MARK_LOST (R251, R252): the first acceptance check
that applies gives last_code and nothing else changes; an accepted command is queued under the next sequence number,
and CREATE makes its object. The checks in order: reserved values, an id that is live at CREATE or dead otherwise, a
lost object, then the 64 entries of queue and completion FIFO together. PIN and UNPIN (R254) are one bit of the
object's bay pins; QUERY fills the information registers and queues nothing; writing 1 to bit 0 of MG_TIER_DONE takes
the oldest completion (R265). -/
def Obligations.TierCommandsAndPins : Prop :=
  (∀ (s : State) (agent reserved : Nat), s.coreUp agent = true →
      let arg (i : Nat) : Word := s.tier.args.getD i 0
      let id := (arg 0).toNat
      let cmd (op : Nat) : TierCmd := { seq := s.tier.seq % 65535 + 1, op := op, obj := id, arg1 := arg 1, arg2 := arg 2
                                        arg3 := arg 3, arg4 := arg 4 }
      let does (c : Instr) (op : Nat) : Prop := Completes c s fun t =>
        (s.tierCode op reserved id (arg 1) (arg 2) (arg 3) ≠ sOk →
          t = { s with tier := { s.tier with lastCode := s.tierCode op reserved id (arg 1) (arg 2) (arg 3) } })
        ∧ (s.tierCode op reserved id (arg 1) (arg 2) (arg 3) = sOk →
          t.tier = { s.tier with seq := s.tier.seq % 65535 + 1, lastCode := sOk, cmds := s.tier.cmds ++ [cmd op] }
          ∧ (op = 1 → ∃ o, t.obj id = some o ∧ o.creating = true ∧ o.pins = 0 ∧ o.lost = false)
          ∧ (op ≠ 1 → t.objs = s.objs) ∧ (∀ x, x ≠ id → t.obj x = s.obj x)
          ∧ t = { s with tier := t.tier, objs := t.objs })
      does (.create agent reserved) 1 ∧ does (.promote agent reserved) 2 ∧ does (.evict agent reserved) 3
      ∧ does (.migrate agent reserved) 4 ∧ does (.delete agent reserved) 7 ∧ does (.markLost agent reserved) 8)
  ∧ (∀ (s : State) (op reserved id : Nat) (a1 a2 a3 : Word),
      (tierArgsBad op reserved a1 a2 a3 = true → s.tierCode op reserved id a1 a2 a3 = eBadField)
      ∧ (tierArgsBad op reserved a1 a2 a3 = false → op = 1 → s.obj id ≠ none → s.tierCode op reserved id a1 a2 a3 = eObjExists)
      ∧ (tierArgsBad op reserved a1 a2 a3 = false → op ≠ 1 → s.obj id = none → s.tierCode op reserved id a1 a2 a3 = eNoSuchObject)
      ∧ (∀ o, tierArgsBad op reserved a1 a2 a3 = false → op ≠ 1 → s.obj id = some o → o.lost = true → op ≠ 7 → op ≠ 9 →
        s.tierCode op reserved id a1 a2 a3 = eObjLost)
      ∧ (∀ o, tierArgsBad op reserved a1 a2 a3 = false → (op = 2 ∨ op = 3 ∨ op = 4 ∨ op = 7 ∨ op = 8) → s.obj id = some o →
        o.lost = false → 64 ≤ s.tier.cmds.length + s.tier.done.length → s.tierCode op reserved id a1 a2 a3 = eTierBusy))
  ∧ (∀ (s : State) (agent reserved : Nat), s.coreUp agent = true →
      let arg (i : Nat) : Word := s.tier.args.getD i 0
      let id := (arg 0).toNat
      let code (op : Nat) : Code := s.tierCode op reserved id (arg 1) (arg 2) (arg 3)
      let bit : DWord := 1 <<< argBay (arg 1)
      let refused (t : State) (op : Nat) : Prop := t = { s with tier := { s.tier with lastCode := code op } }
      Completes (.pin agent reserved) s (fun t =>
        (code 5 ≠ sOk → refused t 5)
        ∧ (∀ o, code 5 = sOk → s.obj id = some o → t.obj id = some { o with pins := o.pins ||| bit }
          ∧ t.tier = { s.tier with lastCode := sOk } ∧ t = { s with tier := t.tier, objs := t.objs }))
      ∧ Completes (.unpin agent reserved) s (fun t =>
        (code 6 ≠ sOk → refused t 6)
        ∧ (∀ o, code 6 = sOk → s.obj id = some o → t.obj id = some { o with pins := o.pins &&& ~~~bit }
          ∧ t.tier = { s.tier with lastCode := sOk } ∧ t = { s with tier := t.tier, objs := t.objs }))
      ∧ Completes (.query agent reserved) s (fun t =>
        (code 9 ≠ sOk → refused t 9)
        ∧ (∀ o, code 9 = sOk → s.obj id = some o → t.tier.infoPins = o.pins ∧ t.tier.info1 = BitVec.ofNat 32 o.tiles
          ∧ t.tier.cmds = s.tier.cmds ∧ t.tier.lastCode = sOk ∧ t = { s with tier := t.tier }))
      ∧ (∀ v : Word, Completes (.tierDoneAck agent v) s fun t =>
        t = { s with tier := { s.tier with done := if v.getLsbD 0 then s.tier.done.drop 1 else s.tier.done } }))

/-- MOVEMENT_START (R252–R254): the command that starts is the first in acceptance order that may; one on a pinned
object ends with E_OBJ_PINNED and leaves it as it is; DELETE ends the object; MARK_LOST marks it. Each ended command
is one completion entry. MOVEMENT_TILE and PATROL_SCRUB (R255, R257, R260): a tile of an object created in Clay writes
zeros and is one tile more; a source tile uncorrectable at both reads ends the movement with E_OBJ_LOST and marks the
object; a patrol corrects and counts, and records an uncorrectable word without aborting any bay. A command that does
not run moves nothing. -/
def Obligations.MovementsStartAndRun : Prop :=
  (∀ (s : State) (c : TierCmd), s.awake = true → s.tier.cmds.find? s.mayStart = some c →
      (∀ seq, seq ≠ c.seq → exec (.movementStart seq) s = .next s)
      ∧ Completes (.movementStart c.seq) s fun t =>
        (s.obj c.obj = none → t.tier.done = s.tier.done ++ [(c.seq, eNoSuchObject)] ∧ t.objs = s.objs)
        ∧ (∀ o, s.obj c.obj = some o → s.startCode c = eObjPinned → o.lostPending = false →
          t.tier.done = s.tier.done ++ [(c.seq, eObjPinned)] ∧ (c.op ≠ 1 → t.obj c.obj = some o))
        ∧ (∀ o, s.obj c.obj = some o → s.startCode c = sOk → c.op = 7 →
          t.tier.done = s.tier.done ++ [(c.seq, sOk)] ∧ t.obj c.obj = none)
        ∧ (∀ o, s.obj c.obj = some o → s.startCode c = sOk → c.op = 8 → o.lostPending = false →
          t.tier.done = s.tier.done ++ [(c.seq, sOk)] ∧ t.obj c.obj = some { o with lost := true })
        ∧ (∀ o, s.obj c.obj = some o → s.startCode c = sOk → c.op ≠ 7 → c.op ≠ 8 →
          let p := argPlacement s c.obj o c.arg3 c.arg4
          let n := mapSectors o.tiles
          (destTier c = .clay → placementCode s c.obj o p = sOk →
            (s.bay (argBay c.arg1)).clayUsed + p.granules ≤ (s.bay (argBay c.arg1)).plan.clayQuota →
            t = (s.chargeClay (argBay c.arg1) p.granules).setTierCmd
              { c with running := true, place := some p, clayCharge := p.granules })
          ∧ (∀ l, destTier c ≠ .clay → s.beyondQuota (destTier c) (State.ownerOf c.obj) n = false →
            s.allocate (s.inService (destTier c)) (c.obj % 2 ^ 26) 0 n = some l →
            t = (s.chargeSectors (destTier c) (State.ownerOf c.obj) n).setTierCmd
              { c with running := true, units := s.inService (destTier c), mapLoc := some l, sectorCharge := n }))
        ∧ (∀ x ∈ t.tier.cmds, x.running = true → x.seq = c.seq ∨ x ∈ s.tier.cmds)
        ∧ t = { s with bays := t.bays, tier := t.tier, objs := t.objs, live := t.live })
  ∧ ((∀ (s : State) (seq : Nat) (first second : TileRead), s.awake = true → Completes (.movementTile seq first second) s fun t =>
      ((∀ c ∈ s.tier.cmds, c.seq = seq → c.running = false) → t = s)
      ∧ (∀ c o p, s.tier.cmds = [c] → c.seq = seq → c.running = true → c.op = 1 → s.obj c.obj = some o → c.place = some p →
        let u := s.putTile (zeros (tileSize o.bytesKind o.fmt)) (s.tileTargets c.obj o p c.next)
        (c.next + 1 < o.tiles → t = u.setTierCmd { c with next := c.next + 1, badReads := 0 }
          ∧ t.tier.cmds = [{ c with next := c.next + 1, badReads := 0 }] ∧ t.obj c.obj = some o)
        ∧ (c.next + 1 = o.tiles → o.lostPending = false → t.tier.cmds = [] ∧ t.tier.done = s.tier.done ++ [(c.seq, sOk)]
          ∧ t.bricks = u.bricks
          ∧ t.obj c.obj = some { o with
            residence := destTier c, creating := false, place := some p, map := c.map, mapLoc := c.mapLoc
            charged := if destTier c = .clay then argBay c.arg1 else o.charged
            clayCharge := c.clayCharge, sectorCharge := c.sectorCharge }))
      ∧ (∀ c o b l m, s.tier.cmds = [c] → c.seq = seq → c.running = true → c.op = 3 → s.obj c.obj = some o →
        o.residence = .clay → c.place = none → first = [] → c.badReads = 0 → s.readTile c.obj o c.next = some b →
        let data := sieveEncode o.bytesKind o.fmt c.obj b
        let n := data.length / 64
        s.beyondQuota (destTier c) (State.ownerOf c.obj) n = false → s.allocate c.units (c.obj % 2 ^ 26) c.next n = some l →
        c.mapLoc = some m → (s.unit l.unit).held = false → (s.unit m.unit).held = false → c.next + 1 < o.tiles →
        let d := { c with next := c.next + 1, badReads := 0, map := c.map ++ [l], sectorCharge := c.sectorCharge + n }
        t = ((((s.corrected memCorr 0).chargeSectors (destTier c) (State.ownerOf c.obj) n).writeSectors l.unit l.first data).writeMapEntry
            d.map m).setTierCmd d)
      ∧ (∀ c o x y, s.tier.cmds = [c] → c.seq = seq → c.running = true → c.op = 3 → s.obj c.obj = some o → o.residence = .clay →
        o.lostPending = false → (x, .uncorrectable) ∈ first → (y, .uncorrectable) ∈ second →
        t.tier.done = s.tier.done ++ [(c.seq, eObjLost)] ∧ t.tier.cmds = []
        ∧ (∃ u, t.obj c.obj = some u ∧ u.lost = true ∧ u.residence = .clay)))
    ∧ (∀ (s : State) (n unit : Nat) (found : Ecc), s.awake = true → unit < 65536 → Completes (.patrolScrub n unit found) s fun t =>
      (found = .clean → t = s)
      ∧ (∀ k, found = .corrected k → t = { s with live := t.live }
        ∧ (t.stat memCorr).toNat = min ((s.stat memCorr).toNat + k) 0xFFFFFFFF)
      ∧ (∀ off, found = .uncorrectable off → (t.stat memUncorr).toNat = min ((s.stat memUncorr).toNat + 1) 0xFFFFFFFF
        ∧ t = { s with tier := t.tier, mgmt := t.mgmt, rel := t.rel, pins := t.pins, live := t.live, out := t.out })))

/-- DDR_TRAINING_DONE, DQS_OSCILLATOR_READ, DDR_RETRAIN_DONE and MODULE_TEMP_READ (R269–R272, R278): a channel mapped
out before stays so, one Footing does not expect stays absent, one that trained serves at the common rate and one that did not is mapped out; the third
large drift in a row holds the channel for a retrain, which ends or maps it out; a hot module is marked, throttled and
mapped out at its temperatures. -/
def Obligations.DdrTrainingDriftAndTemperature : Prop :=
  (∀ (s : State) (rs : List DdrResult) (u : Nat), s.awake = true → s.boot.mortar = true → s.boot.ddrDone = false → u < 20 →
    Completes (.ddrTrainingDone rs) s fun t =>
      t.boot.ddrDone = true
      ∧ ((s.unit u).state = .mappedOut → t.unit u = s.unit u)
      ∧ ((s.unit u).state ≠ .mappedOut → s.footing.dramExpect.testBit u = false → (t.unit u).state = .absent)
      ∧ (∀ r, (s.unit u).state ≠ .mappedOut → s.footing.dramExpect.testBit u = true → rs[u]? = some r →
        (r.present = true → r.sidebandOk = true → r.trained = true → s.ddrRate rs ≠ 0 →
          (t.unit u).state = .inService ∧ (t.unit u).rate = s.ddrRate rs ∧ (t.unit u).capacity = 1207959552)
        ∧ ((r.present = false ∨ r.trained = false) → (t.unit u).state = .mappedOut))
      ∧ t = { s with units := t.units, ckpt := t.ckpt, boot := t.boot })
  ∧ (∀ (s : State) (u : Nat), s.awake = true → (s.unit u).state = .inService →
    let v := s.unit u
    (v.held = false → Completes (.dqsOscillatorRead u false) s fun t => t = s.setUnit u { v with drift := 0 })
    ∧ (v.held = false → Completes (.dqsOscillatorRead u true) s fun t =>
      (v.drift < 2 → t = s.setUnit u { v with drift := v.drift + 1 })
      ∧ (2 ≤ v.drift → t.unit u = { v with drift := 0, held := true } ∧ t = { s with units := t.units, live := t.live }
        ∧ (t.stat (chRetrain u)).toNat = min ((s.stat (chRetrain u)).toNat + 1) 0xFFFFFFFF))
    ∧ (v.held = true → Completes (.ddrRetrainDone u true) s fun t => t = s.setUnit u { v with held := false })
    ∧ (v.held = true → Completes (.ddrRetrainDone u false) s fun t =>
      (t.unit u).state = .mappedOut ∧ (t.unit u).cause = 1 ∧ t.rel.degraded.getLsbD 2 = true)
    ∧ (∀ q : Int, Completes (.moduleTempRead u q) s fun t =>
      (t.unit u).temp = q ∧ (t.unit u).hot = decide (340 ≤ q) ∧ (t.unit u).throttled = decide (380 ≤ q)
      ∧ (q < 420 → (t.unit u).state = .inService) ∧ (420 ≤ q → (t.unit u).state = .mappedOut ∧ (t.unit u).cause = 5)))

/-- A unit mapped out by an alert, the sideband, the PMIC, a failed bring-up, a CXL link or a fatal error (R270,
R275–R282): the unit takes the cause and is switched off, and the device is degraded. Four alerts, three failed
transfers' tries and fifteen Recovery entries leave it in service. A CXL port whose link and configuration are right
has its capacity found by the firmware, and is in service once Mortar runs and its memory is active. -/
def Obligations.UnitsAreMappedOut : Prop :=
  ∀ (s : State) (u : Nat), s.awake = true →
    let v := s.unit u
    let out (t : State) (cause : Nat) : Prop := (t.unit u).state = .mappedOut ∧ (t.unit u).cause = cause
      ∧ t.rel.degraded.getLsbD 2 = true ∧ t.pins.replaceReq = true ∧ .unitOff u ∈ t.out
      ∧ (∀ w, w ≠ u → t.unit w = s.unit w)
    (v.state = .inService →
      (∀ crc n, Completes (.ddrAlert u crc n) s fun t =>
        (n < 5 → t = { s with live := t.live }) ∧ (5 ≤ n → out t 1))
      ∧ (∀ n, u < 20 → Completes (.i3cTransfer u n) s fun t => (n < 4 → t = { s with live := t.live }) ∧ (4 ≤ n → out t 6))
      ∧ Completes (.pmicInterrupt u true) s (fun t => out t 4)
      ∧ Completes (.pmicInterrupt u false) s (fun t => t = s)
      ∧ Completes (.cxlFatalError u) s (fun t => out t 4)
      ∧ Completes (.cxlRecoveryEntry u) s (fun t =>
        (v.recoveries < 15 → t.unit u = { v with held := true, recoveries := v.recoveries + 1 })
        ∧ (15 ≤ v.recoveries → out t 5))
      ∧ Completes (.cxlRecoveryExit u) s (fun t => t = s.setUnit u { v with held := false, linkDown := false })
      ∧ Completes (.cxlLinkDown u) s (fun t => t = s.setUnit u { v with held := true, linkDown := true })
      ∧ (v.linkDown = true → Completes (.cxlLinkDownTimeout u) s fun t => out t 5)
      ∧ (v.linkDown = false → exec (.cxlLinkDownTimeout u) s = .next s))
    ∧ (v.state = .training →
      Completes (.memoryActiveTimeout u) s (fun t => out t 6)
      ∧ (∀ f, Completes (.cxlBringup u f) s fun t =>
        (f.linkUp = false → t = s.setUnit u {})
        ∧ (f.linkUp = true → (f.flit256 = false ∨ f.width < 8) → out t 1)
        ∧ (f.linkUp = true → State.cxlCause s.boot.mortar f = 0 → (f.memoryActive = false ∨ s.boot.mortar = false) →
          t = s.setUnit u { v with found := min f.volatileSectors (2 ^ 34) })
        ∧ (f.linkUp = true → State.cxlCause s.boot.mortar f = 0 → f.memoryActive = true → s.boot.mortar = true →
          (t.unit u).state = .inService ∧ (t.unit u).capacity = min f.volatileSectors (2 ^ 34)
          ∧ (t.unit u).found = min f.volatileSectors (2 ^ 34)
          ∧ (t.unit u).width = (if 16 ≤ f.width then 16 else 8)
          ∧ (f.rate64 = true → 16 ≤ f.width → t = { s with units := t.units }))))
    ∧ (v.state = .mappedOut ∨ v.state = .absent → exec (.cxlFatalError u) s = .next s ∧ exec (.memoryActiveTimeout u) s = .next s)

/-- CXL_READ_TIMEOUT, CXL_WRITE_TIMEOUT and CXL_RESPONSE (R282): a timed-out read spoils the movement's read, a
timed-out write ends it with E_TIER_IO; both count, the sixteenth of a census period mapping the port out; a clean
response changes nothing; one with an unknown tag is a partner violation. -/
def Obligations.CxlTimeoutsAndResponses : Prop :=
  ∀ (s : State) (u seq : Nat), s.awake = true → (s.unit u).state = .inService →
    let v := s.unit u
    let counted (t : State) (a : Nat) : Prop := (t.stat a).toNat = min ((s.stat a).toNat + 1) 0xFFFFFFFF
    let more (t : State) : Prop := (v.violations < 15 → t.unit u = { v with violations := v.violations + 1 })
      ∧ (15 ≤ v.violations → (t.unit u).state = .mappedOut ∧ (t.unit u).cause = 2)
    Completes (.cxlReadTimeout u seq) s (fun t => counted t (cxTimeout (u - 32)) ∧ more t
      ∧ (∀ c o, s.tier.cmds = [c] → c.seq = seq → c.running = true → s.obj c.obj = some o → State.sourceUnit c o = some u →
        v.violations < 15 → t.tier.cmds = [{ c with badReads := c.badReads + 1 }]))
    ∧ Completes (.cxlWriteTimeout u seq) s (fun t => counted t (cxTimeout (u - 32)) ∧ more t
      ∧ (∀ c o, s.tier.cmds = [c] → c.seq = seq → c.running = true → s.obj c.obj = some o →
        State.onUnit u c.map c.mapLoc = true → t.tier.cmds = [] ∧ t.tier.done = s.tier.done ++ [(seq, eTierIo)]))
    ∧ Completes (.cxlResponse u (.readData true) seq) s (fun t => counted t (cxPoison (u - 32)) ∧ more t)
    ∧ Completes (.cxlResponse u (.readData false) seq) s (fun t => t = s)
    ∧ Completes (.cxlResponse u .writeDone seq) s (fun t => t = s)
    ∧ Completes (.cxlResponse u .unknownTag seq) s (fun t => counted t (cxIoErr (u - 32)) ∧ t = { s with live := t.live, rel := t.rel })
    ∧ Completes (.cxlResponse u .malformed seq) s (fun t => counted t (cxIoErr (u - 32)) ∧ t = { s with live := t.live, rel := t.rel })

/-! ### The bond validator and the control space (02_course_clock.md, 04_brick_configuration.md) -/

/-- VALIDATE and VALIDATE_COMPLETE (R9, R105, R107, R108): a reserved field or a busy validator refuses; an accepted
one pins its object and runs; its end records the code of the check, counts, and marks the object validated on success
alone. A write that landed during it, or a tile that reads uncorrectable (log entry 126), makes it end with
E_BOND_DIGEST. While a unit holds the object's reads nothing changes. -/
def Obligations.ValidatorTakesOneObject : Prop :=
  (∀ (s : State) (agent reserved : Nat), s.coreUp agent = true →
    let v := s.validator
    let id := v.arg.toNat
    Completes (.validate agent reserved) s fun t =>
      (reserved ≠ 0 → t = { s with validator := { v with lastCode := eBadField } })
      ∧ (reserved = 0 → v.running ≠ none → t = { s with validator := { v with refused := true } })
      ∧ (reserved = 0 → v.running = none → s.obj id = none → t.validator.lastCode = eNoSuchObject ∧ t.validator.running = none
        ∧ t.validator.digest = v.digest ∧ t.validator.sectionValid = false ∧ t = { s with validator := t.validator, live := t.live }
        ∧ (t.stat bondCheckCount).toNat = min ((s.stat bondCheckCount).toNat + 1) 0xFFFFFFFF
        ∧ (t.stat bondCheckFail).toNat = min ((s.stat bondCheckFail).toNat + 1) 0xFFFFFFFF)
      ∧ (∀ o, reserved = 0 → v.running = none → s.obj id = some o → o.lost = true →
        t = { s with validator := { v with lastCode := eObjLost } })
      ∧ (∀ o, reserved = 0 → v.running = none → s.obj id = some o → o.lost = false → o.creating = false →
        t.validator = { v with running := some id, disturbed := false } ∧ t.obj id = some { o with devPins := o.devPins + 1 }
        ∧ t = { s with validator := t.validator, objs := t.objs }))
  ∧ (∀ (s : State) (read : ObjRead), s.awake = true → Completes (.validateComplete read) s fun t =>
    (s.validator.running = none → t = s)
    ∧ (∀ id, s.validator.running = some id → s.heldObj id = true → t = s)
    ∧ (∀ id, s.validator.running = some id → s.heldObj id = false →
      let r := s.checkObj id read
      let code := if s.validator.disturbed then eBondDigest else r.2.code
      t.validator.running = none ∧ t.validator.disturbed = false ∧ t.validator.lastCode = code
      ∧ (t.stat bondCheckCount).toNat = min ((s.stat bondCheckCount).toNat + 1) 0xFFFFFFFF
      ∧ (code ≠ sOk → t.validator.digest = s.validator.digest
        ∧ (t.stat bondCheckFail).toNat = min ((s.stat bondCheckFail).toNat + 1) 0xFFFFFFFF)
      ∧ (∀ o, code = sOk → r.1.obj id = some o →
        ∃ u, t.obj id = some u ∧ u.validated = some r.2.digest ∧ t.validator.digest = r.2.digest)
      ∧ (∀ x, x ≠ id → t.obj x = r.1.obj x)
      ∧ t = { r.1 with validator := t.validator, objs := t.objs, live := t.live }
      ∧ (∀ o, s.obj id = some o → o.residence = .clay → read = [] →
        r.1 = { s with live := r.1.live } ∧ ∀ a, r.1.stat a = s.stat a)))

/-- REGISTER_WRITE (R6, R7, R9, R32): an access that is not 32 bits wide, not aligned, reserved, or a write of the
management port has no effect but its count, its record and the core's fault; a write to a read-only register has none; a
low word is held and a high word takes both; a 1 clears an alarm bit and a 0 leaves it. A write to a control register is
the command its low bits name, with the rest as its reserved field, and one to a plain register keeps the bits that are
not reserved. -/
def Obligations.RegisterWritesByAccessCode : Prop :=
  ∀ (s : State) (agent addr : Nat) (v : Word), (s.coreUp agent = true ∨ s.awake = true ∧ agent = 32) →
    (∀ width, width ≠ 32 ∨ addr % 4 ≠ 0 ∨ s.regAt addr = none ∨ agent = 32 →
      Completes (.registerWrite agent addr width v) s fun t =>
        t = { s with ctlFaultAddr := t.ctlFaultAddr, live := t.live, out := t.out }
        ∧ t.out = (if agent < 32 then s.out ++ [.trap agent true] else s.out)
        ∧ t.ctlFaultAddr.toNat % 2 ^ 32 = addr % 2 ^ 32 ∧ t.ctlFaultAddr.getLsbD 47 = true
        ∧ (t.stat ctlFaultCount).toNat = min ((s.stat ctlFaultCount).toNat + 1) 0xFFFFFFFF)
    ∧ (agent < 32 →
      let w : Instr := .registerWrite agent addr 32 v
      let as (c : Instr) : Prop := exec w s = exec c s
      let kept (c : Nat) : Prop := (s.relay c).state = 0 ∨ (s.relay c).state = 3
      (s.regAt addr ≠ none → 0x20000 ≤ addr → (addr < 0x8500000 ∨ 0x8500100 ≤ addr) → (addr < 0x9500000 ∨ 0x9500100 ≤ addr) →
        exec w s = .next s)
      ∧ ((addr = 0x2018 ∨ addr = 0x200C ∨ addr = 0x7020 ∨ addr = 0xE020) → s.regAt addr ≠ none → exec w s = .next s)
      ∧ (∀ b, b < 64 → addr = 0x1000 + 0x20 * b → exec w s = .next s)
      ∧ (addr = 0x2004 → exec w s = .next { s with validator := { s.validator with arg := v } })
      ∧ (addr = 0x2008 → exec w s
        = .next { s with validator := { s.validator with refused := s.validator.refused && !v.getLsbD 1 } })
      ∧ (addr = 0xE028 → exec w s = .next { s with mgmt := { s.mgmt with alarm := s.mgmt.alarm &&& ~~~(v.setWidth 8) } })
      ∧ (addr = 0xF004 → exec w s = .next { s with power := { s.power with limit := v.toNat % 8192 } })
      ∧ (∀ b, b < 64 → addr = 0x1000 + 0x20 * b + 8 → exec w s = .next (s.setBay b { s.bay b with arg := v }))
      ∧ (∀ b, b < 64 → addr = 0x1000 + 0x20 * b + 4 →
        (v.toNat % 16 = 1 → as (.enable agent b (v.toNat / 16))) ∧ (v.toNat % 16 = 2 → as (.shutDown agent b (v.toNat / 16)))
        ∧ (v.toNat % 16 = 3 → as (.swap agent b (v.toNat / 16) s.tb.cycle)) ∧ (v.toNat % 16 = 4 → as (.load agent b (v.toNat / 16) s.tb.cycle))
        ∧ (v.toNat % 16 = 5 → as (.save agent b (v.toNat / 16) s.tb.cycle)) ∧ (v.toNat % 16 = 6 → as (.restore agent b (v.toNat / 16) []))
        ∧ (v.toNat % 16 = 7 → as (.clear agent b (v.toNat / 16))))
      ∧ (addr = 0x2000 → v.toNat % 4 = 1 → as (.validate agent (v.toNat / 4)))
      ∧ (∀ b, b < 64 → (addr = 0x3800 + 0x20 * b + 8 → as (.bayEpochWrite agent b false v)
          ∧ Completes w s fun t => t = { s with pairHold := t.pairHold } ∧ aget none t.pairHold (agent * 2 ^ 40 + addr) = some v)
        ∧ (addr = 0x3800 + 0x20 * b + 12 → as (.bayEpochWrite agent b true v)))
      ∧ (∀ c, c < 32 → addr = 0x5000 + 0x40 * c →
        (v.toNat % 8 = 1 → as (.openIn agent c (v.toNat / 8))) ∧ (v.toNat % 8 = 2 → as (.openOut agent c (v.toNat / 8)))
        ∧ (v.toNat % 8 = 3 → as (.closeChannel agent c (v.toNat / 8)))
        ∧ (v.toNat % 8 = 4 → as (.splice agent c (v.toNat / 8) (relayPeerDev (s.relay c)) (relayPeerCh (s.relay c)) (s.relay c).start.toNat)))
      ∧ (∀ c, c < 32 → addr = 0x5000 + 0x40 * c + 12 →
        (kept c → exec w s = .next (s.setRelay c { s.relay c with object := v }))
        ∧ (¬ kept c → exec w s = .next (s.setRelay c { s.relay c with badWrite := true })))
      ∧ (addr = 0x7000 →
        (v.toNat % 16 = 1 → as (.create agent (v.toNat / 16))) ∧ (v.toNat % 16 = 2 → as (.promote agent (v.toNat / 16)))
        ∧ (v.toNat % 16 = 3 → as (.evict agent (v.toNat / 16))) ∧ (v.toNat % 16 = 4 → as (.migrate agent (v.toNat / 16)))
        ∧ (v.toNat % 16 = 5 → as (.pin agent (v.toNat / 16))) ∧ (v.toNat % 16 = 6 → as (.unpin agent (v.toNat / 16)))
        ∧ (v.toNat % 16 = 7 → as (.delete agent (v.toNat / 16))) ∧ (v.toNat % 16 = 8 → as (.markLost agent (v.toNat / 16)))
        ∧ (v.toNat % 16 = 9 → as (.query agent (v.toNat / 16))))
      ∧ (∀ i, i < 5 → addr = 0x7004 + 4 * i → let kept : Nat := if i = 1 then 2 ^ 13 else if i = 4 then 4096 else 2 ^ 32
        exec w s = .next { s with tier := { s.tier with args := s.tier.args.set i (BitVec.ofNat 32 (v.toNat % kept)) } })
      ∧ (addr = 0x7024 → as (.tierDoneAck agent v))
      ∧ (∀ b, b < 64 → addr = 0xA100 + 4 * b → as (.wslotWrite agent b v))
      ∧ (addr = 0xC020 → as (.watchdogKick agent v))
      ∧ (∀ k, k < 2 → addr = 0x8500050 + 0x1000000 * k → s.regAt addr ≠ none →
        (v.toNat % 4 = 1 → as (.openImage agent k (v.toNat / 4))) ∧ (v.toNat % 4 = 2 → as (.acceptImage agent k (v.toNat / 4)))
        ∧ (v.toNat % 4 = 3 → as (.checkImage agent k (v.toNat / 4))))
      ∧ (∀ k, k < 2 → addr = 0x8500054 + 0x1000000 * k → (k == 1) = s.boot.primaryS → s.regAt addr ≠ none →
        exec w s = .next { s with cs := { s.cs with wopenArg := v } }))

/-! ### Attention, the optimiser and the steps of a job (12_attention.md, 13_training.md) -/

/-- ATTEND, BACKWARD, MERGE and MERGE_COMBINE (R286, R290, R295–R305): a record of another command, or none, changes
nothing. The record at work first writes the outputs it still has, and stalls at one whose stream has no buffer; with
its last output written the engine has done with it. One whose checks fail is refused, with its code, brick and sequence
in the bay's attention registers. A record whose out streams have their buffers runs to its end; one without turns to
its output and stalls there. MERGE takes a partial of the record that completes the set, and counts the cycles it waits
for one; MERGE_COMBINE waits for the set. -/
def Obligations.AttentionRecords : Prop :=
  ∀ (s : State) (b n cycles : Nat) (ecc : Ecc), s.Running b n →
    let k := s.brick n
    (s.workOf b n = none →
      exec (.attend n ecc) s = .next s ∧ exec (.backward n ecc) s = .next s ∧ exec (.merge n cycles ecc) s = .next s
      ∧ exec (.mergeCombine n) s = .next s)
    ∧ (∀ h r, s.workOf b n = some (h, r) →
      let code := recordCode k.conf r (s.headerOf b n r)
      let ready := s.slotReady n r.out = true ∧ (r.stats = true → s.slotReady n r.statsOut = true ∧ r.statsOut ≠ r.out)
      let runs (t : State) : Prop := (ready → (t.brick n).working = false ∧ (t.brick n).partials = []
          ∧ (k.refused = false → (t.stat (attRecords b)).toNat = min ((s.stat (attRecords b)).toNat + 1) 0xFFFFFFFF
            ∧ ((t.brick n).stream r.out).count = (k.stream r.out).count + 1))
        ∧ (s.slotReady n r.out = false → (t.brick n).working = true ∧ (t.brick n).outWait.contains r.out = true)
      let does (c : Instr) (mine : Prop) (P : State → Prop) : Prop :=
        (¬ mine → exec c s = .next s)
        ∧ (mine → Completes c s fun t =>
          (∀ j rest, k.outJobs = j :: rest →
            (s.slotReady n j.stream = false → t = s.stallOut n j.stream)
            ∧ (s.slotReady n j.stream = true → rest = [] →
              (t.brick n).working = false ∧ (t.brick n).outJobs = [] ∧ (t.brick n).refused = false))
          ∧ (k.outJobs = [] → code ≠ sOk →
            ((t.brick n).working = false ∨ (t.brick n).refused = true ∧ (t.brick n).outJobs ≠ [])
            ∧ (t.bay b).attInfo.toNat
              = code.toNat + 65536 * (if r.kind ≤ 3 then r.kind else 0) + 262144 * (n % 4096) + 2 ^ 31
            ∧ (t.bay b).attSeq = BitVec.ofNat 32 r.seq)
          ∧ (k.outJobs = [] → code = sOk → P t))
      does (.attend n ecc) (r.kind ≠ 2 ∧ r.kind ≠ 3) (fun t => runs t ∧ t = (s.attend b n h r).consumeEcc b n .column 0 ecc)
      ∧ does (.backward n ecc) (r.kind = 2) (fun t => runs t ∧ t = (s.backward b n h r).consumeEcc b n .column 0 ecc)
      ∧ does (.merge n cycles .clean) (r.kind = 3) (fun t =>
        (State.partialsWhole k r = true → t = s)
        ∧ (State.partialsWhole k r = false → s.matchingPartial b n r = none → t = s.count (attMergeWait b) cycles)
        ∧ (∀ q, State.partialsWhole k r = false → s.matchingPartial b n r = some q →
          let p := s.readBuffer b n q 0 (320 + 4 * r.dim * r.rows)
          let part := fieldLE p 8 1
          fieldLE p 9 1 + 1 = r.n → fieldLE p 10 1 + 1 = r.rows → fieldLE p 11 1 + 1 = r.k → part < r.n →
          aget [] k.partials part = [] → (∀ y, y < r.n → y ≠ part → aget [] k.partials y ≠ []) →
            aget [] (t.brick n).partials part = p ∧ State.partialsWhole (t.brick n) r = true
            ∧ (t.brick n).partialHandles = k.partialHandles ++ [q] ∧ (t.brick n).working = true))
      ∧ does (.mergeCombine n) (r.kind = 3) (fun t =>
        (State.partialsWhole k r = false → t = s) ∧ (State.partialsWhole k r = true → runs t ∧ t = s.mergeAll b n r)))

/-- ADAMW and MOMENTUM (R327, R328): a tile is updated once the record, of the command's kind, and its source tiles
have come: 1,024 elements are counted and the source tiles are taken; a refused record takes its tiles, writes
nothing, is counted once and marks the turn. Without them nothing happens. An element whose moments or master value
are a NaN or an infinity keeps its values. STEP_RERUN (R310, R311): after an abort every stopped learner bay takes the
epoch of the step again and no longer shows the abort; every other bay stays as it is. Without an abort nothing
changes. -/
def Obligations.OptimiserUpdatesTiles : Prop :=
  ((∀ x ∈ ([(Instr.adamw, false, 3), (Instr.momentum, true, 1)] : List ((Nat → Instr) × Bool × Nat)),
      ∀ (s : State) (b n : Nat), s.Running b n →
      let k := s.brick n
      Completes (x.1 n) s fun t =>
        ((functionOf k.conf ≠ 4 ∨ s.heldRecord b n 64 = none ∨ 16 ≤ k.results.length ∨ tileFor k 0 = none) → t = s)
        ∧ (∀ bs, s.heldRecord b n 64 = some bs → decide ((updateRecord bs).kind = 2) ≠ x.2.1 → t = s)
        ∧ (∀ bs g w m v, functionOf k.conf = 4 → s.heldRecord b n 64 = some bs → k.results.length < 16 →
          decide ((updateRecord bs).kind = 2) = x.2.1 →
          tileFor k 0 = some g → tileFor k 1 = some w → tileFor k 2 = some m → tileFor k x.2.2 = some v →
          (updateBad k.conf (updateRecord bs) = false →
            let es := g.codes.zipIdx.map fun y => updateElem (updateRecord bs) y.1 (w.codes.getD y.2 0) (m.codes.getD y.2 0)
              (v.codes.getD y.2 0)
            (t.brick n).prim = [] ∧ (t.brick n).updated = k.updated + 1024
            ∧ (∃ more, (t.brick n).results = k.results ++ resultFor k.conf g.tag
                (if (updateRecord bs).writeGen then [1, 4, 5] else [1, 4]) (es.map (·.w))
              ++ resultFor k.conf g.tag [2] (es.map (·.m)) ++ more
              ∧ ((updateRecord bs).kind = 1 → ∃ rest, more = resultFor k.conf g.tag [3] (es.map (·.v)) ++ rest)
              ∧ ((updateRecord bs).kind ≠ 1 → ∀ y ∈ more, y.values = []))
            ∧ (t.stat (optSkipped b)).toNat
              = min ((s.stat (optSkipped b)).toNat + (es.filter (·.skipped)).length) 0xFFFFFFFF
            ∧ (t.stat (optElements b)).toNat = min ((s.stat (optElements b)).toNat + 1024) 0xFFFFFFFF)
          ∧ (updateBad k.conf (updateRecord bs) = true → (t.brick n).prim = []
            ∧ (k.updated = 0 → t.turn = { s.turn with optRefusedSeen := true }
              ∧ (t.stat (optRefused b)).toNat = min ((s.stat (optRefused b)).toNat + 1) 0xFFFFFFFF)
            ∧ (k.updated ≠ 0 → t = { s with bricks := t.bricks })))
        ∧ (∀ y, y ≠ n → t.brick y = s.brick y) ∧ t = { s with bricks := t.bricks, turn := t.turn, live := t.live })
    ∧ (∀ (r : UpdateRecord) (g w m v : Nat),
      ((decodeFmt 1 m).isNan = true ∨ (decodeFmt 1 m).isInf = true ∨ (decodeFmt 1 w).isNan = true ∨ (decodeFmt 1 w).isInf = true) →
      let e := updateElem r g w m v
      e.w = w ∧ e.m = m ∧ e.v = v ∧ e.skipped = true ∧ e.flags &&& flInvalid = flInvalid))
  ∧ (∀ s : State, s.awake = true → Completes .stepRerun s fun t =>
      (s.stepAborted = false → t = s)
      ∧ (∀ b, s.stepAborted = true → b < 64 → (s.bay b).plan.role = 4 → (s.bay b).state = .stopped →
        t.bay b = { s.bay b with epoch := BitVec.ofNat 64 s.stepNow, epochNext := none, abortObj := none, lastCode := sOk })
      ∧ (∀ b, ((s.bay b).plan.role ≠ 4 ∨ (s.bay b).state ≠ .stopped) → t.bay b = s.bay b)
      ∧ t = { s with bays := t.bays, turn := { s.turn with optRefusedSeen := t.turn.optRefusedSeen } })

/-- CKPT_WRITE, CKPT_DATA, CKPT_ACK and CKPT_TIMEOUT (R332–R334): a checkpoint that fits goes out once and waits for
every destination; one too large for the buddy's slot fails with E_CKPT_SPACE; one whose source is uncorrectable is not
begun (log entry 125); the last acknowledgement completes it and ends the hold; any other changes nothing; the limit
ends it with E_CKPT_PEER and counts the failure. Data of a source this device keeps no slot for changes nothing; a
header begins its slot, and the committed one is acknowledged. -/
def Obligations.CheckpointsToTheBuddy : Prop :=
  ∀ s : State, s.awake = true →
    let k := s.ckpt
    (∀ objs reads, s.footing.train.enable = true → Completes (.ckptWrite objs reads) s fun t =>
      let r := s.ckptBody objs reads
      let failed (code : Code) : Prop := t.ckpt = { r.1.ckpt with lastCode := code, sending := r.1.turn.step }
        ∧ (t.stat ckptFail).toNat = min ((r.1.stat ckptFail).toNat + 1) 0xFFFFFFFF
      ((s.ckptDests = [] ∨ s.system.spare = true ∨ s.turn.step ≤ k.sending ∨ 2 ≤ k.state ∨ objs.any s.heldObj = true) → t = s)
      ∧ (s.ckptDests ≠ [] → s.system.spare = false → k.sending < s.turn.step → k.state < 2 → objs.any s.heldObj = false →
        (r.2 = none → failed eStepAbort ∧ t = { r.1 with ckpt := t.ckpt, live := t.live })
        ∧ (∀ body, r.2 = some body →
          let img := r.1.ckptImage body 1
          (r.1.ckptTooBig img.2 = true → failed eCkptSpace ∧ t.rel.degraded.getLsbD 8 = true)
          ∧ (r.1.ckptTooBig img.2 = false → ∀ d, s.ckptDests = [d] → t = { r.1.sendSlot d.1 d.2
              (State.ckptMessages img.1 img.2 (r.1.ckptImage body 2).1) with ckpt := t.ckpt })
          ∧ (r.1.ckptTooBig img.2 = false → t.ckpt = { r.1.ckpt with
            state := 3, sending := r.1.turn.step, sendTick := r.1.tb.up, awaiting := s.ckptDests.map (·.1) })
          ∧ t = { r.1 with ckpt := t.ckpt, ports := t.ports, mgmt := t.mgmt, rel := t.rel, pins := t.pins, live := t.live
                           out := t.out })))
    ∧ (∀ source offset data, s.writingSlot source = none → s.fetchingFrom ≠ some source →
      (offset ≠ 0 ∨ fieldLE data 0 4 ≠ State.ckptMagic) → exec (.ckptData source offset data) s = .next s)
    ∧ (∀ source offset data i, s.writingSlot source = some i → (offset ≠ 0 ∨ fieldLE data 0 4 ≠ State.ckptMagic) →
      (32 ≤ i ∨ offset + data.length / 64 ≤ s.slotSectors) →
      exec (.ckptData source offset data) s = .next (s.writeSlotData i offset data))
    ∧ (∀ source data i, s.fetchingFrom ≠ some source → fieldLE data 0 4 = State.ckptMagic →
      s.slotFor source (fieldLE data 8 8) = some i → data.length / 64 ≤ s.slotSectors →
      Completes (.ckptData source 0 data) s fun t =>
        let begun : CkptSlot := { state := fieldLE data 6 1, step := fieldLE data 8 8, source := source }
        (fieldLE data 6 1 = 1 → t = (s.setSlot i begun).writeSlotData i 0 data ∧ t.slot i = begun)
        ∧ (fieldLE data 6 1 = 2 → t = ((s.setSlot i { begun with data := (s.slot i).data }).writeSlotData i 0 data).sendVia
            none 0 source { typ := 0x21, arg := fieldLE data 8 8 % 2 ^ 32 } [] ∧ (t.slot i).state = 2)
        ∧ (∀ j, j ≠ i → t.slot j = s.slot j))
    ∧ (∀ source low, Completes (.ckptAck source low) s fun t =>
      ((k.state ≠ 3 ∨ k.awaiting.contains source = false ∨ low ≠ BitVec.ofNat 32 k.sending) → t = s)
      ∧ (k.state = 3 → k.awaiting.contains source = true → low = BitVec.ofNat 32 k.sending →
        (k.awaiting.erase source ≠ [] → t = { s with ckpt := { k with awaiting := k.awaiting.erase source } })
        ∧ (k.awaiting.erase source = [] → t = { s with ckpt := t.ckpt, live := t.live }
          ∧ t.ckpt = { k with state := 1, awaiting := [], sent := k.sending, lastCode := sOk, holding := false, peerFails := 0 }
          ∧ (t.stat ckptWrites).toNat = min ((s.stat ckptWrites).toNat + 1) 0xFFFFFFFF)))
    ∧ Completes .ckptTimeout s fun t =>
      ((k.state < 2 ∨ s.tb.up < k.sendTick + s.footing.train.ckptTimeout) → t = s)
      ∧ ((k.state = 2 ∨ k.state = 3) → k.sendTick + s.footing.train.ckptTimeout ≤ s.tb.up →
        t = { s with ckpt := t.ckpt, mgmt := t.mgmt, live := t.live, out := t.out }
        ∧ t.ckpt = { k with state := 1, awaiting := [], lastCode := eCkptPeer, peerFails := k.peerFails + 1 }
        ∧ (t.stat ckptFail).toNat = min ((s.stat ckptFail).toNat + 1) 0xFFFFFFFF ∧ t.mgmt.alarm.getLsbD 4 = true)

/-! ### Serving (15_serving.md) -/

/-- ETHERNET_FRAME, NEIGHBOR_SOLICITATION, NEIGHBOR_ADVERTISEMENT and SERVICE_PORT_LINK_CHANGE (R365, R388): a frame
the port has no room for, or that its checks discard, is counted; a service frame is handed on; a solicitation of the
port's own address is answered; the gateway's advertisement resolves it; the link's state follows the port. -/
def Obligations.ServicePortFrames : Prop :=
  ∀ (s : State) (e : Nat), s.awake = true → e < 2 → s.footing.present = true →
    (∀ frame full, Completes (.ethernetFrame e frame full) s fun t =>
      ((full = true ∨ s.classify e frame = .drop) → t = { s with rel := t.rel, live := t.live }
        ∧ (t.stat (svRxDrop e)).toNat = min ((s.stat (svRxDrop e)).toNat + 1) 0xFFFFFFFF)
      ∧ (∀ addr udp payload, full = false → s.classify e frame = .service addr udp payload →
        t = { s with out := s.out ++ [.service e addr udp payload] })
      ∧ (full = false → s.classify e frame = .neighbour → t = s))
    ∧ (∀ source target mac, Completes (.neighborSolicitation e source target mac) s fun t =>
      (target = s.serviceAddr e → t = { s with out := s.out ++ [.advert e source] })
      ∧ (target ≠ s.serviceAddr e → t = s))
    ∧ (∀ source target mac, Completes (.neighborAdvertisement e source target mac) s fun t =>
      (source = s.serviceGateway e → target = s.serviceGateway e →
        t = s.setSvPort e { s.svPort e with gwResolved := true, gwMac := mac })
      ∧ ((source ≠ s.serviceGateway e ∨ target ≠ s.serviceGateway e) → t = s))
    ∧ (∀ up, Completes (.servicePortLinkChange e up) s fun t => t = s.setSvPort e { s.svPort e with linkUp := up })

/-- HELLO, RECORD and CONFIRM (R367–R369, R373): a HELLO of 116 bytes within the 64 of its address and period opens a
session that is not yet open, or is rejected with the first code that applies, or waits for the DRBG; a record of no session, one whose tag
fails, and a replayed one are counted and not taken; one that opens is kept for its command; CONFIRM opens the session
or closes it. -/
def Obligations.SessionsOpenAndTakeRecords : Prop :=
  ∀ (s : State) (e addr udp : Nat) (f : Bytes), s.awake = true → e < 2 → s.footing.present = true →
    let counted (t : State) (a : Nat) : Prop := (t.stat a).toNat = min ((s.stat a).toNat + 1) 0xFFFFFFFF
    Completes (.hello e addr udp f) s (fun t =>
      (frameType f ≠ 1 → t = s)
      ∧ (frameType f = 1 → (frameOk f = false ∨ f.length ≠ 116) →
        counted t (svRxDrop e) ∧ t = { s with rel := t.rel, live := t.live })
      ∧ (frameType f = 1 → frameOk f = true → f.length = 116 →
        (64 ≤ aget 0 (s.svPort e).hellos addr → counted t (svHandshakeFail e) ∧ t.serving.sessions = s.serving.sessions)
        ∧ (aget 0 (s.svPort e).hellos addr < 64 → s.cs.akReady = true → s.drbgServes (e == 1) = false →
          (t.svPort e).waiting = (s.svPort e).waiting ++ [(addr, udp, f)] ∧ t.out = s.out)
        ∧ (aget 0 (s.svPort e).hellos addr < 64 → s.cs.akReady = true → s.drbgServes (e == 1) = true →
          let code := s.helloCode e addr (f.drop 20) ((s.drawBytes 96).take 56)
          (code ≠ sOk → counted t (svHandshakeFail e) ∧ t.serving.sessions = s.serving.sessions
            ∧ t.out = s.out ++ [.datagram e addr udp (frameHead 3 28 0 0 ++ leBytes 2 code.toNat ++ zeros 6)])
          ∧ (code = sOk → ∃ v, t.serving.sessions = s.serving.sessions ++ [v] ∧ v.isOpen = false ∧ v.port = e
            ∧ v.addr = addr ∧ v.udp = udp ∧ v.channel = fieldLE (f.drop 20) 88 1 ∧ v.acceptTick = s.tb.up ∧ v.txSeq = 0
            ∧ (s.destAllowed v.channel addr udp = true → ∃ x, t.out = s.out ++ [.datagram e addr udp x]
              ∧ x.take 20 = frameHead 2 260 v.id 0))))
      ∧ t = { s with serving := t.serving, rel := t.rel, live := t.live, out := t.out, freeCtr := t.freeCtr })
    ∧ (frameType f = 0x10 → frameOk f = true → Completes (.record e addr udp f) s fun t =>
      let id := fieldLE f 4 8
      let seq := fieldLE f 12 8
      (s.sess e id = none → counted t (svRxDrop e) ∧ t = { s with rel := t.rel, live := t.live })
      ∧ (∀ v, s.sess e id = some v →
        match gcmOpen v.rxKey (recNonce v.rxIv seq) (f.take 20) (slice f 20 (f.length - 36)) (f.drop (f.length - 16)) with
        | none => counted t (svAuthFail e)
          ∧ (v.tagFails ≠ 15 → t.sess e id = some { v with tagFails := v.tagFails + 1 }) ∧ (v.tagFails = 15 → t.sess e id = none)
        | some r =>
          ((v.rxHigh ≠ 0 ∧ seq + 64 < v.rxHigh ∨ seq ∈ v.rxSeen) →
            counted t (svReplay e) ∧ t = { s with rel := t.rel, live := t.live })
          ∧ (seq + 64 ≥ v.rxHigh → seq ∉ v.rxSeen → v.isOpen = true → State.recordFault r = none → 2 ≤ fieldLE r 0 1 →
            fieldLE r 0 1 < 8 → max v.rxHigh (seq + 1) < 2 ^ 32 →
            t.sess e id = some { v with
              rxHigh := max v.rxHigh (seq + 1), rxSeen := (seq :: v.rxSeen).take 64, lastFrame := s.tb.up
              addr := addr, udp := udp, inbox := v.inbox ++ [r] })))
    ∧ (∀ id v r u, s.takeOp e id 1 = some (v, r, u) → Completes (.confirm e id) s fun t =>
      let good : Prop := if s.footing.clientAuth = true then
          ∃ k ∈ s.footing.clients, s.footing.clients.find? (fun x => x.1 == fieldLE (r.drop 12) 0 1) = some k
            ∧ (r.drop 12).length = 115 ∧ edVerify k.2 "Gnolis client" v.h ((r.drop 12).drop 1) = true
        else r.drop 12 = [0xFF]
      (good → (∃ w, t.sess e id = some w ∧ w.isOpen = true ∧ w.h = v.h) ∧ t = { s with serving := t.serving })
      ∧ (¬ good → t.sess e id = none ∧ counted t (svHandshakeFail e)))

/-- SUBMIT, CANCEL, RESEND, ACK, REPORT_REQ and CLOSE of an open session (R370–R372, R381): an accepted request joins
the end of its class queue; a refused one joins none; a cancel is held to the next boundary; a finished request's
output is released by its ACK; an accepted report request waits in the attestation queue; CLOSE ends the session. -/
def Obligations.SessionRecordsAct : Prop :=
  ∀ (s : State) (e id op : Nat) (v : Session) (r : Bytes) (u : State),
    s.awake = true → s.takeOp e id op = some (v, r, u) → v.isOpen = true → v.txSeq + 2 < 2 ^ 32 →
    let req := fieldLE r 4 4
    let q := State.submitFields v req (r.drop 12)
    let queues (t : State) : Prop := ∀ m c, t.queue m c = s.queue m c
    (op = 2 → Completes (.submit e id) s fun t =>
      (s.request e id req = none → s.submitCode v (r.drop 12) q = sOk →
        t.serving.requests = s.serving.requests ++ [q] ∧ t.queue q.model q.cls = s.queue q.model q.cls ++ [(e, id, req)])
      ∧ (s.request e id req = none → s.submitCode v (r.drop 12) q ≠ sOk →
        t.serving.requests = s.serving.requests ∧ queues t)
      ∧ t = { s with serving := t.serving, live := t.live, out := t.out })
    ∧ (op = 3 → Completes (.cancelReq e id) s fun t =>
      (∀ x, s.request e id req = some x → r.length = 12 → x.stage ≠ .ended →
        t = u.setReq { x with cancel := true } ∧ queues t)
      ∧ ((s.request e id req = none ∨ r.length ≠ 12) → t.serving.requests = s.serving.requests ∧ queues t)
      ∧ t = { s with serving := t.serving, live := t.live, out := t.out })
    ∧ (op = 4 → Completes (.resend e id) s fun t =>
      (s.request e id req = none → t = u.sendStatus e id req 0 eReqUnknown)
      ∧ (∀ x, s.request e id req = some x → r.length = 16 → x.cuts = [] →
        (x.stage ≠ .ended → t = u) ∧ (x.stage = .ended → t = u.sendDone x))
      ∧ t = { s with serving := t.serving, live := t.live, out := t.out })
    ∧ (op = 5 → Completes (.ackReq e id) s fun t =>
      (∀ x, s.request e id req = some x → r.length = 12 → x.stage = .ended →
        t.request e id req = none ∧ t = { s with serving := t.serving })
      ∧ (∀ x, s.request e id req = some x → r.length = 12 → x.stage ≠ .ended → t = u))
    ∧ (op = 6 → Completes (.reportReq e id) s fun t =>
      (s.kindAllowed v.channel 2 = true → r.length = 44 → s.reportRoom = true →
        t.cs.reports.length = s.cs.reports.length + 1 ∧ t = { s with serving := u.serving, cs := t.cs })
      ∧ ((s.kindAllowed v.channel 2 = false ∨ r.length ≠ 44 ∨ s.reportRoom = false) → t.cs = s.cs))
    ∧ (op = 7 → Completes (.closeRecord e id) s fun t =>
      t.sess e id = none ∧ (∀ x ∈ t.serving.requests, x.port = e → x.session = id → x.cancel = true)
      ∧ queues t ∧ t = { s with serving := t.serving })

/-- CONFIRM_TIMEOUT, SESSION_IDLE_TIMEOUT and OUTPUT_RETAIN_TIMEOUT (R369, R372): a session not confirmed within 2^20
ticks, one idle for the configured ticks, and the output of a request kept for its ticks are removed; before that
nothing changes. SERVING_STEP_BOUNDARY (R375, R378–R380, R382, R383): at a bay of no serving group nothing changes; at
the boundary of a decode bay the requests that run on it go on, on the weights of the bay, its draw epoch stays 0, and a
request the step ran takes the tokens it produced, as far as they are delivered; at that of the only prefill bay
the head of a queue is admitted where batch and tokens have room, and stays where they have not. However many drafts are accepted, the
tokens of a step are those the large model gives one after another. The record of a token holds the lse of its row and
its log-probability (R347), and a greedy request takes the token no other ranks before (R378). -/
def Obligations.ServingLimitsAndStepBoundaries : Prop :=
  (∀ (s : State) (e id req : Nat), s.awake = true →
      Completes (.confirmTimeout e id) s (fun t =>
        (∀ v, s.sess e id = some v → v.isOpen = false → v.acceptTick + 2 ^ 20 ≤ s.tb.up →
          t.sess e id = none ∧ t = { s with serving := t.serving })
        ∧ (∀ v, s.sess e id = some v → (v.isOpen = true ∨ s.tb.up < v.acceptTick + 2 ^ 20) → t = s))
      ∧ Completes (.sessionIdleTimeout e id) s (fun t =>
        (∀ v, s.sess e id = some v → v.isOpen = true → v.lastFrame + s.footing.idleTicks ≤ s.tb.up →
          t.sess e id = none ∧ t = { s with serving := t.serving })
        ∧ (∀ v, s.sess e id = some v → (v.isOpen = false ∨ s.tb.up < v.lastFrame + s.footing.idleTicks) → t = s))
      ∧ Completes (.outputRetainTimeout e id req) s (fun t =>
        (∀ x, s.request e id req = some x → x.stage = .ended → x.endUp + s.footing.retainTicks ≤ s.tb.up →
          t.request e id req = none ∧ t = { s with serving := t.serving })
        ∧ (∀ x, s.request e id req = some x → (x.stage ≠ .ended ∨ s.tb.up < x.endUp + s.footing.retainTicks) → t = s)))
  ∧ (∀ (s : State) (bay batch toks : Nat) (rooms : List (Nat × Nat)), s.awake = true → bay < 64 →
      (∀ results, s.modelOfBay bay = none → exec (.servingStepBoundary bay batch toks rooms results) s = .next s)
      ∧ (∀ m x, s.modelOfBay bay = some (m, x) → (s.group m).moving = none → (s.group m).prefill.contains bay = false →
        Completes (.servingStepBoundary bay batch toks rooms []) s fun t =>
          (∀ c, t.queue m c = s.queue m c) ∧ t.serving.sessions = s.serving.sessions ∧ t.serving.groups = s.serving.groups
          ∧ (∀ e id req r, s.request e id req = some r → r.stage = .decode bay →
            (∀ y ∈ s.serving.requests, y.port = e → y.session = id → y.id = req → y = r) →
            ∃ q, t.request e id req = some q ∧ q.stage = .decode bay ∧ q.weights = s.bayWeights bay ∧ q.tokens = r.tokens)
          ∧ (t.bay bay).epoch = 0 ∧ (t.bay bay).epochNext = none ∧ t = { s with serving := t.serving, bays := t.bays })
      ∧ (∀ m x y r slot v, s.modelOfBay bay = some (m, x) → (s.group m).moving = none → (s.group m).prefill.contains bay = false →
        s.request y.port y.session y.request = some r → r.port = y.port → r.session = y.session → r.id = y.request →
        (∀ z ∈ s.serving.requests, z.port = y.port → z.session = y.session → z.id = y.request → z = r) →
        r.stage = .decode bay → s.modelSlot r.model = some slot → r.promptDone = r.prompt.length → r.deadline = 0 →
        r.cancel = false → y.aborted = false → s.sess y.port y.session = some v → v.txSeq + 3 < 2 ^ 32 →
        Completes (.servingStepBoundary bay batch toks rooms [y]) s fun t =>
          let d := State.deliverTokens r (min slot.context 1048576) (s.produced bay slot r y.proposed)
          ∃ q, t.request y.port y.session y.request = some q ∧ q.tokens = r.tokens ++ d.1
            ∧ (d.2 = false → q.stage = .decode bay) ∧ (d.2 = true → q.stage = .ended ∧ q.ending = sCompleted ∧ q.endTick = s.tb.tick))
      ∧ (∀ m x e id req r c, s.modelOfBay bay = some (m, x) → (s.group m).moving = none → (s.group m).prefill = [bay] →
        (s.group m).decode.length ≤ 1 → (∀ y ∈ s.serving.requests, y.stage = .queued) → c < 8 →
        (∀ d, d < 8 → s.queue m d = if d = c then [(e, id, req)] else []) → s.request e id req = some r →
        r.deadline = 0 → r.cancel = false →
        Completes (.servingStepBoundary bay batch toks rooms []) s fun t =>
          (0 < batch → r.prompt.length ≤ toks →
            (∃ q, t.request e id req = some q ∧ q.stage = .prefill bay ∧ q.prompt = r.prompt) ∧ t.queue m c = []
            ∧ (t.stat (srvAdmitted m c)).toNat = min ((s.stat (srvAdmitted m c)).toNat + 1) 0xFFFFFFFF)
          ∧ ((batch = 0 ∨ toks < r.prompt.length) → t.request e id req = some r ∧ t.queue m c = s.queue m c)))
  ∧ (∀ (large draft : Nat → List Word → TokenRec) (drafts n : Nat) (before : List Word),
      let ts := stepTokens large draft drafts n before
      1 ≤ ts.length ∧ ts.length ≤ drafts + 1
      ∧ (∀ i, i < ts.length → ts[i]? = some (large (n + i) (before ++ (ts.take i).map (·.id)))))
  ∧ (∀ (row : List SortPair) (c m : Nat), row.length ≤ 32 → (rowStep 1 1 0xFF800000 0 (row.map (·.value))).x = m → row ≠ [] →
      let l := (rowStep 1 1 0xFF800000 0 (row.map (·.value))).y
      let lse := (addOf 1 .nearestEven (decodeFmt 1 m) (decodeFmt 1 (boundedOf 1 fnLog l).code)).code
      let v := (row.getD c { value := 0, index := 0 }).value
      recordOfToken row c = { id := BitVec.ofNat 32 c, lse := BitVec.ofNat 32 lse
                              logprob := BitVec.ofNat 32 (addOf 1 .nearestEven (decodeFmt 1 v) (negVal (decodeFmt 1 lse))).code })
  ∧ (∀ (key : List Word) (r : Request) (n c : Nat) (row : List SortPair), r.greedy = true →
      row.map (·.index) = List.range row.length → c < row.length → chosenToken key r n row = c →
      ∀ i, i < row.length → ranksBefore false (row.getD i { value := 0, index := 0 }) (row.getD c { value := 0, index := 0 }) = false)

/-! ### Hethes ports and links (16_hethes_links.md) -/

/-- LINK_TRAINING, LINK_TRAINING_RETRY, LINK_RETRAIN_DONE, PORT_SIGNAL_LOSS and PORT_DOWN_TIMEOUT (R392, R414, R419):
eight lanes train a port, four make it narrow, any other count or a lost signal takes it down, to try again 2^20 ticks
on; a retrain sends every unacknowledged flit again; a torus port down for 256 ticks makes its neighbour suspect,
once. -/
def Obligations.PortsTrainAndGoDown : Prop :=
  ∀ (s : State) (p : Nat), s.awake = true → p < 16 →
    let q := s.port p
    let down (t : State) : Prop := (t.port p).state = .down ∧ (t.port p).lastCode = eLinkDown
      ∧ (t.port p).nextTry = s.tb.up + 2 ^ 20 ∧ (t.port p).keyed = false ∧ (t.port p).peerValid = false
      ∧ t.rel.degraded.getLsbD 4 = true
    (∀ lanes, Completes (.linkTraining p lanes) s fun t =>
      ((q.state ≠ .training ∨ q.retraining = true) → t = s)
      ∧ (q.state = .training → q.retraining = false →
        (lanes ≠ 8 → lanes ≠ 4 → down t)
        ∧ ((lanes = 8 ∨ lanes = 4) → (t.port p).state = .handshake ∧ (t.port p).lanes = lanes
          ∧ (t.port p).lastCode = (if lanes = 4 then eLinkNarrow else sOk) ∧ (t.port p).retrains = q.retrains)
        ∧ (lanes = 4 → t.rel.degraded.getLsbD 3 = true)))
    ∧ Completes (.linkTrainingRetry p) s (fun t =>
      (q.state = .down → (s.portRole p).role ≠ 0 → s.footing.present = true → q.nextTry ≤ s.tb.up →
        t = s.setPort p { q with state := .training })
      ∧ ((q.state ≠ .down ∨ (s.portRole p).role = 0 ∨ s.tb.up < q.nextTry) → t = s))
    ∧ (∀ lanes, Completes (.linkRetrainDone p lanes) s fun t =>
      (q.retraining = false → t = s)
      ∧ (q.retraining = true →
        (lanes ≠ 8 → lanes ≠ 4 → down t)
        ∧ ((lanes = 8 ∨ lanes = 4) → (t.port p).state = (if q.peerValid then .up else .handshake)
          ∧ (t.port p).retraining = false ∧ (t.port p).lanes = lanes
          ∧ ∃ more, t.out = s.out ++ q.retry.map (fun e => Output.flit p e.bytes) ++ more)))
    ∧ Completes (.portSignalLoss p) s (fun t =>
      ((q.state = .handshake ∨ q.state = .up ∨ q.retraining = true) → down t)
      ∧ (q.state = .down → q.retraining = false → t = s))
    ∧ Completes (.portDownTimeout p) s (fun t =>
      (∀ d, 1 ≤ (s.portRole p).role → (s.portRole p).role ≤ 6 → q.state = .down → q.suspectSent = false →
        q.downSince = some d → d + 256 ≤ s.tb.up →
        (t.port p).suspectSent = true ∧ t = { s with ports := t.ports, live := t.live, out := t.out }
        ∧ (s.footing.cairns = false →
          let f := s.expectedPeer p
          t = State.sendMsg (s.setPort p { q with suspectSent := true })
            (if f = s.system.voteRoot then s.successorRoot f else s.system.voteRoot) { typ := 0x14, arg := f } []))
      ∧ ((q.state ≠ .down ∨ q.suspectSent = true ∨ q.downSince = none) → t = s))

/-- FLIT_CRC_FAIL, DATA_FLIT, CTRL_FLIT and NAK (R394, R396, R398): a flit that fails is counted, answered with a NAK,
and those after it discarded; one whose tag fails is counted and sent again; one in order is taken, and the message it ends
delivered; one that repeats is
acknowledged again; an acknowledgement frees the flits it covers; a NAK has every kept flit from its number on sent
again. -/
def Obligations.FlitsInOrderAndRetried : Prop :=
  ∀ (s : State) (p : Nat) (f : Bytes), s.awake = true → p < 16 → s.trained p = true →
    let q := s.port p
    let h := flitHdr f
    let bare : Prop := flitCrcOk f = true ∧ flitReservedZero f = true ∧ h.length ≤ 608 ∧ h.vc = 0 ∧ q.wait = []
    let nak (t : State) : Prop := ∃ r : FlitHdr, r.kind = 3 ∧ r.length = 2 ∧ r.vc = 0 ∧ r.dest = q.peerDev
      ∧ r.source = s.system.device ∧ t.out = s.out ++ [.flit p (flitBytes (flitHdrBytes r) (leBytes 2 q.rxFsn) [])]
    let failed (t : State) : Prop := nak t ∧ (t.port p).discarding = true ∧ (t.port p).rxFsn = q.rxFsn
      ∧ (t.stat (hxCrcErr p)).toNat = min ((s.stat (hxCrcErr p)).toNat + 1) 0xFFFFFFFF
    Completes (.flitCrcFail p) s (fun t => q.crcFails.length < 1023 → failed t)
    ∧ (f ≠ [] → Completes (.dataFlit p f 0) s fun t =>
      (flitCrcOk f = false → q.crcFails.length < 1023 → failed t)
      ∧ (bare → h.kind = 1 → (h.fsn + 4096 - q.rxFsn) % 4096 ≠ 0 → q.discarding = false →
        (2048 ≤ (h.fsn + 4096 - q.rxFsn) % 4096 → (t.port p).ackDue = true ∧ (t.port p).rxFsn = q.rxFsn ∧ t.out = s.out)
        ∧ ((h.fsn + 4096 - q.rxFsn) % 4096 < 2048 → (t.port p).discarding = true ∧ (t.port p).rxFsn = q.rxFsn
          ∧ nak t))
      ∧ (bare → h.kind = 1 → (h.fsn + 4096 - q.rxFsn) % 4096 = 0 → State.openFlit q f h.keyPhase = none →
        (s.stat (hxAuthFail p)).toNat < 15 → (t.port p).discarding = true ∧ (t.port p).rxFsn = q.rxFsn
          ∧ (t.stat (hxAuthFail p)).toNat = (s.stat (hxAuthFail p)).toNat + 1)
      ∧ (∀ x, bare → h.kind = 1 → (h.fsn + 4096 - q.rxFsn) % 4096 = 0 → State.openFlit q f h.keyPhase = some x →
        h.ackValid = false → h.creditValid = false → h.detour = false → h.dest = s.system.device → h.last = true →
        s.occupied p 0 + aget 0 q.owed 0 < 16 →
        let m := (aget none q.asm (h.source * 8 + h.member)).getD [] ++ x.1.take h.length
        (fieldLE m 0 1 = 0x10 → 16 ≤ m.length → fieldLE m 4 4 = m.length - 16 →
          t.out = s.out ++ [.delivered p h.source m] ∧ (t.port p).rxFsn = (q.rxFsn + 1) % 4096
          ∧ (t.port p).ackDue = true ∧ (t.port p).discarding = false
          ∧ (t.stat (hxRxFlits p)).toNat = min ((s.stat (hxRxFlits p)).toNat + 1) 0xFFFFFFFF
          ∧ t = { s with ports := t.ports, live := t.live, out := t.out })))
    ∧ (h.kind = 2 → Completes (.ctrlFlit p f) s fun t =>
      (flitCrcOk f = false → q.crcFails.length < 1023 → failed t)
      ∧ (∀ i, bare → h.ackValid = true → h.creditValid = false → q.retry.findIdx? (fun e => e.fsn == h.ack) = some i →
        (t.port p).retry = q.retry.drop (i + 1) ∧ (t.port p).retryRow = 0 ∧ t = { s with ports := t.ports }))
    ∧ (h.kind = 3 → Completes (.nak p f) s fun t =>
      (∀ i, bare → h.ackValid = false → h.creditValid = false → q.retryRow < 15 →
        q.retry.findIdx? (fun e => e.fsn == fieldLE f 16 2 % 4096) = some i →
        t.out = s.out ++ (q.retry.drop i).map (fun e => Output.flit p e.bytes) ∧ (t.port p).retryRow = q.retryRow + 1
        ∧ (t.port p).retry = q.retry ∧ t = { s with ports := t.ports, live := t.live, out := t.out }))
    ∧ (h.kind ≠ 2 → exec (.ctrlFlit p f) s = .next s) ∧ (h.kind ≠ 3 → exec (.nak p f) s = .next s)

/-- BEACON, BEACON_SEND, DELAY_REQ, DELAY_REQ_SEND and DELAY_RESP (R41, R411, R412): only a beacon of the upstream
port in LOCKED or HOLDOVER moves the time base; beacons go out on every trained port at ticks that are multiples of
1,024 and delay requests at those of 16,384; a request is answered; a measured delay of 0 to 10 µs is kept. -/
def Obligations.BeaconsAndDelays : Prop :=
  ∀ (s : State) (p : Nat) (f : Bytes) (sub sub2 : Nat), s.awake = true → p < 16 →
    let q := s.port p
    let h := flitHdr f
    let b := slice f 16 608
    let bare : Prop := flitCrcOk f = true ∧ flitReservedZero f = true ∧ h.length ≤ 608 ∧ h.vc = 0 ∧ h.ackValid = false
      ∧ h.creditValid = false ∧ q.wait = []
    (h.kind = 4 → Completes (.beacon p f sub) s fun t =>
      ((s.trained p = false ∨ flitCrcOk f = false ∨ s.footing.timeSource ≠ 2 ∨ s.footing.present = false ∨ (fieldLE b 12 1 ≠ 2 ∧ fieldLE b 12 1 ≠ 3)
        ∨ 62 < fieldLE b 13 1 ∨ q.delayTick = none ∨ s.upstreamPort p = none) → t.tb = s.tb)
      ∧ (∀ i d, s.trained p = true → bare → s.footing.timeSource = 2 → s.footing.present = true →
        (fieldLE b 12 1 = 2 ∨ fieldLE b 12 1 = 3) → fieldLE b 13 1 ≤ 62 → q.delayTick = some d → s.tb.up < d + 2 ^ 16 →
        s.upstreamPort p = some i →
        t.tb.upIndex = i ∧ t.tb.upstream = p ∧ t.tb.depth = fieldLE b 13 1 ∧ t.tb.lastBeacon = t.tb.up
        ∧ t.tb.traceable = (b.getD 14 0).getLsbD 0))
    ∧ Completes (.beaconSend sub) s (fun t =>
      (s.tb.tick % 1024 ≠ 0 → t = s)
      ∧ (s.tb.tick % 1024 = 0 → t.out.length = s.out.length + ((List.range 16).filter s.trained).length
        ∧ (∀ q, q < 16 → s.trained q = true → ∃ g : FlitHdr, g.kind = 4
          ∧ Output.flit q (flitBytes (flitHdrBytes g) (s.beaconBody sub) []) ∈ t.out)
        ∧ t = { s with ports := t.ports, out := t.out }))
    ∧ (h.kind = 5 → Completes (.delayReq p f sub sub2) s fun t =>
      (s.trained p = true → bare → t = { s with ports := t.ports, out := t.out }
        ∧ ∃ g : FlitHdr, g.kind = 6 ∧ t.out = s.out ++ [.flit p (flitBytes (flitHdrBytes g)
          (slice f 16 12 ++ State.stamp s.tb.tick sub ++ State.stamp s.tb.tick sub2) [])])
      ∧ (s.trained p = false → t = s))
    ∧ Completes (.delayReqSend p sub) s (fun t =>
      ((s.trained p = false ∨ s.tb.tick % 16384 ≠ 0) → t = s)
      ∧ (s.trained p = true → s.tb.tick % 16384 = 0 → t = { s with ports := t.ports, out := t.out }
        ∧ ∃ g : FlitHdr, g.kind = 5 ∧ t.out = s.out ++ [.flit p (flitBytes (flitHdrBytes g) (State.stamp s.tb.tick sub) [])]))
    ∧ (h.kind = 6 → Completes (.delayResp p f sub) s fun t =>
      (∀ ps, s.trained p = true → bare → State.linkDelay b (s.tb.tick * 262144 + sub) = some ps →
        (t.port p).delay = min ps 0xFFFFFF ∧ (t.port p).delayTick = some s.tb.up ∧ t = { s with ports := t.ports })
      ∧ (s.trained p = true → bare → State.linkDelay b (s.tb.tick * 262144 + sub) = none →
        (t.stat (hxBadFlit p)).toNat = min ((s.stat (hxBadFlit p)).toNat + 1) 0xFFFFFFFF
        ∧ (t.port p).delay = q.delay))

/-- LINK_HELLO and REKEY (R402, R409, R410, R427): a hello that comes before this device's own is held; one that fails its
checks keeps the port out with its code; one that passes brings the port UP, an outer port with keys, and on an outer port
already UP readies the next keys; keys are renewed after 2^26 ticks or 2^36 flits and not before. While the DRBG of the
port's Keystone does not serve, the new hello waits. -/
def Obligations.HandshakesBringPortsUp : Prop :=
  ∀ (s : State) (p : Nat) (b : Bytes), s.awake = true → p < 16 →
    let q := s.port p
    Completes (.linkHello p b) s (fun t =>
      (q.state = .handshake → q.ownHello = [] → t = s.setPort p { q with peerHello := b })
      ∧ (q.state = .handshake → q.ownHello ≠ [] →
        (∀ c, s.helloFault p b = some c →
          (t.port p).state = .handshake ∧ (t.port p).lastCode = c ∧ (t.port p).peerValid = false
          ∧ (c = eLinkMiswire → t.mgmt.alarm.getLsbD 6 = true))
        ∧ (s.helloFault p b = none →
          (t.port p).state = .up ∧ (t.port p).peerDev = fieldLE b 0 2 ∧ (t.port p).peerValid = true
          ∧ (t.port p).lastCode = sOk ∧ (t.port p).downSince = none
          ∧ ((s.portRole p).outer = true → (t.port p).keyed = true
            ∧ (t.port p).tx = some (State.linkKeys q.ownHello b q.ownPriv).1
            ∧ (t.port p).rx = some (State.linkKeys q.ownHello b q.ownPriv).2 ∧ (t.port p).keyTick = s.tb.up)
          ∧ t = { s with ports := t.ports }))
      ∧ (q.state = .up → (s.portRole p).outer = true → q.peerHello = [] → q.ownHello ≠ [] → s.helloFault p b = none →
        (t.port p).state = .up ∧ (t.port p).txNext = some (State.linkKeys q.ownHello b q.ownPriv).1
        ∧ (t.port p).rxNext = some (State.linkKeys q.ownHello b q.ownPriv).2 ∧ (t.port p).peerHello = b
        ∧ (t.port p).tx = q.tx ∧ (t.port p).rx = q.rx ∧ (t.port p).keyTick = s.tb.up ∧ t = { s with ports := t.ports })
      ∧ (q.state = .up → (s.portRole p).outer = false → t = s)
      ∧ ((q.state = .down ∨ q.state = .training) → t = s))
    ∧ Completes (.rekey p) s (fun t =>
      ((q.state ≠ .up ∨ (s.portRole p).outer = false ∨ q.peerHello = [] ∨ s.cs.akReady = false) → t = s)
      ∧ (s.tb.up < q.keyTick + 2 ^ 26 → (∀ k ∈ q.tx.toList ++ q.rx.toList, k.count < 2 ^ 36) → t = s)
      ∧ (q.state = .up → (s.portRole p).outer = true → q.peerHello ≠ [] → s.cs.akReady = true →
        (q.keyTick + 2 ^ 26 ≤ s.tb.up ∨ ∃ k ∈ q.tx.toList ++ q.rx.toList, 2 ^ 36 ≤ k.count) →
        s.drbgServes (8 ≤ p) = false → t = s.setPort p { q with peerHello := [], ownHello := [], ownPriv := [] })
      ∧ (q.state = .up → (s.portRole p).outer = true → q.peerHello ≠ [] → s.cs.akReady = true →
        (q.keyTick + 2 ^ 26 ≤ s.tb.up ∨ ∃ k ∈ q.tx.toList ++ q.rx.toList, 2 ^ 36 ≤ k.count) →
        s.drbgServes (8 ≤ p) = true → (t.port p).ownHello = s.helloBody p ((s.drawBytes 88).take 56) ((s.drawBytes 88).drop 56) ∧ (t.port p).state = .up
        ∧ t = { s with ports := t.ports, live := t.live, out := t.out, freeCtr := t.freeCtr }))

/-! ### The system: votes, substitution and re-mapping (14_turns.md, 16_hethes_links.md, 19_reliability.md) -/

/-- OWN_PART_DONE, VOTE_REPORT, PHASE_LIMIT_EXPIRY and VOTE_ANNOUNCE (R342–R344, R358, R478): a device below the root
reports upward once its part and every child's report are in hand, with the worst verdict, and FAILED where a bay of the
job plan cannot be rebuilt; the root decides once, on a HELD report at once; a report of another turn or of no child
changes nothing; an announcement less than two ticks ahead is taken at once and counted late. Where LEARN starts the scored sequences are assigned in
ascending id, each its data index, step and micro-batch, and the unscored ones are counted (R348, R349). -/
def Obligations.PhaseVotes : Prop :=
  ∀ s : State, s.awake = true →
    (∀ verdict, Completes (.ownPartDone verdict) s fun t =>
      ((s.footing.turn.enable = false ∨ s.turn.ownDone ≠ none ∨ 3 ≤ verdict ∨ s.turn.phase = 3 ∨ s.turn.phase = 5) → t = s)
      ∧ (verdict = 0 → s.cannotRebuild = false → s.ownPartOk = false → t = s)
      ∧ (let v := if s.cannotRebuild then 2 else verdict
        verdict < 3 → (v = 0 → s.ownPartOk = true) → s.footing.turn.enable = true → s.turn.ownDone = none →
        (s.turn.phase = 0 ∨ s.turn.phase = 1 ∨ s.turn.phase = 2 ∨ s.turn.phase = 4) →
        let all := v :: s.phaseVotes.map (·.verdict)
        ((∃ c ∈ s.children, ∀ x ∈ s.phaseVotes, x.source ≠ c) → t = { s with turn := { s.turn with ownDone := some v } })
        ∧ (s.turn.voteSent = false → (∀ c ∈ s.children, ∃ x ∈ s.phaseVotes, x.source = c) →
          (s.isRoot = false →
            t = State.sendVote { s with turn := { s.turn with ownDone := some v, voteSent := true } } (State.worst all) s.lowStep)
          ∧ (s.isRoot = true → s.turn.decided = false →
            t = State.announce { s with turn := { s.turn with ownDone := some v, voteSent := true, decided := true } }
              (s.answer (State.worst all) false)))))
    ∧ (∀ source phase turn verdict step, Completes (.voteReport source phase turn verdict step) s fun t =>
      ((s.footing.turn.enable = false ∨ turn ≠ s.turn.turn ∨ s.children.contains source = false) → t = s)
      ∧ (s.footing.turn.enable = true → turn = s.turn.turn → s.children.contains source = true →
        let votes := (s.turn.votes.filter fun x => x.source != source || x.phase != phase)
          ++ [{ source := source, phase := phase, verdict := verdict, step := step }]
        let kept : State := { s with turn := { s.turn with votes := votes } }
        (s.isRoot = false → s.turn.ownDone = none → t = kept)
        ∧ (s.isRoot = true → verdict = 1 → s.turn.decided = false →
          t = State.announce { kept with turn := { kept.turn with decided := true } } (kept.answer 1 false))))
    ∧ Completes .phaseLimitExpiry s (fun t =>
      (∀ l, (s.isRoot = false ∨ s.turn.decided = true ∨ s.phaseLimit = none
        ∨ (s.phaseLimit = some l ∧ s.tb.tick < s.turn.phaseStart + l)) → t = s)
      ∧ (∀ l, s.isRoot = true → s.footing.turn.enable = true → s.turn.decided = false → s.phaseLimit = some l →
        s.turn.phaseStart + l ≤ s.tb.tick → t = State.announce { s with turn := { s.turn with decided := true } } (s.answer 0 true)))
    ∧ (∀ turn phase tick smin, s.footing.turn.enable = true → s.isRoot = false →
      Completes (.voteAnnounce 0 turn phase tick smin) s fun t =>
        (s.children = [] → phase = 2 → tick < s.tb.tick + 2 →
          t.turn.phase = 2 ∧ t.turn.phaseStart = s.tb.tick ∧ t.turn.late = true ∧ t.turn.lastCode = eTurnLate
          ∧ t.turn.closeRunning = true ∧ t.turn.ownDone = none
          ∧ (t.stat turnLate).toNat = min ((s.stat turnLate).toNat + 1) 0xFFFFFFFF)
        ∧ (s.children = [] → phase = 2 → s.tb.tick + 2 ≤ tick → tick ≤ s.tb.tick + 2 ^ 36 → s.tb.sched.length < 256 →
          t.turn = { s.turn with next := some { void := false, turn := turn, phase := 2, tick := tick, smin := smin } }
          ∧ t.tb.sched = s.tb.sched ++ [{ tick := tick, cls := 3, arg := 2 }])
        ∧ (s.children = [] → phase = 3 → tick < s.tb.tick + 2 →
          let first := if s.turn.step = 0 then s.footing.train.firstStep else s.turn.step + 1
          t.turn.phase = 3 ∧ t.turn.learnFrom = first ∧ t.turn.assigned = s.assignment first
          ∧ (t.stat turnUnscored).toNat = min ((s.stat turnUnscored).toNat + s.unscored) 0xFFFFFFFF))
    ∧ (∀ first k id, s.scoredIds[k]? = some id →
      let d := s.footing.train.d
      let n := s.footing.turn.seqPerMb
      k < s.footing.turn.stepsPerTurn * s.footing.train.micro * n * d →
        (s.assignment first)[k]? = some (id, k % d, first + k / d / (n * s.footing.train.micro), k / d / n % s.footing.train.micro))
    ∧ (∀ first, (s.assignment first).length ≤ s.footing.turn.stepsPerTurn * s.footing.train.micro * s.footing.turn.seqPerMb * s.footing.train.d)
    ∧ s.scoredIds.Pairwise (· ≤ ·)

/-- SUSPECT, SUBSTITUTE, REMAP_ANNOUNCE, REMAP_READY, STATE_FETCH, REMAP_TABLE_FETCH and MORTAR_MESSAGE (R399,
R414–R416, R479–R485): one suspicion is held and declares nothing; the second has the root declare, and the spare takes a
device's place on the suspicion of its three neighbours in the cairn; a substitution is installed once; a re-mapping is
passed down the tree and is due no sooner than two ticks ahead; a ready host is noted once; the buddy answers with the slot
asked for where it is its newest; a table of more than 64 entries is not taken; a message of Mortar's is handed on. -/
def Obligations.SubstitutionAndRemapping : Prop :=
  ∀ s : State, s.awake = true →
    (∀ source f, Completes (.suspect source f) s fun t =>
      (s.system.spare = false → s.system.substituting = false → (∀ x ∈ s.system.suspects, x.1 ≠ f) →
        t = { s with system := { s.system with suspects := s.system.suspects ++ [(f, source)] } })
      ∧ (let noted : State := { s with system := { s.system with suspects := s.system.suspects ++ [(f, source)] } }
        (f, source) ∉ s.system.suspects →
        (s.system.spare = false → s.system.substituting = false → (∃ x ∈ s.system.suspects, x.1 = f) → t = noted.declareFailed f)
        ∧ (s.system.spare = true → s.isDevice f = true → 16320 + s.cairnNum (s.coordsOf f) = s.system.device →
          (∀ g ∈ s.cairnNeighbours f, g = source ∨ (f, g) ∈ s.system.suspects) →
          t = noted.substituteFor f ∧ t.system.device = f ∧ t.system.spare = false ∧ t.system.substituting = true
          ∧ t.system.substDev = f ∧ t.system.substValid = true ∧ t.rel.degraded.getLsbD 5 = true)))
    ∧ (∀ f former, Completes (.substitute f former) s fun t =>
      ((s.footing.cairns = false ∨ s.isDevice f = false ∨ ∃ x ∈ s.system.subst, x.1 = f) → t = s)
      ∧ (s.footing.cairns = true → s.isDevice f = true → (∀ x ∈ s.system.subst, x.1 ≠ f) →
        (f, former) ∈ t.system.subst ∧ t.system.substCode = sOk))
    ∧ (∀ f host placement tick, Completes (.remapAnnounce f host placement tick) s fun t =>
      ((s.isRoot = true ∨ 4 ≤ placement) → t = s)
      ∧ (s.isRoot = false → placement < 4 →
        let lost : Prop := placement = 3 ∧ s.jobIndexOf f ≠ none
        t.system.remapNext = some (f, host, placement, max tick (s.tb.tick + 2))
        ∧ t.ports = (s.sendRemap s.children f host placement tick).ports
        ∧ (lost → t.turn = { s.turn with jobHeld := true } ∧ t.mgmt.alarm.getLsbD 4 = true ∧ t.system.remapCode = eRemapNone)
        ∧ (¬ lost → t.turn = s.turn ∧ t.mgmt = s.mgmt ∧ t.system.remapCode = sOk)
        ∧ (f ≠ s.system.voteRoot → t.system.voteRoot = s.system.voteRoot)
        ∧ (f = s.system.voteRoot → placement ≠ 0 → t.system.voteRoot = s.successorRoot f)
        ∧ t.bricks = s.bricks ∧ t.bays = s.bays ∧ t.objs = s.objs ∧ t.footing = s.footing))
    ∧ (∀ host, Completes (.remapReady host) s fun t =>
      (host ∈ s.system.hostReady → t = s)
      ∧ (host ∉ s.system.hostReady →
        t = { s with system := { s.system with hostReady := s.system.hostReady ++ [host] } }))
    ∧ (∀ source job k, Completes (.stateFetch source job k) s fun t =>
      ((2 ≤ k ∨ (s.slot k).state ≠ 2) → t = s) ∧ t = { s with ports := t.ports, live := t.live, out := t.out }
      ∧ (let x := s.slot k
        let whole := s.slotData k 64 ((s.slotLength k + 63) / 64 * 64)
        k < 2 → x.state = 2 → (x.source = s.placeOfJob job ∨ x.source = s.hostOf (s.placeOfJob job)) →
        x.step = s.heldStep (some x.source) →
        t = s.sendSlot source false (State.ckptMessages (lset (s.slotData k 0 64) 6 1) whole (s.slotData k 0 64))))
    ∧ (∀ removed hosts, Completes (.remapTableFetch removed hosts) s fun t =>
      ((64 < removed.length + hosts.length ∨ s.tb.state = .unset) → t = s)
      ∧ (removed.length + hosts.length ≤ 64 → s.tb.state ≠ .unset →
        t = { s with system := { s.system with removed := removed, remap := hosts, standing := t.system.standing } }
        ∧ ((∃ x ∈ hosts, x.1 = s.system.device) → t.system.standing = 1)
        ∧ ((∀ x ∈ hosts, x.1 ≠ s.system.device) → s.system.device ∈ removed → t.system.standing = 2)
        ∧ ((∀ x ∈ hosts, x.1 ≠ s.system.device) → s.system.device ∉ removed → t.system.standing = s.system.standing)))
    ∧ (∀ source kind body, Completes (.mortarMessage source kind body) s fun t =>
      t = { s with out := s.out ++ [.mortarMsg source kind body] })

/-! ### Attestation, boot, fetch and power (17_security.md to 20_electrical.md) -/

/-- OPEN, ACCEPT, CHECK and WOPEN_COMPLETE (R436, R437, R445): the refusals in order leave their code alone; an
accepted command pins its image and runs; ending, it releases the image. OPEN writes the plaintext in place and enters the
image's weights where their digest matches, and deletes the tensors where it does not; ACCEPT of a bound image enters its
claimed weights; CHECK enters again only weights already held. An uncorrectable tile ends OPEN and CHECK with
E_STEP_ABORT, and a unit that holds the reads keeps them running. -/
def Obligations.WeightImageCommands : Prop :=
  (∀ x ∈ ([(Instr.openImage, 1), (Instr.acceptImage, 2), (Instr.checkImage, 3)] : List ((Nat → Nat → Nat → Instr) × Nat)),
    ∀ (s : State) (agent k reserved : Nat), s.coreUp agent = true → k < 2 → Completes (x.1 agent k reserved) s fun t =>
      let id := s.cs.wopenArg.toNat
      ((k == 1) ≠ s.boot.primaryS → t = s)
      ∧ ((k == 1) = s.boot.primaryS →
        (reserved ≠ 0 → t = { s with cs := { s.cs with wopenCode := eBadField } })
        ∧ (reserved = 0 → s.cs.wopen ≠ none → t = { s with cs := { s.cs with wopenCode := eCsBusy } })
        ∧ (reserved = 0 → s.cs.wopen = none → s.obj id = none → t = { s with cs := { s.cs with wopenCode := eBondDigest } })
        ∧ (s.wopenCode x.2 reserved ≠ sOk → t = { s with cs := { s.cs with wopenCode := s.wopenCode x.2 reserved } })
        ∧ (∀ o, s.wopenCode x.2 reserved = sOk → s.obj id = some o →
          t = State.pinImage { s with cs := { s.cs with wopen := some (x.2, id) } } id (s.wholeObj id o) true
          ∧ t = { s with cs := { s.cs with wopen := some (x.2, id) }, objs := t.objs })))
  ∧ (∀ (s : State) (reads : List (Nat × ObjRead)), s.awake = true → Completes (.wopenComplete reads) s fun t =>
    (s.cs.wopen = none → t = s)
    ∧ (∀ cmd id o, s.cs.wopen = some (cmd, id) → s.obj id = some o →
      let img := s.wholeObj id o
      let dig := slice img 32 32
      let free := State.pinImage { s with cs := { s.cs with wopen := none, wopenCode := sOk } } id img false
      let r := free.readTensors id img reads
      let held : Prop := ∃ x ∈ State.tensorObjs id img, s.heldObj x = true
      (cmd = 2 → t.cs.wopen = none ∧ t.cs.wopenCode = sOk ∧ t.cs.wopenOrigin = 2
        ∧ ∃ e ∈ t.cs.weights, e.digest = dig ∧ e.binding = bindingSet img ∧ e.claimed = true
          ∧ e.device = s.cs.wopenPeer.toNat % 16384 ∧ e.tick = s.tb.tick)
      ∧ (cmd ≠ 2 → held → t = s)
      ∧ (cmd ≠ 2 → ¬ held → t.cs.wopen = none
        ∧ (r.2 = none → t.cs.wopenCode = eStepAbort ∧ t.cs.weights = s.cs.weights)
        ∧ (∀ tiles, cmd = 1 → r.2 = some tiles →
          let plain := State.openTiles id img ((unwrapKey img).getD []) tiles
          let w := r.1.writeTensors id img plain
          (w.2 ≠ sOk → t = { w.1 with cs := { w.1.cs with wopenCode := w.2 } })
          ∧ (w.2 = sOk → State.plainDigest img plain ≠ dig → t.cs.wopenCode = eWeightDigest
            ∧ t.cs.weights = s.cs.weights ∧ ∀ x ∈ State.tensorObjs id img, t.obj x = none)
          ∧ (w.2 = sOk → State.plainDigest img plain = dig → t.cs.wopenCode = sOk ∧ t.cs.wopenOrigin = 1
            ∧ (∃ e ∈ t.cs.weights, e.digest = dig ∧ e.claimed = false ∧ e.tick = w.1.tb.tick)
            ∧ t = { w.1 with cs := t.cs, objs := t.objs, serving := t.serving, bays := t.bays }))
        ∧ (∀ tiles, cmd = 3 → r.2 = some tiles → State.plainDigest img tiles = dig →
          ((∀ e ∈ s.cs.weights, e.digest ≠ dig) → t = r.1)
          ∧ ((∃ e ∈ s.cs.weights, e.digest = dig) → t.cs.wopenCode = sOk
            ∧ ∃ e ∈ t.cs.weights, e.digest = dig ∧ e.claimed = false ∧ e.tick = r.1.tb.tick)))))

/-- ENTROPY_HEALTH_FAIL, ENTROPY_RETEST_DONE, REPORT_COMPLETE, WATCHDOG_KICK, WATCHDOG_EXPIRY and AUDIT_RESULT (R427,
R428, R473, R475): a first failed health test stops a source and a second within 2^20 ticks is fatal; a passed retest
has it serve again, and a failed one is a second failure; a signed report leaves the queue and is sent; a kick restarts its core's watchdog, which expires after 2^16
ticks; an audit passes or is fatal. -/
def Obligations.EntropyReportsAndWatchdogs : Prop :=
  ∀ s : State, s.awake = true →
    let fatal (t : State) (c : Code) : Prop := t.rel.fatal = true ∧ t.rel.fatalCode = c ∧ t.rel.fatalTick = s.tb.tick
      ∧ t.pins.devFatal = true
    (∀ k, k < 2 → Completes (.entropyHealthFail k) s fun t =>
      (s.entropyOf (k == 1) ≠ 1 → t = s)
      ∧ (s.entropyOf (k == 1) = 1 →
        let last := if k = 1 then s.cs.lastFailS else s.cs.lastFailN
        (t.stat (csEntropyFail (k == 1))).toNat = min ((s.stat (csEntropyFail (k == 1))).toNat + 1) 0xFFFFFFFF
        ∧ t.cs.lastCode = eEntropy
        ∧ (if k = 1 then t.cs.lastFailS else t.cs.lastFailN) = some s.tb.up
        ∧ ((∀ a, last = some a → a + 2 ^ 20 ≤ s.tb.up) → t.entropyOf (k == 1) = 2 ∧ t = { s with cs := t.cs, live := t.live })
        ∧ (∀ a, last = some a → s.tb.up < a + 2 ^ 20 → t.entropyOf (k == 1) = 3 ∧ fatal t eEntropy)))
    ∧ (∀ k, k < 2 → Completes (.entropyRetestDone k true) s fun t =>
      (s.entropyOf (k == 1) ≠ 2 → t = s)
      ∧ (s.entropyOf (k == 1) = 2 → t.entropyOf (k == 1) = 1)
      ∧ (s.entropyOf (k == 1) = 2 → s.cs.akReady = false → (s.svPort k).waiting = [] →
        t = { s with cs := t.cs, serving := t.serving } ∧ ∀ e, t.svPort e = s.svPort e))
    ∧ (∀ k, k < 2 → Completes (.entropyRetestDone k false) s fun t =>
      (s.entropyOf (k == 1) ≠ 2 → t = s)
      ∧ (s.entropyOf (k == 1) = 2 →
        let last := if k = 1 then s.cs.lastFailS else s.cs.lastFailN
        (t.stat (csEntropyFail (k == 1))).toNat = min ((s.stat (csEntropyFail (k == 1))).toNat + 1) 0xFFFFFFFF
        ∧ (∀ a, last = some a → s.tb.up < a + 2 ^ 20 → t.entropyOf (k == 1) = 3 ∧ fatal t eEntropy)))
    ∧ Completes .reportComplete s (fun t =>
      (s.cs.reports = [] → s.mgmt.waiting = [] → t = s)
      ∧ (∀ r e id, s.cs.reports = [r] → r.who = .session e id → s.mgmt.waiting = [] → (s.signReport r.body).length < 8128 →
        t = State.sendRecord (State.count { s with cs := { s.cs with reports := [] } } (csReports s.boot.primaryS) 1)
          e id 0x14 0 0 (leBytes 2 0 ++ leBytes 2 1 ++ zeros 4 ++ s.signReport r.body))
      ∧ (∀ r e id, s.cs.reports = [r] → r.who = .session e id → s.mgmt.waiting = [] → t.cs.reports = []
        ∧ (t.stat (csReports s.boot.primaryS)).toNat = min ((s.stat (csReports s.boot.primaryS)).toNat + 1) 0xFFFFFFFF)
      ∧ (∀ r conn tag, s.cs.reports = [r] → r.who = .mgmt conn tag → s.mgmt.waiting = [] →
        (∃ c ∈ s.mgmt.conns, c.id = conn) →
        t.cs.reports = [] ∧ t.out = s.out ++ [.cirid conn (State.ciridMsg 0x0004 1 tag sOk (s.signReport r.body))]
        ∧ t = { s with cs := t.cs, live := t.live, out := t.out }))
    ∧ (∀ agent v, s.coreUp agent = true → Completes (.watchdogKick agent v) s fun t =>
      (v.getLsbD 0 = true → aget 0 t.rel.kicks agent = s.tb.up ∧ t = { s with rel := { s.rel with kicks := t.rel.kicks } }
        ∧ (∀ c, c ≠ agent → aget 0 t.rel.kicks c = aget 0 s.rel.kicks c))
      ∧ (v.getLsbD 0 = false → t = s))
    ∧ (∀ core, core < 32 → s.boot.mortar = true → Completes (.watchdogExpiry core) s fun t =>
      (aget 0 s.rel.kicks core + 2 ^ 16 ≤ s.tb.up → fatal t eWatchdog ∧ t.rel.fatalArg = BitVec.ofNat 32 core)
      ∧ (s.tb.up < aget 0 s.rel.kicks core + 2 ^ 16 → t = s))
    ∧ Completes .auditResult s (fun t =>
      (s.rel.audit = none → t = s)
      ∧ (s.rel.audit = some none → t.rel = { s.rel with audit := none, auditPass := true, auditPool := 0, auditIndex := 0 }
        ∧ (t.stat auditRuns).toNat = min ((s.stat auditRuns).toNat + 1) 0xFFFFFFFF ∧ t = { s with rel := t.rel, live := t.live })
      ∧ (∀ x, s.rel.audit = some (some x) →
        fatal t eAuditMismatch ∧ t.rel.auditPass = false ∧ t.rel.auditPool = x.1 ∧ t.rel.auditIndex = x.2))

/-- RESET_RELEASE to SELF_TEST_DONE (R35, R424, R447, R449, R456, R491, R494): released with its rails good the device
starts its ROM, else it stays in reset with BOOT_FAIL_N; each stage follows the one before and nothing happens out of
its stage; a failed source of the boot primary, an unreadable flash and a failed die stop the boot with their codes. The
other Keystone's source is tested once the firmware has been verified (R20), and a failure then ends in recovery, which is
the model's choice (log entry 102), as are the source and argument of E_D2D_FAIL (log entry 101). FOOTING_VERIFY_DONE,
SCRUB_DONE and READY (R442, R455–R457): with no pair of slots that fits the device enters recovery; else Mortar and
the management port start; the scrub waits for every unit and, in confidential mode, for both DRBGs, and empties every
sector in standard mode; the device is ready only once scrubbed, LOCKED and attested. -/
def Obligations.BootStages : Prop :=
  ((∀ (s : State) (f : ReleaseFacts), s.inReset = true → s.stopped = false → Completes (.resetRelease f) s fun t =>
      (f.testMode = false → f.railsOk = true → t.inReset = false ∧ t.boot.stage = .rom ∧ t.boot.primaryS = f.bootsel
        ∧ t.boot.mgmt10G = f.mgmtSel ∧ t.pins.bootFail = false)
      ∧ (f.testMode = true → t.inReset = true ∧ t.boot = s.boot)
      ∧ (f.railsOk = false → t.inReset = true ∧ t.pins.bootFail = true ∧ t.boot = s.boot)
      ∧ t.pins.pwrOk = true ∧ t.pins.resetIn = false ∧ t = { s with inReset := t.inReset, boot := t.boot, pins := t.pins })
    ∧ (∀ s : State, s.awake = true →
      (∀ n k, Completes (.entropyStartupTestsDone n k) s fun t =>
        let own := if s.boot.primaryS then k else n
        let other := if s.boot.primaryS then n else k
        (s.boot.stage ≠ .rom → (s.boot.fwVerified = false ∨ s.entropyOf (!s.boot.primaryS) ≠ 0) → t = s)
        ∧ (s.boot.stage = .rom → own = false → t.boot.stage = .failed ∧ t.boot.code = eEntropy ∧ t.cs.lastCode = eEntropy
          ∧ t.pins.bootFail = true ∧ t.boot.mgmtOpen = false)
        ∧ (s.boot.stage = .rom → own = true → ownIdentityOk (aread 0xFF s.flash 0 280) = false →
          t.boot.stage = .failed ∧ t.boot.code = eIdentity ∧ t.cs.lastCode = eIdentity ∧ t.pins.bootFail = true)
        ∧ (s.boot.stage = .rom → own = true → ownIdentityOk (aread 0xFF s.flash 0 280) = true →
          t.boot.stage = .firmware ∧ t.boot.entropyDone = true ∧ t.cs.identityOk = true ∧ t.entropyOf s.boot.primaryS = 1
          ∧ t.entropyOf (!s.boot.primaryS) = s.entropyOf (!s.boot.primaryS)
          ∧ t = { s with boot := t.boot, cs := t.cs, freeCtr := t.freeCtr })
        ∧ (s.boot.stage ≠ .rom → s.boot.fwVerified = true → s.entropyOf (!s.boot.primaryS) = 0 →
          (other = true → t.entropyOf (!s.boot.primaryS) = 1 ∧ t = { s with cs := t.cs })
          ∧ (other = false → t.boot.stage = .recovery ∧ t.boot.code = eEntropy ∧ t.pins.bootFail = true
            ∧ t.entropyOf (!s.boot.primaryS) = 3)))
      ∧ (∀ readable mib, Completes (.firmwareVerifyDone readable mib) s fun t =>
        ((s.boot.stage ≠ .firmware ∨ s.boot.fwVerified = true) → t = s)
        ∧ (s.boot.stage = .firmware → s.boot.fwVerified = false →
          ((readable = false ∨ (mib ≠ 128 ∧ mib ≠ 256 ∧ mib ≠ 512)) → t.boot.stage = .failed ∧ t.boot.code = eFirmware
            ∧ t.pins.bootFail = true)
          ∧ (readable = true → (mib = 128 ∨ mib = 256 ∨ mib = 512) → (firmwareCheck s.flash false).1 ≠ sOk →
            (firmwareCheck s.flash true).1 ≠ sOk → t.boot.stage = .failed ∧ t.boot.code = eFirmware ∧ t.pins.bootFail = true)
          ∧ (readable = true → (mib = 128 ∨ mib = 256 ∨ mib = 512) →
            ((firmwareCheck s.flash false).1 = sOk ∨ (firmwareCheck s.flash true).1 = sOk) →
            t.boot.fwVerified = true ∧ t.boot.flashMib = mib ∧ t.boot.fwA = (firmwareCheck s.flash false).1
            ∧ t.boot.fwB = (firmwareCheck s.flash true).1 ∧ (∀ u, 32 ≤ u → u < 36 → (t.unit u).state = .training)
            ∧ t.boot.stage = (if State.drivesPins s.power.tapIr then .firmware else .selfTest)
            ∧ t = { s with boot := t.boot, units := t.units, out := t.out })))
      ∧ (∀ f, s.boot.stage = .selfTest → Completes (.selfTestDone f) s fun t =>
        (f.d2d = true → f.ashlarOk = 0xF → f.clayOk = 0xFFFF → f.ksN = true → f.ksS = true → t.boot.stage = .footing)
        ∧ (f.d2d = false → t.rel.fatal = true ∧ t.rel.fatalCode = eD2dFail ∧ t.boot.stage = .recovery)
        ∧ (f.d2d = true → f.ksS = false → t.boot.stage = .recovery ∧ t.boot.mgmtOpen = f.ksN)
        ∧ t.boot.selfTested = true ∧ t.dies.d2d = f.d2d ∧ t.dies.ashlarOk = f.ashlarOk ∧ t.dies.clayOk = f.clayOk
        ∧ t.dies.ksN = f.ksN ∧ t.dies.ksS = f.ksS ∧ t.dies.faultRow = repairRows Config.fusedRepair f.faulty
        ∧ t.dies.fieldOrigin = fieldColumns Config.fusedRepair f.faulty ∧ t.bricks = s.bricks ∧ t.bays = s.bays)))
  ∧ (∀ s : State, s.awake = true →
      Completes .footingVerifyDone s (fun t =>
        let a := footingCheck s.flash s.boot.flashMib false s.marlFound
        let b := footingCheck s.flash s.boot.flashMib true s.marlFound
        (s.boot.stage ≠ .footing → t = s)
        ∧ (s.boot.stage = .footing → a.1 ≠ sOk →
          b.1 ≠ sOk →
          t.boot.stage = .recovery ∧ t.boot.code = eFooting ∧ t.boot.mgmtOpen = true ∧ t.pins.bootFail = true
          ∧ t.footing = s.footing ∧ t = { s with boot := t.boot, pins := t.pins })
        ∧ (s.boot.stage = .footing → a.1 = sOk → b.1 ≠ sOk → s.boot.svnA ≠ none → s.boot.svnB = none →
          a.2.minSvn ≤ s.boot.svnA.getD 0 →
          t.boot.stage = .bringUp ∧ t.boot.mortar = true ∧ t.boot.mgmtOpen = true ∧ t.boot.fwSlot = false ∧ t.boot.ftSlot = false
          ∧ t.footing = a.2 ∧ t.journal.seq = 0 ∧ t.journal.entries = []
          ∧ t.journal.head = State.journalStart t.footing.systemDigest
          ∧ (∀ c, c < 32 → aget 0 t.rel.kicks c = s.tb.up)))
      ∧ Completes .scrubDone s (fun t =>
        ((s.boot.mortar = false ∨ s.cs.scrubbed = true ∨ s.unitsSettled = false ∨ s.keysReady = false) → t = s)
        ∧ (s.boot.mortar = true → s.cs.scrubbed = false → s.unitsSettled = true → s.keysReady = true →
          t.cs.scrubbed = true ∧ t.cs.lastCode = sOk ∧ (s.footing.confidential = false → t.sectors = [] ∧ t.freeCtr = s.freeCtr)
          ∧ (s.footing.confidential = true → t.sectors = s.sectors)
          ∧ t.sramN = [] ∧ t.sramS = []
          ∧ t = { s with sectors := t.sectors, cs := t.cs, freeCtr := t.freeCtr, sramN := t.sramN, sramS := t.sramS }))
      ∧ Completes .ready s (fun t =>
        ((s.boot.stage ≠ .bringUp ∧ s.boot.stage ≠ .time ∨ s.cs.scrubbed = false ∨ s.unitsSettled = false) → t = s)
        ∧ ((s.boot.stage = .bringUp ∨ s.boot.stage = .time) → s.cs.scrubbed = true → s.unitsSettled = true →
          ((s.tb.state ≠ .locked ∨ s.cs.akReady = false) → t = { s with boot := { s.boot with stage := .time } })
          ∧ (s.tb.state = .locked → s.cs.akReady = true → t.boot.stage = .ready ∧ t.boot.bundleDone = true)
          ∧ (s.tb.state = .locked → s.cs.akReady = true → s.footing.bundle = [] → s.system.device ≠ s.footing.seedDevice →
            (∀ u ∈ allUnits, (s.unit u).state ≠ .mappedOut) →
            t = { s with boot := { s.boot with stage := .ready, bundleDone := true } }))))

/-- FETCH_DATA, FETCH_ERROR and FETCH_GET_TIMEOUT (R467): a datagram of no fetch is counted and dropped; DATA fills
the GET it answers; an ERROR of the image ends the fetch with a management alarm; a GET is sent again eight times,
then the fetch ends. -/
def Obligations.ImageFetch : Prop :=
  ∀ s : State, s.awake = true →
    let dropped (t : State) (port : Nat) : Prop := t = { s with live := t.live }
      ∧ (t.stat (svRxDrop port)).toNat = min ((s.stat (svRxDrop port)).toNat + 1) 0xFFFFFFFF
    let ended (t : State) : Prop := t.fetch = none ∧ t.mgmt.alarm.getLsbD 7 = true ∧ (∃ e ∈ t.mgmt.log, e.code = eFetch)
      ∧ t = { s with serving := t.serving, mgmt := t.mgmt, fetch := t.fetch, out := t.out }
    (∀ port d, port < 2 → Completes (.fetchData port d) s fun t =>
      ((s.fetch = none ∨ fetchFields d = none) → dropped t port)
      ∧ (∀ f g h off len, s.fetch = some f → fetchFields d = some (2, f.digest, off, len) → d.length = 52 + len →
        f.gets = [g, h] → g.offset = off → g.length = len → h.offset ≠ off → f.total ≤ f.next →
        t.fetch = some { f with gets := [h], data := awrite 0 f.data off (d.drop 52) } ∧ t = { s with fetch := t.fetch })
      ∧ (∀ f op dig off len, s.fetch = some f → fetchFields d = some (op, dig, off, len) → (op ≠ 2 ∨ dig ≠ f.digest) →
        dropped t port))
    ∧ (∀ port d, port < 2 → Completes (.fetchError port d) s fun t =>
      ((s.fetch = none ∨ fetchFields d = none) → dropped t port)
      ∧ (∀ f off, s.fetch = some f → fetchFields d = some (3, f.digest, off, 0) → d.length = 52 → ended t))
    ∧ (∀ off, Completes (.fetchGetTimeout off) s fun t =>
      (s.fetch = none → t = s)
      ∧ (∀ f g, s.fetch = some f → f.gets = [g] → g.offset = off →
        (g.tries < 8 → t.fetch = some { f with gets := [{ g with tries := g.tries + 1 }] } ∧ t.out.length = s.out.length + 1
          ∧ t = { s with fetch := t.fetch, out := t.out })
        ∧ (8 ≤ g.tries → ended t)))

/-- POWER_WINDOW, PMB_ALERT and PWR_CAP_CHANGE (R501, R502, R504, R505): the power gate rises by 4 over the limit in
use, falls by 1 more than 100 W below it, and an over-current warning holds it at 32 or more; a page left unread counts at its most; failed transfers are counted until a fatal error freezes the counters; each thermal gate rises
by 8 or falls by 1; the limit in use lies within 1,000 to 4,200 W. PWR_OK_FALL, RESET_IN_N_ASSERT, THERMAL_TRIP and
TAP_INSTRUCTION (R495–R497, R506, R508): reset leaves only the boot flash, the fused values, the input pins and, with
power, the TAP's instruction as they were; a tripped device answers nothing but a loss of power; a pin-driving
instruction in confidential mode clears the keys and is fatal. -/
def Obligations.PowerGatesResetAndPins : Prop :=
  ((∀ (s : State) (f : PowerFacts), s.powered = true → Completes (.powerWindow f) s fun t =>
      let p := (f.milliwatts + (f.unread.map fun i => State.pageMax.getD i 0).sum) / 1000
      let limit := max 1000 (min 4200 s.power.limit)
      let gp := if limit < p then min 56 (s.power.gp + 4) else if p + 100 < limit then s.power.gp - 1 else s.power.gp
      t.power.limitUsed = limit ∧ t.power.now = min p 8191
      ∧ t.power.gp = (if s.power.ocWarn && f.overCurrent then max gp 32 else gp)
      ∧ t.power.ocWarn = (s.power.ocWarn && f.overCurrent)
      ∧ (∀ a, a < 4 → t.power.gt.getD a 0 =
        let ta := f.ashlar.getD a 0
        let ca := f.clay.getD a 0
        let g := s.power.gt.getD a 0
        if 400 ≤ ta ∨ 412 ≤ ca then min 56 (g + 8) else if ta ≤ 380 ∧ ca ≤ 392 then g - 1 else g)
      ∧ t.power.tempAshlar = (List.range 4).map (fun a => f.ashlar.getD a 0) ∧ t.power.tempClay = (List.range 4).map (fun a => f.clay.getD a 0)
      ∧ t.power.tempKsN = f.ksN ∧ t.power.tempKsS = f.ksS
      ∧ (t.stat pmbErr).toNat = (if s.rel.fatal then (s.stat pmbErr).toNat else min ((s.stat pmbErr).toNat + f.failures) 0xFFFFFFFF)
      ∧ t.out = s.out ++ (if s.power.ocWarn && !f.overCurrent then State.regulators.map fun r => Output.pmbus r.1 r.2 0x03 0 else [])
      ∧ t = { s with power := t.power, live := t.live, out := t.out })
    ∧ (∀ (s : State) (oc : Bool) (n : Nat), s.powered = true → Completes (.pmbAlert oc n) s fun t =>
      (oc = true → t.power = { s.power with ocWarn := true, gp := max s.power.gp 32 }) ∧ (oc = false → t.power = s.power)
      ∧ (t.stat pmbErr).toNat = (if s.rel.fatal then (s.stat pmbErr).toNat else min ((s.stat pmbErr).toNat + n) 0xFFFFFFFF)
      ∧ t = { s with power := t.power, live := t.live })
    ∧ (∀ (s : State) (low : Bool), Completes (.pwrCapChange low) s fun t => t = { s with pins := { s.pins with capLow := low } }))
  ∧ ((∀ s : State,
      let inReset (t : State) : Prop := t.flash = s.flash ∧ t.pins.capLow = s.pins.capLow ∧ t.inReset = true ∧ t.stopped = false
        ∧ t.power.vid = s.power.vid ∧ t.tb = State.reset.tb ∧ t.bays = [] ∧ t.bricks = [] ∧ t.objs = [] ∧ t.sectors = []
        ∧ t.live = [] ∧ t.rel = State.reset.rel ∧ t.cs = State.reset.cs ∧ t.mgmt = State.reset.mgmt ∧ t.journal = State.reset.journal
        ∧ t.out = s.out ∧ t.pending = s.pending
      Completes .pwrOkFall s (fun t => inReset t ∧ t.pins.pwrOk = false)
      ∧ Completes .resetInNAssert s (fun t =>
        (s.stopped = true → t = s)
        ∧ (s.stopped = false → inReset t ∧ t.pins.resetIn = true ∧ t.pins.pwrOk = s.pins.pwrOk
          ∧ (s.pins.pwrOk = true → t.power.tapIr = s.power.tapIr)))
      ∧ Completes .thermalTrip s (fun t =>
        (s.stopped = false → t = { s with stopped := true, pins := { s.pins with thermTrip := true } })
        ∧ (s.stopped = true → t = s)))
    ∧ (∀ (s : State) (ir : Byte), Completes (.tapInstruction ir) s fun t =>
      ((s.pins.pwrOk = false ∨ s.stopped = true) → t = s)
      ∧ (s.pins.pwrOk = true → s.stopped = false → s.footing.present = true → s.footing.confidential = true →
        State.drivesPins ir = true → t.rel.fatal = true ∧ t.power.tapIr = 0xFF
          ∧ (s.rel.fatal = false → t.rel.fatalCode = eTamper ∧ t.cs.akPriv = [] ∧ t.cs.unitKeys = [] ∧ t.cs.akReady = false))
      ∧ (s.pins.pwrOk = true → s.stopped = false → s.footing.confidential = false → s.boot.stage ≠ .firmware →
        t = { s with power := { s.power with tapIr := t.power.tapIr }
                     out := s.out ++ (if ir = 1 then [.tapData State.idcode] else []) }
        ∧ ((ir = 1 ∨ ir = 2 ∨ ir = 0xFF ∨ State.drivesPins ir = true) → t.power.tapIr = ir)
        ∧ (0x80 ≤ ir.toNat → s.cs.debugLocked = true → t.power.tapIr = 0xFF))))

/-! ### The management port (18_boot_management.md) -/

/-- MGMT_CONNECTION and MGMT_IDLE_TIMEOUT (R459): a fifth connection and one from a source of 16 failures are reset;
one whose key is an operator's opens; one that fails its handshake is counted; one idle for 2^28 ticks is closed.
Every management command: on no connection it is nothing, one too long closes its connection, one behind another
waits, in the fatal state and in recovery those not offered are refused, and one of a reserved op is answered with
E_BAD_FIELD (R10, R460–R462, R464, R474). -/
def Obligations.ManagementConnections : Prop :=
  (∀ (s : State) (f : MgmtFacts), s.powered = true → s.boot.mgmtOpen = true → (∀ c ∈ s.mgmt.conns, c.id ≠ f.conn) →
    Completes (.mgmtConnection f) s fun t =>
      ((4 ≤ s.mgmt.conns.length ∨ 16 ≤ aget 0 s.mgmt.tlsFails f.source) → t = { s with out := s.out ++ [.tcpReset f.conn] })
      ∧ (let key := if s.boot.stage = .recovery then (if f.clientKey = Config.ownerKey then some 0 else none)
          else (s.footing.operators.find? fun x => x.2 == f.clientKey).map (·.1)
        s.mgmt.conns.length < 4 → aget 0 s.mgmt.tlsFails f.source < 16 →
        (∀ slot, f.tlsOk = true → key = some slot → t = { s with mgmt := { s.mgmt with conns := s.mgmt.conns
            ++ [{ id := f.conn, slot := slot, source := f.source, lastTick := s.tb.up }] } })
        ∧ ((f.tlsOk = false ∨ key = none) →
        t.mgmt.conns = s.mgmt.conns ∧ aget 0 t.mgmt.tlsFails f.source = aget 0 s.mgmt.tlsFails f.source + 1
        ∧ t = { s with mgmt := t.mgmt, live := t.live, out := s.out ++ [.tcpClosed f.conn] })))
  ∧ (∀ (s : State) (conn : Nat), s.powered = true → Completes (.mgmtIdleTimeout conn) s fun t =>
    ((∃ c ∈ s.mgmt.conns, c.id = conn ∧ c.lastTick + 2 ^ 28 ≤ s.tb.up) → (∀ c ∈ t.mgmt.conns, c.id ≠ conn)
      ∧ t = { s with mgmt := t.mgmt, out := s.out ++ [.tcpClosed conn] })
    ∧ ((∀ c ∈ s.mgmt.conns, c.id = conn → s.tb.up < c.lastTick + 2 ^ 28) → t = s))
  ∧ (∀ x ∈ ([(Instr.status, 0x0001), (Instr.readReg, 0x0002), (Instr.readStats, 0x0003), (Instr.report, 0x0004),
      (Instr.readJournal, 0x0005), (Instr.readObject, 0x0006), (Instr.alarms, 0x0007), (Instr.setField, 0x0101),
      (fun m => Instr.bayPlan (.mgmt m), 0x0102), (Instr.bayCmd, 0x0103), (Instr.tierCmd, 0x0104), (Instr.replaceWeights, 0x0105),
      (Instr.cancelChange, 0x0106), (Instr.job, 0x0107), (Instr.erase, 0x00201), (Instr.write, 0x10201), (Instr.verify, 0x20201),
      (Instr.reset, 0x0202), (Instr.substituteCommand, 0x0203)] : List ((Cirid → Instr) × Nat)),
    ∀ (s : State) (m : Cirid), Completes (x.1 m) s fun t =>
      let op := opOf x.2 m
      ((s.powered = false ∨ s.boot.mgmtOpen = false ∨ ∀ c ∈ s.mgmt.conns, c.id ≠ m.conn) → t = s)
      ∧ (s.powered = true → s.boot.mgmtOpen = true → (∃ c ∈ s.mgmt.conns, c.id = m.conn) →
        (1048576 < m.body.length → (∀ c ∈ t.mgmt.conns, c.id ≠ m.conn) ∧ t = { s with mgmt := t.mgmt, out := s.out ++ [.tcpClosed m.conn] })
        ∧ (m.body.length ≤ 1048576 → (s.mustWait op m = true ∨ ∃ y ∈ s.mgmt.waiting, y.2.conn = m.conn) →
          t.mgmt.waiting = s.mgmt.waiting ++ [(op, m)]
          ∧ t = { s with mgmt := t.mgmt, live := t.live })
        ∧ (m.body.length ≤ 1048576 → s.mustWait op m = false → (∀ y ∈ s.mgmt.waiting, y.2.conn ≠ m.conn) →
          (s.rel.fatal = true → servedFatal op s.footing.confidential = false →
            s.Answers t (op % 65536) m eDeviceFatal (errorBody 0xFFFFFFFF 0) ∧ t = { s with mgmt := t.mgmt, out := t.out })
          ∧ (s.rel.fatal = false → s.boot.stage = .recovery → op % 65536 ∉ [0x0001, 0x0201, 0x0202] →
            s.Answers t (op % 65536) m eRecovery (errorBody 0xFFFFFFFF 0)
            ∧ t = { s with mgmt := t.mgmt, live := t.live, out := t.out })
          ∧ (s.rel.fatal = false → s.boot.stage ≠ .recovery → op % 65536 ∉ tableOps →
            s.Answers t op m eBadField (errorBody 4 0) ∧ t = { s with mgmt := t.mgmt, live := t.live, out := t.out }))))

/-- STATUS, READ_REG, READ_STATS, REPORT, READ_JOURNAL, READ_OBJECT and ALARMS served (R32, R428, R440, R462, R466): a
length or count out of range is refused with its code; confidential mode refuses registers and objects; else the
answer is what the state holds, register by register, entry by entry and tile by tile, which the command does not change.
That READ_STATS of a register that is no counter is answered as an invalid address is the model's choice (log entry 104),
as is the order of the checks of READ_REG (log entry 105). -/
def Obligations.ManagementReads : Prop :=
  ∀ (s : State) (slot : Nat) (m : Cirid), plainHeader m →
    let u := s.noted m
    let b := m.body
    let n := fieldLE b 8 4
    let replies (t : State) (op : Nat) (c : Code) (body : Bytes) : Prop :=
      s.Answers t op m c body ∧ t = { s with mgmt := u.mgmt, live := t.live, out := t.out }
    let badAddress (t : State) (op : Nat) : Prop := s.Answers t op m eBadField (errorBody 16 0)
      ∧ t = { s with mgmt := u.mgmt, ctlFaultAddr := t.ctlFaultAddr, live := t.live, out := t.out }
      ∧ (t.stat ctlFaultCount).toNat = min ((s.stat ctlFaultCount).toNat + 1) 0xFFFFFFFF
    (s.Serves 1 slot m → Completes (.status m) s fun t =>
      (b = [] → replies t 1 sOk u.statusBody) ∧ (b ≠ [] → replies t 1 eBadLength (errorBody 0 0)))
    ∧ (s.Serves 7 slot m → Completes (.alarms m) s fun t =>
      (b = [] → replies t 7 sOk u.alarmBytes) ∧ (b ≠ [] → replies t 7 eBadLength (errorBody 0 0)))
    ∧ (s.Serves 2 slot m → b.length = 12 → Completes (.readReg m) s fun t =>
      let a := fieldLE b 0 8
      ((n = 0 ∨ 256 < n) → replies t 2 eBadField (errorBody 24 0))
      ∧ (1 ≤ n → n ≤ 256 → s.footing.confidential = true → replies t 2 eModeRefused (errorBody 0xFFFFFFFF 0))
      ∧ (1 ≤ n → n ≤ 256 → s.footing.confidential = false → (∃ i, i < n ∧ u.regAt (a + 4 * i) = none) → badAddress t 2)
      ∧ (1 ≤ n → n ≤ 256 → s.footing.confidential = false →
        (∀ i, i < n → u.regAt (a + 4 * i) ≠ none ∧ pairLow (a + 4 * i) = false
          ∧ (a + 4 * i < 4 ∨ pairLow (a + 4 * i - 4) = false)) →
        replies t 2 sOk ((List.range n).flatMap fun i => leBytes 4 ((u.regAt (a + 4 * i)).getD 0).toNat))
      ∧ (∀ w, n = 1 → s.footing.confidential = false → u.regAt a = some w →
        (pairLow a = true → s.Answers t 2 m sOk (leBytes 4 w.toNat)
          ∧ aget 0 t.pairShadow (32 * 2 ^ 40 + a) = (u.regAt (a + 4)).getD 0)
        ∧ (pairLow a = false → 4 ≤ a → pairLow (a - 4) = true →
          replies t 2 sOk (leBytes 4 (aget 0 s.pairShadow (32 * 2 ^ 40 + (a - 4))).toNat))))
    ∧ (s.Serves 3 slot m → b.length = 12 → Completes (.readStats m) s fun t =>
      let a := fieldLE b 0 8
      ((n = 0 ∨ 256 < n) → replies t 3 eBadField (errorBody 24 0))
      ∧ (1 ≤ n → n ≤ 256 → (∀ i, i < n → (a + 4 * i) % 4 = 0 ∧ isStat (a + 4 * i) = true) →
        replies t 3 sOk (((List.range n).flatMap fun i =>
            leBytes 4 (aget 0 (if s.footing.confidential then s.mgmt.aggDone else s.snap) (a + 4 * i)).toNat)
          ++ leBytes 4 s.tb.latchSeq.toNat))
      ∧ (1 ≤ n → n ≤ 256 → (∃ i, i < n ∧ ((a + 4 * i) % 4 ≠ 0 ∨ isStat (a + 4 * i) = false)) → badAddress t 3))
    ∧ (s.Serves 4 slot m → Completes (.report m) s fun t =>
      (b.length ≠ 32 → replies t 4 eBadLength (errorBody 0 0))
      ∧ (b.length = 32 → s.reportRoom = false → replies t 4 eCsBusy (errorBody 0xFFFFFFFF 0))
      ∧ (b.length = 32 → s.reportRoom = true →
        (∃ r, t.cs.reports = s.cs.reports ++ [r] ∧ r.nonce = b ∧ r.who = .mgmt m.conn m.tag ∧ r.body = u.reportBody b)
        ∧ t = { s with mgmt := u.mgmt, cs := { s.cs with reports := t.cs.reports }, live := t.live }))
    ∧ (s.Serves 5 slot m → b.length = 12 → Completes (.readJournal m) s fun t =>
      ((n = 0 ∨ 1024 < n) → replies t 5 eBadField (errorBody 24 0))
      ∧ (1 ≤ n → n ≤ 1024 →
        replies t 5 sOk ((s.journal.entries.filter fun k =>
            fieldLE b 0 8 ≤ k.entry.seq && k.entry.seq < fieldLE b 0 8 + n).flatMap fun k =>
          entryBytes k.entry ++ leBytes 2 k.outcome.toNat ++ zeros 6 ++ leBytes 8 k.outcomeCycle)))
    ∧ (s.Serves 6 slot m → b.length = 12 → Completes (.readObject m) s fun t =>
      let id := fieldLE b 0 4
      let first := fieldLE b 4 4
      ((n = 0 ∨ 256 < n) → replies t 6 eBadField (errorBody 24 0))
      ∧ (1 ≤ n → n ≤ 256 → s.footing.confidential = true → replies t 6 eModeRefused (errorBody 0xFFFFFFFF 0))
      ∧ (1 ≤ n → n ≤ 256 → s.footing.confidential = false → s.readable id = none → replies t 6 eNoSuchObject (errorBody 16 0))
      ∧ (∀ o, 1 ≤ n → n ≤ 256 → s.footing.confidential = false → s.readable id = some o →
        let r := u.fetchTiles id o m.read first n
        (o.tiles < first + n → replies t 6 eBadField (errorBody 20 0))
        ∧ (first + n ≤ o.tiles → o.lost = true → replies t 6 eObjLost (errorBody 0xFFFFFFFF 0))
        ∧ (first + n ≤ o.tiles → o.lost = false →
          (∀ ts, r.2 = some ts →
            t = { r.1 with out := r.1.out ++ [.cirid m.conn (State.ciridMsg 6 1 m.tag sOk ts.flatten)] })
          ∧ (r.2 = none → ∃ more, t.out = more ++ [.cirid m.conn (State.ciridMsg 6 1 m.tag eStepAbort (errorBody 0xFFFFFFFF 0))]))))

/-- Changes served (R443, R461–R465): every change is entered in the journal in its cycle under the next sequence
number, a refused one with its code and no other effect, a scheduled one with its entry in the schedule table, and an
immediate one with its effect. SET_FIELD, BAY_PLAN, BAY_CMD, TIER, REPLACE_WEIGHTS, CANCEL_CHANGE and JOB have theirs.
-/
def Obligations.ManagementChanges : Prop :=
  ∀ (s : State) (slot : Nat) (m : Cirid), s.journalFull = false →
    let u := s.noted m
    let b := m.body.drop 8
    let seq := s.journal.seq + 1
    let does (c : Instr) (op : Nat) (P : State → Prop) : Prop := s.Serves op slot m → Completes c s fun t =>
      let chk := changeCheck op m
      t.journal.seq = seq
      ∧ (chk.1 ≠ sOk → s.Answers t op m chk.1 (errorBody chk.2 seq)
        ∧ t = { s with mgmt := u.mgmt, journal := t.journal, live := t.live, out := t.out })
      ∧ (chk.1 = sOk → fieldLE m.body 0 8 ≠ 0 → s.schedCode true (fieldLE m.body 0 8) 0 (BitVec.ofNat 32 seq) = sOk →
        t.tb = { s.tb with sched := s.tb.sched ++ [{ tick := fieldLE m.body 0 8, cls := 0, arg := BitVec.ofNat 32 seq }] }
        ∧ t = { s with tb := t.tb, mgmt := u.mgmt, journal := t.journal, live := t.live, out := t.out })
      ∧ (chk.1 = sOk → fieldLE m.body 0 8 = 0 → P t)
    does (.setField m) 0x0101 (fun t =>
      (fieldLE b 0 2 = 0x0803 → t.footing = { s.footing with turn := { s.footing.turn with
          phaseLead := fieldLE b 2 4, genLimit := fieldLE b 6 4, scoreLimit := fieldLE b 10 4, learnLimit := fieldLE b 14 4
          redistLimit := fieldLE b 18 4 } })
      ∧ (fieldLE b 0 2 = 0x0701 → t.footing = { s.footing with
          clientAuth := fieldLE b 2 1 == 1, specDepth := fieldLE b 3 1, idleTicks := fieldLE b 6 4, retainTicks := fieldLE b 10 4
          svcHi := fieldLE b 14 4, svcLo := fieldLE b 18 4, svcHold := fieldLE b 22 4 })
      ∧ (fieldLE b 0 2 = 0x0702 → t.footing = { s.footing with models := s.footing.models.map fun x =>
          (x.1, if x.1 = fieldLE b 2 1 then { x.2 with depths := (List.range 8).map fun c => fieldLE b (3 + 2 * c) 2 } else x.2) })
      ∧ t = { s with footing := t.footing, mgmt := u.mgmt, journal := t.journal, live := t.live, out := t.out })
    ∧ does (.bayPlan (.mgmt m)) 0x0102 (fun t =>
      let x := bayOfRecord b
      (s.planCode x.1 x.2 = sOk → (t.bay x.1).plan = x.2 ∧ (t.bay x.1).lastCode = sOk)
      ∧ (s.planCode x.1 x.2 ≠ sOk → t.bay x.1 = { s.bay x.1 with lastCode := s.planCode x.1 x.2 } ∧ t.bricks = s.bricks)
      ∧ t = { (u.planChange x.1 x.2).1 with mgmt := t.mgmt, journal := t.journal, live := t.live, out := t.out })
    ∧ does (.bayCmd m) 0x0103 (fun t =>
      (fieldLE b 1 1 = 1 → (s.bay (fieldLE b 0 1)).state = .ready → (s.bay (fieldLE b 0 1)).shutdown = none →
        s.namesVacant (fieldLE b 0 1) = false →
        (t.bay (fieldLE b 0 1)).state = .running ∧ (t.bay (fieldLE b 0 1)).lastCode = sOk)
      ∧ t = { u.bayCommand (fieldLE b 0 1) (fieldLE b 1 1) 0 s.tb.cycle with
              mgmt := t.mgmt, journal := t.journal, live := t.live, out := t.out })
    ∧ does (.tierCmd m) 0x0104 (fun t =>
      let v := (List.range 5).foldl (fun (v : State) i => v.tierArg i (BitVec.ofNat 32 (fieldLE b (4 + 4 * i) 4))) u
      (∀ i, i < 5 → v.tier.args.getD i 0 = if i < s.tier.args.length then BitVec.ofNat 32 (fieldLE b (4 + 4 * i) 4) else 0)
      ∧ t = { v.tierCtrl (fieldLE b 0 4) 0 with mgmt := t.mgmt, journal := t.journal, live := t.live, out := t.out })
    ∧ does (.replaceWeights m) 0x0105 (fun t =>
      (s.footing.models.find? (fun x => x.1 == fieldLE b 0 1) = none → t.serving = s.serving ∧ t.mgmt.alarm.getLsbD 3 = true)
      ∧ ((aget {} s.serving.groups (fieldLE b 0 1)).replace ≠ none → t.serving = s.serving)
      ∧ (∀ x, s.footing.models.find? (fun x => x.1 == fieldLE b 0 1) = some x →
        let dig := slice b 4 32
        let draft := slice b 36 32
        let other := s.footing.models.find? fun y => y.1 == x.2.draft
        let bound (d : Bytes) : Prop := ∀ img, s.headerImage d = some img → (unwrapKey img).isSome
        (aget {} s.serving.groups (fieldLE b 0 1)).replace = none → (x.2.draft = 0xFF ∨ s.shapeChanges x.2.header dig = false) →
        bound dig → (bound draft ∨ allZero draft = true) →
        ((other = none ∨ allZero draft = true) → t = { u.noteReplace (fieldLE b 0 1) x.2 dig with
            mgmt := t.mgmt, journal := t.journal, live := t.live, out := t.out })
        ∧ (∀ y, other = some y → allZero draft = false →
          t = { (u.noteReplace (fieldLE b 0 1) x.2 dig).noteReplace y.1 y.2 draft with
                mgmt := t.mgmt, journal := t.journal, live := t.live, out := t.out })
        ∧ (other = none → x.2.bays ≠ 0 → s.headerImage dig = none →
          let bays := (List.range 64).filter fun i => x.2.bays.getLsbD i
          (aget {} t.serving.groups (fieldLE b 0 1)).replace
            = some { header := dig, weights := [], old := x.2.weights, ready := false, bays := bays }))
      ∧ t.bricks = s.bricks ∧ t.footing = s.footing)
    ∧ does (.cancelChange m) 0x0106 (fun t =>
      ((∃ k ∈ s.journal.entries, k.entry.seq = fieldLE b 0 8 ∧ k.isWaiting = true) →
        t.tb.sched = s.tb.sched.filter (fun e => !(e.cls == 0 && e.arg == BitVec.ofNat 32 (fieldLE b 0 8))))
      ∧ ((∀ k ∈ s.journal.entries, k.entry.seq = fieldLE b 0 8 → k.isWaiting = false) →
        t.tb = s.tb ∧ Output.cirid m.conn (State.ciridMsg 0x0106 1 m.tag eChangeDone (errorBody 0xFFFFFFFF seq)) ∈ t.out))
    ∧ does (.job m) 0x0107 (fun t =>
      t.turn = { s.turn with jobHeld := fieldLE b 0 1 == 1 || s.system.remapCode == eRemapNone }
      ∧ s.Answers t 0x0107 m sOk [] ∧ t = { s with mgmt := u.mgmt, turn := t.turn, journal := t.journal, live := t.live, out := t.out })

/-- ERASE, WRITE, VERIFY and WRITE_FOOTING_DONE (R464), RESET and SUBSTITUTE_COMMAND (R414, R462, R465), and
JOURNAL_ADOPT (R444): the active slot is not written; the operation runs until it is done and is answered then; an
erased slot reads 0xFF and programming clears bits only; an immediate RESET is answered and taken; a chain of entries
that does not continue its base is not adopted. -/
def Obligations.FootingWritesAndActions : Prop :=
  (∀ x ∈ ([(Instr.erase, 0), (Instr.write, 1), (Instr.verify, 2)] : List ((Cirid → Instr) × Nat)),
    ∀ (s : State) (slot : Nat) (m : Cirid), s.Serves (0x201 + 0x10000 * x.2) slot m → Completes (x.1 m) s fun t =>
      let chk := s.footingOpCheck x.2 m
      (plainHeader m → s.footing.present = true → s.boot.ftSlot = false → 8 ≤ m.body.length → fieldLE m.body 0 1 = x.2 →
        fieldLE m.body 1 1 = 0 → fieldLE m.body 2 2 = 0 → (x.2 ≠ 1 → m.body.length = 8) → (x.2 = 1 → 9 ≤ m.body.length) →
        m.body.length ≤ 1048568 → s.Answers t 0x201 m eSlotActive (errorBody 17 0))
      ∧ (chk.1 ≠ sOk → s.Answers t 0x201 m chk.1 (errorBody chk.2 0) ∧ t.mgmt.flashOp = s.mgmt.flashOp)
      ∧ (chk.1 = sOk → t.mgmt.flashOp = some (x.2, m) ∧ t.out = s.out)
      ∧ t = { s with mgmt := t.mgmt, live := t.live, out := t.out })
  ∧ (∀ (s : State) (sub : Nat) (m : Cirid), s.powered = true → s.mgmt.flashOp = some (sub, m) → s.mgmt.waiting = [] →
    (∃ c ∈ s.mgmt.conns, c.id = m.conn) → Completes .writeFootingDone s fun t =>
      let half := fieldLE m.body 1 1 == 1
      let lo := footingBase s.boot.flashMib half
      t.mgmt.flashOp = none
      ∧ (sub = 0 → s.Answers t 0x201 m sOk []
        ∧ ∀ a, aget 0xFF t.flash a = if lo ≤ a ∧ a < lo + slotSize s.boot.flashMib then 0xFF else aget 0xFF s.flash a)
      ∧ (sub = 1 → s.Answers t 0x201 m sOk []
        ∧ (∀ i, i < m.body.length - 8 → aget 0xFF t.flash (lo + fieldLE m.body 4 4 + i)
          = aget 0xFF s.flash (lo + fieldLE m.body 4 4 + i) &&& (m.body.drop 8).getD i 0)
        ∧ (∀ a, (a < lo + fieldLE m.body 4 4 ∨ lo + fieldLE m.body 4 4 + (m.body.length - 8) ≤ a) →
          aget 0xFF t.flash a = aget 0xFF s.flash a))
      ∧ (sub = 2 → t.flash = s.flash
        ∧ (let r := footingCheck s.flash s.boot.flashMib half s.marlFound
          s.Answers t 0x201 m r.1 (if isError r.1 then errorBody 0xFFFFFFFF 0 else leBytes 8 r.2.generation)))
      ∧ t = { s with flash := t.flash, mgmt := t.mgmt, live := t.live, out := t.out })
  ∧ (∀ (s : State) (slot : Nat) (m : Cirid), s.Serves 0x202 slot m → plainHeader m → m.body.length = 8 → Completes (.reset m) s fun t =>
    (fieldLE m.body 0 8 = 0 → t.inReset = true ∧ t.flash = s.flash ∧ t.bays = [] ∧ t.tb = State.reset.tb
      ∧ s.Answers t 0x202 m sOk [])
    ∧ (fieldLE m.body 0 8 ≠ 0 → s.schedCode true (fieldLE m.body 0 8) 3 0 = sOk →
      t.mgmt.resetAt ≠ none ∧ t.tb.sched = s.tb.sched ++ [{ tick := fieldLE m.body 0 8, cls := 3, arg := 0 }]
      ∧ t.inReset = s.inReset ∧ s.Answers t 0x202 m sOk [])
    ∧ (fieldLE m.body 0 8 ≠ 0 → s.schedCode true (fieldLE m.body 0 8) 3 0 ≠ sOk →
      t.mgmt.resetAt = s.mgmt.resetAt ∧ t.tb = s.tb ∧ t.inReset = s.inReset
      ∧ ∃ at_, s.Answers t 0x202 m (s.schedCode true (fieldLE m.body 0 8) 3 0) (errorBody at_ 0)))
  ∧ (∀ (s : State) (slot : Nat) (m : Cirid), s.Serves 0x203 slot m → plainHeader m → m.body.length = 2 →
    Completes (.substituteCommand m) s fun t =>
      (s.isDevice (fieldLE m.body 0 2) = false → s.Answers t 0x203 m eBadField (errorBody 16 0) ∧ t.system = s.system)
      ∧ (s.isDevice (fieldLE m.body 0 2) = true → s.system.spare = false → s.system.substituting = false →
        s.Answers t 0x203 m sOk [] ∧ t.system = s.system)
      ∧ (s.isDevice (fieldLE m.body 0 2) = true → s.system.spare = false → s.system.substituting = true →
        fieldLE m.body 0 2 ≠ s.system.device → State.sameCairn (s.coordsOf (fieldLE m.body 0 2)) s.selfCoords = true →
        s.Answers t 0x203 m eSubstNone (errorBody 0xFFFFFFFF 0) ∧ t.system = { s.system with substCode := eSubstNone })
      ∧ (s.isDevice (fieldLE m.body 0 2) = true → s.system.spare = true →
        16320 + s.cairnNum (s.coordsOf (fieldLE m.body 0 2)) ≠ s.system.device →
        s.Answers t 0x203 m eBadField (errorBody 16 0) ∧ t.system = s.system)
      ∧ (s.isDevice (fieldLE m.body 0 2) = true → s.system.spare = true →
        16320 + s.cairnNum (s.coordsOf (fieldLE m.body 0 2)) = s.system.device →
        t.system.device = fieldLE m.body 0 2 ∧ t.system.spare = false ∧ t.system.substituting = true))
  ∧ (∀ (s : State) (base : Nat) (head : Bytes) (es : List JournalEntry) (n : Nat) (other : Bytes),
    s.awake = true → s.boot.mortar = true → Completes (.journalAdopt base head es n other) s fun t =>
      (State.chainHeads base head es = none → t.journal = s.journal ∧ t.boot.adoptFailed = true ∧ t.mgmt.alarm.getLsbD 2 = true)
      ∧ (∀ hs, State.chainHeads base head es = some hs → base = 0 → head = State.journalStart s.footing.systemDigest →
        t.journal.seq = es.length ∧ t.journal.baseHead = head ∧ t.journal.head = hs.getLastD head
        ∧ t.journal.entries.map (·.entry) = (es.zip hs).map (·.1)
        ∧ t.journal.entries.map (·.fired) = es.map (fun e => decide (e.tick ≤ s.tb.tick))
        ∧ t.boot.adopted = true ∧ t.boot.adoptFailed = false ∧ t = { s with journal := t.journal, tb := t.tb, boot := t.boot }
        ∧ ((∀ e ∈ es, e.tick ≤ s.tb.tick) → t.tb = s.tb))
      ∧ (∀ hs, State.chainHeads base head es = some hs → base ≠ 0 → State.baseOk base hs head n other = true →
        t.journal.seq = base + es.length ∧ t.journal.baseSeq = base ∧ t.journal.baseHead = head
        ∧ t.journal.head = hs.getLastD head ∧ t.boot.adopted = true ∧ t.boot.adoptFailed = false)
      ∧ (∀ hs, State.chainHeads base head es = some hs →
        ((base = 0 ∧ head ≠ State.journalStart s.footing.systemDigest) ∨ (base ≠ 0 ∧ State.baseOk base hs head n other = false)) →
        t.journal = s.journal ∧ t.boot.adoptFailed = true ∧ t.mgmt.alarm.getLsbD 2 = true))
end

