-- ==== Sys2Proof/Laws/Links.lean ====
section
/-!
SUPPORT. Lemmas about byte strings and flits: lengths of built fields, a number read back from its bytes, the CRC of a
flit the device builds.
-/
namespace Sys2Proof.Machine

@[simp] theorem leBytes_length (n v : Nat) : (leBytes n v).length = n := by simp [leBytes]

@[simp] theorem zeros_length (n : Nat) : (zeros n).length = n := by simp [zeros]

@[simp] theorem slice_length (bs : Bytes) (k n : Nat) : (slice bs k n).length = n := by
  simp only [slice, List.length_append, List.length_take, List.length_drop, List.length_replicate]
  omega

theorem leBytes_succ (n v : Nat) : leBytes (n + 1) v = BitVec.ofNat 8 v :: leBytes n (v / 256) := by
  simp only [leBytes, List.range_succ_eq_map, List.map_cons, List.map_map, Nat.mul_zero, Nat.shiftRight_zero]
  congr 1
  apply List.map_congr_left
  intro i _
  simp only [Function.comp_apply, Nat.succ_eq_add_one]
  rw [show 8 * (i + 1) = 8 + 8 * i by omega, Nat.shiftRight_add, Nat.shiftRight_eq_div_pow v 8]

/-- A number of n bytes is read back from them. -/
theorem leNat_leBytes (n : Nat) : ∀ v, v < 256 ^ n → leNat (leBytes n v) = v := by
  induction n with
  | zero => intro v h; simp at h; simp [leBytes, leNat, h]
  | succ n ih =>
    intro v h
    rw [leBytes_succ, leNat, ih (v / 256) (by rw [Nat.pow_succ] at h; exact Nat.div_lt_of_lt_mul (by omega))]
    simp only [BitVec.toNat_ofNat]
    omega

theorem crcStep_lt (poly : Nat) (hp : poly < 2 ^ 32) (n : Nat) : ∀ c, c < 2 ^ 32 → crcStep poly n c < 2 ^ 32 := by
  induction n with
  | zero => intro c h; exact h
  | succ n ih =>
    intro c h
    apply ih
    split
    · exact Nat.xor_lt_two_pow (by omega) hp
    · omega

/-- The CRC-32 is a number of 32 bits. -/
theorem crc32_lt (b : Bytes) : crc32 b < 2 ^ 32 := by
  have key : ∀ (l : Bytes) (c : Nat), c < 2 ^ 32 →
      l.foldl (fun c b => crcStep 0xEDB88320 8 (c ^^^ b.toNat)) c < 2 ^ 32 := by
    intro l
    induction l with
    | nil => intro c h; exact h
    | cons x l ih =>
      intro c h
      exact ih _ (crcStep_lt _ (by decide) 8 _ (Nat.xor_lt_two_pow h (by have := x.isLt; omega)))
  exact Nat.xor_lt_two_pow (key b _ (by decide)) (by decide)

/-- The CRC of a flit put together from its first 624 bytes, a CRC field and its last 12 (R394). -/
theorem flitCrcOk_append (front tail : Bytes) (c : Nat) (hf : front.length = 624) (ht : tail.length = 12) (hc : c < 2 ^ 32) :
    flitCrcOk (front ++ leBytes 4 c ++ tail) = decide (c = crc32 (front ++ tail)) := by
  have hd : (front ++ leBytes 4 c ++ tail).drop 624 = leBytes 4 c ++ tail := by
    rw [List.append_assoc, ← hf, List.drop_left]
  have hd4 : (front ++ leBytes 4 c ++ tail).drop 628 = tail := by
    rw [show (628 : Nat) = (front ++ leBytes 4 c).length by simp [hf], List.drop_left]
  have hk : (leBytes 4 c ++ tail).take 4 = leBytes 4 c := by
    have := List.take_left (l₁ := leBytes 4 c) (l₂ := tail)
    rwa [leBytes_length] at this
  have hl : (front ++ leBytes 4 c ++ tail).length = 640 := by simp [hf, ht]
  have hk2 : (front ++ leBytes 4 c ++ tail).take 624 = front := by rw [List.append_assoc, ← hf, List.take_left]
  rw [flitCrcOk, flitCrc, fieldLE, hl, hd, hd4, hk, hk2, leNat_leBytes 4 c (by omega)]
  simp [Bool.beq_eq_decide_eq]

/-- A flit as the device builds it (R394) carries the CRC a receiver asks for, whatever its header, payload and tag. -/
theorem flitCrcOk_flitBytes (h payload tag : Bytes) (hh : h.length = 16) : flitCrcOk (flitBytes h payload tag) = true := by
  simp only [flitBytes]
  rw [flitCrcOk_append _ _ _ (by simp [hh]) (by simp) (crc32_lt _)]
  simp

/-- A flit with one added to its CRC field fails the receiver's check. -/
theorem flitCrcOk_wrong (f : Bytes) (h : f.length = 640) :
    flitCrcOk (f.take 624 ++ leBytes 4 ((flitCrc f + 1) % 2 ^ 32) ++ f.drop 628) = false := by
  rw [flitCrcOk_append _ _ _ (by simp [h]) (by simp [h]) (by omega)]
  have := crc32_lt (f.take 624 ++ f.drop 628)
  rw [flitCrc, decide_eq_false_iff_not]
  omega

end Sys2Proof.Machine
end

