-- ==== Sys2Proof/Laws/Ops.lean ====
section
/-!
SUPPORT. Laws of the sparse maps and byte memories (Machine/Ops.lean): what a read after a write gives, and that every
write keeps the canonical form; and of the statistics counters.
-/
namespace Sys2Proof.Machine

theorem aget_append {α : Type} (d : α) (m n : Assoc α) (i : Nat) :
    aget d (m ++ n) i = if m.any (fun c => c.1 = i) then aget d m i else aget d n i := by
  induction m with
  | nil => simp
  | cons c m ih =>
    by_cases h : c.1 = i
    · simp [aget, h]
    · simp only [List.cons_append, aget, if_neg h, ih, List.any_cons, decide_eq_false h, Bool.false_or]

/-- A key that no entry holds reads the default. -/
theorem aget_absent {α : Type} (d : α) (m : Assoc α) (i : Nat) (h : ∀ c ∈ m, c.1 ≠ i) : aget d m i = d := by
  induction m with
  | nil => rfl
  | cons c m ih =>
    rw [aget, if_neg (h c (by simp))]
    exact ih fun x hx => h x (by simp [hx])

theorem arun_keys {α : Type} [DecidableEq α] (d : α) (vs : List α) : ∀ a, ∀ c ∈ arun d a vs, a ≤ c.1 ∧ c.1 < a + vs.length ∧ c.2 ≠ d := by
  induction vs with
  | nil => simp [arun]
  | cons v vs ih =>
    intro a c hc
    simp only [List.length_cons]
    by_cases h : v = d
    · simp only [arun, if_pos h] at hc
      have ⟨h1, h2, h3⟩ := ih (a + 1) c hc
      exact ⟨by omega, by omega, h3⟩
    · simp only [arun, if_neg h, List.mem_cons] at hc
      rcases hc with rfl | hc
      · exact ⟨Nat.le_refl _, by simp, h⟩
      · have ⟨h1, h2, h3⟩ := ih (a + 1) c hc
        exact ⟨by omega, by omega, h3⟩

theorem arun_sorted {α : Type} [DecidableEq α] (d : α) (vs : List α) : ∀ a, (arun d a vs).Pairwise (fun x y => x.1 < y.1) := by
  induction vs with
  | nil => simp [arun]
  | cons v vs ih =>
    intro a
    by_cases h : v = d
    · simp only [arun, if_pos h]
      exact ih (a + 1)
    · simp only [arun, if_neg h, List.pairwise_cons]
      exact ⟨fun c hc => (arun_keys d vs (a + 1) c hc).1, ih (a + 1)⟩

theorem aget_arun {α : Type} [DecidableEq α] (d : α) (vs : List α) : ∀ a i, i < vs.length → aget d (arun d a vs) (a + i) = vs.getD i d := by
  induction vs with
  | nil => simp
  | cons v vs ih =>
    intro a i hi
    cases i with
    | zero =>
      by_cases h : v = d
      · simp only [arun, if_pos h, Nat.add_zero, List.getD_cons_zero]
        rw [h]
        exact aget_absent d _ a fun c hc => by
          have := (arun_keys d vs (a + 1) c hc).1
          omega
      · simp [arun, h, aget]
    | succ i =>
      have e : a + (i + 1) = a + 1 + i := by omega
      have hi' : i < vs.length := by simpa using hi
      rw [e, List.getD_cons_succ, ← ih (a + 1) i hi']
      by_cases h : v = d
      · simp only [arun, if_pos h]
      · simp only [arun, if_neg h, aget]
        rw [if_neg (by omega)]

/-- Writing a run of values keeps the canonical form. -/
theorem awf_awrite {α : Type} [DecidableEq α] (d : α) (m : Assoc α) (a : Nat) (vs : List α) (h : awf d m) : awf d (awrite d m a vs) := by
  constructor
  · unfold awrite
    rw [List.pairwise_append, List.pairwise_append]
    refine ⟨⟨h.1.filter _, arun_sorted d vs a, ?_⟩, h.1.filter _, ?_⟩
    · intro x hx y hy
      have := of_decide_eq_true (List.mem_filter.1 hx).2
      have := (arun_keys d vs a y hy).1
      omega
    · intro x hx y hy
      have := of_decide_eq_true (List.mem_filter.1 hy).2
      rcases List.mem_append.1 hx with hx | hx
      · have := of_decide_eq_true (List.mem_filter.1 hx).2
        omega
      · have := (arun_keys d vs a x hx).2.1
        omega
  · intro c hc
    unfold awrite at hc
    rcases List.mem_append.1 hc with hc | hc
    · rcases List.mem_append.1 hc with hc | hc
      · exact h.2 c ((List.mem_filter.1 hc).1)
      · exact (arun_keys d vs a c hc).2.2
    · exact h.2 c ((List.mem_filter.1 hc).1)

/-- Writing one value keeps the canonical form. -/
theorem awf_aput {α : Type} [DecidableEq α] (d : α) (m : Assoc α) (i : Nat) (v : α) (h : awf d m) : awf d (aput d m i v) := awf_awrite d m i [v] h

theorem aget_filter {α : Type} (d : α) (m : Assoc α) (i : Nat) (p : Nat × α → Bool) (h : ∀ c ∈ m, c.1 = i → p c = true) :
    aget d (m.filter p) i = aget d m i := by
  induction m with
  | nil => rfl
  | cons c m ih =>
    have ih' := ih fun x hx => h x (by simp [hx])
    by_cases hp : p c = true
    · rw [List.filter_cons_of_pos hp, aget, aget, ih']
    · rw [List.filter_cons_of_neg hp, ih', aget, if_neg]
      exact fun e => hp (h c (by simp) e)

/-- A key outside a written run reads as before. -/
theorem aget_awrite_other {α : Type} [DecidableEq α] (d : α) (m : Assoc α) (a : Nat) (vs : List α) (i : Nat) (h : i < a ∨ a + vs.length ≤ i) :
    aget d (awrite d m a vs) i = aget d m i := by
  unfold awrite
  rw [aget_append, aget_append]
  have harun : (arun d a vs).any (fun c => c.1 = i) = false := by
    simp only [List.any_eq_false, decide_eq_true_eq]
    intro c hc e
    have ⟨h1, h2, _⟩ := arun_keys d vs a c hc
    omega
  rcases h with h | h
  · by_cases hm : (m.filter fun c => decide (c.1 < a)).any (fun c => c.1 = i) = true
    · rw [List.any_append, hm, Bool.true_or, if_pos rfl, if_pos rfl]
      exact aget_filter d m i _ fun c _ e => by simpa [e] using h
    · have hall : ∀ c ∈ m, c.1 ≠ i := by
        intro c hc e
        apply hm
        simp only [List.any_eq_true, List.mem_filter, decide_eq_true_eq]
        exact ⟨c, ⟨hc, by omega⟩, e⟩
      rw [List.any_append, harun, Bool.or_false, if_neg hm]
      rw [aget_absent d m i hall]
      exact aget_absent d _ i fun c hc => hall c ((List.mem_filter.1 hc).1)
  · have hlow : (m.filter fun c => decide (c.1 < a)).any (fun c => c.1 = i) = false := by
      simp only [List.any_eq_false, decide_eq_true_eq, List.mem_filter]
      rintro c ⟨_, hc⟩ e
      omega
    rw [List.any_append, harun, hlow, Bool.or_false, if_neg (by simp)]
    exact aget_filter d m i _ fun c _ e => by simpa [e] using h

/-- A key of a written run reads what was written. -/
theorem aget_awrite_same {α : Type} [DecidableEq α] (d : α) (m : Assoc α) (a : Nat) (vs : List α) (i : Nat) (h : i < vs.length) :
    aget d (awrite d m a vs) (a + i) = vs.getD i d := by
  unfold awrite
  rw [aget_append, aget_append]
  have hlow : (m.filter fun c => decide (c.1 < a)).any (fun c => c.1 = a + i) = false := by
    simp only [List.any_eq_false, decide_eq_true_eq, List.mem_filter]
    rintro c ⟨_, hc⟩ e
    omega
  rw [List.any_append, hlow, Bool.false_or]
  by_cases hr : (arun d a vs).any (fun c => c.1 = a + i) = true
  · rw [if_pos hr, if_neg (by simp), aget_arun d vs a i h]
  · rw [if_neg hr]
    have e : vs.getD i d = d := by
      rw [← aget_arun d vs a i h]
      exact aget_absent d _ _ fun c hc e => hr (List.any_eq_true.2 ⟨c, hc, by simpa using e⟩)
    rw [e]
    apply aget_absent
    intro c hc e2
    have := of_decide_eq_true (List.mem_filter.1 hc).2
    omega

@[simp] theorem aget_aput_same {α : Type} [DecidableEq α] (d : α) (m : Assoc α) (i : Nat) (v : α) : aget d (aput d m i v) i = v := by
  have := aget_awrite_same d m i [v] 0 (by simp)
  simpa [aput] using this

theorem aget_aput_other {α : Type} [DecidableEq α] (d : α) (m : Assoc α) (i j : Nat) (v : α) (h : j ≠ i) : aget d (aput d m i v) j = aget d m j :=
  aget_awrite_other d m i [v] j (by simp only [List.length_cons, List.length_nil]; omega)

theorem aget_aput {α : Type} [DecidableEq α] (d : α) (m : Assoc α) (i j : Nat) (v : α) : aget d (aput d m i v) j = if j = i then v else aget d m j := by
  by_cases h : j = i
  · rw [if_pos h, h, aget_aput_same]
  · rw [if_neg h, aget_aput_other d m i j v h]

namespace State

@[simp] theorem brick_setBrick (s : State) (n : Nat) (b : Brick) : (s.setBrick n b).brick n = b := aget_aput_same ..
@[simp] theorem bay_setBay (s : State) (n : Nat) (b : Bay) : (s.setBay n b).bay n = b := aget_aput_same ..
@[simp] theorem unit_setUnit (s : State) (n : Nat) (b : MemUnit) : (s.setUnit n b).unit n = b := aget_aput_same ..
@[simp] theorem relay_setRelay (s : State) (n : Nat) (b : Relay) : (s.setRelay n b).relay n = b := aget_aput_same ..
@[simp] theorem port_setPort (s : State) (n : Nat) (b : HxPort) : (s.setPort n b).port n = b := aget_aput_same ..
@[simp] theorem obj_setObj (s : State) (n : Nat) (b : Option Obj) : (s.setObj n b).obj n = b := aget_aput_same ..

theorem brick_setBrick_other (s : State) (n m : Nat) (b : Brick) (h : m ≠ n) : (s.setBrick n b).brick m = s.brick m :=
  aget_aput_other _ _ _ _ _ h
theorem bay_setBay_other (s : State) (n m : Nat) (b : Bay) (h : m ≠ n) : (s.setBay n b).bay m = s.bay m :=
  aget_aput_other _ _ _ _ _ h
theorem unit_setUnit_other (s : State) (n m : Nat) (b : MemUnit) (h : m ≠ n) : (s.setUnit n b).unit m = s.unit m :=
  aget_aput_other _ _ _ _ _ h
theorem relay_setRelay_other (s : State) (n m : Nat) (b : Relay) (h : m ≠ n) : (s.setRelay n b).relay m = s.relay m :=
  aget_aput_other _ _ _ _ _ h
theorem port_setPort_other (s : State) (n m : Nat) (b : HxPort) (h : m ≠ n) : (s.setPort n b).port m = s.port m :=
  aget_aput_other _ _ _ _ _ h
theorem obj_setObj_other (s : State) (n m : Nat) (b : Option Obj) (h : m ≠ n) : (s.setObj n b).obj m = s.obj m :=
  aget_aput_other _ _ _ _ _ h

/-- A counter counted reads its old value plus n, saturating; outside the fatal state (R53, R474). -/
theorem stat_count (s : State) (a n : Nat) (h : s.rel.fatal = false) :
    (s.count a n).stat a = BitVec.ofNat 32 (min ((s.stat a).toNat + n) 0xFFFFFFFF) := by
  simp [count, stat, h]

/-- Every other counter stays. -/
theorem stat_count_other (s : State) (a b n : Nat) (hb : b ≠ a) : (s.count a n).stat b = s.stat b := by
  unfold count stat
  split
  · rfl
  · exact aget_aput_other _ _ _ _ _ hb

/-- In the fatal state nothing counts (R474). -/
theorem count_fatal (s : State) (a n : Nat) (h : s.rel.fatal = true) : s.count a n = s := by simp [count, h]

/-- Counting changes the live counters alone. -/
theorem count_frame (s : State) (a n : Nat) : s.count a n = { s with live := (s.count a n).live } := by
  unfold count
  split <;> rfl

end State

end Sys2Proof.Machine
end

