-- ==== Sys2Proof/Laws/State.lean ====
section
/-!
SUPPORT. One lemma per field of State per update: which fields an update of Machine/Ops.lean leaves, and what it makes of
the one it writes. All by rfl, but for the counters, which stand still in the fatal state.
-/
namespace Sys2Proof.Machine.State

/-! ### setBrick -/

@[simp] theorem setBrick_inReset (s : State) (n : Nat) (v : Brick) : (s.setBrick n v).inReset = s.inReset := rfl
@[simp] theorem setBrick_stopped (s : State) (n : Nat) (v : Brick) : (s.setBrick n v).stopped = s.stopped := rfl
@[simp] theorem setBrick_tb (s : State) (n : Nat) (v : Brick) : (s.setBrick n v).tb = s.tb := rfl
@[simp] theorem setBrick_census (s : State) (n : Nat) (v : Brick) : (s.setBrick n v).census = s.census := rfl
@[simp] theorem setBrick_dies (s : State) (n : Nat) (v : Brick) : (s.setBrick n v).dies = s.dies := rfl
@[simp] theorem setBrick_net (s : State) (n : Nat) (v : Brick) : (s.setBrick n v).net = s.net := rfl
@[simp] theorem setBrick_bays (s : State) (n : Nat) (v : Brick) : (s.setBrick n v).bays = s.bays := rfl
@[simp] theorem setBrick_validator (s : State) (n : Nat) (v : Brick) : (s.setBrick n v).validator = s.validator := rfl
@[simp] theorem setBrick_tier (s : State) (n : Nat) (v : Brick) : (s.setBrick n v).tier = s.tier := rfl
@[simp] theorem setBrick_objs (s : State) (n : Nat) (v : Brick) : (s.setBrick n v).objs = s.objs := rfl
@[simp] theorem setBrick_units (s : State) (n : Nat) (v : Brick) : (s.setBrick n v).units = s.units := rfl
@[simp] theorem setBrick_sectors (s : State) (n : Nat) (v : Brick) : (s.setBrick n v).sectors = s.sectors := rfl
@[simp] theorem setBrick_ckpt (s : State) (n : Nat) (v : Brick) : (s.setBrick n v).ckpt = s.ckpt := rfl
@[simp] theorem setBrick_turn (s : State) (n : Nat) (v : Brick) : (s.setBrick n v).turn = s.turn := rfl
@[simp] theorem setBrick_relays (s : State) (n : Nat) (v : Brick) : (s.setBrick n v).relays = s.relays := rfl
@[simp] theorem setBrick_ports (s : State) (n : Nat) (v : Brick) : (s.setBrick n v).ports = s.ports := rfl
@[simp] theorem setBrick_system (s : State) (n : Nat) (v : Brick) : (s.setBrick n v).system = s.system := rfl
@[simp] theorem setBrick_serving (s : State) (n : Nat) (v : Brick) : (s.setBrick n v).serving = s.serving := rfl
@[simp] theorem setBrick_cs (s : State) (n : Nat) (v : Brick) : (s.setBrick n v).cs = s.cs := rfl
@[simp] theorem setBrick_footing (s : State) (n : Nat) (v : Brick) : (s.setBrick n v).footing = s.footing := rfl
@[simp] theorem setBrick_boot (s : State) (n : Nat) (v : Brick) : (s.setBrick n v).boot = s.boot := rfl
@[simp] theorem setBrick_flash (s : State) (n : Nat) (v : Brick) : (s.setBrick n v).flash = s.flash := rfl
@[simp] theorem setBrick_journal (s : State) (n : Nat) (v : Brick) : (s.setBrick n v).journal = s.journal := rfl
@[simp] theorem setBrick_mgmt (s : State) (n : Nat) (v : Brick) : (s.setBrick n v).mgmt = s.mgmt := rfl
@[simp] theorem setBrick_fetch (s : State) (n : Nat) (v : Brick) : (s.setBrick n v).fetch = s.fetch := rfl
@[simp] theorem setBrick_rel (s : State) (n : Nat) (v : Brick) : (s.setBrick n v).rel = s.rel := rfl
@[simp] theorem setBrick_pins (s : State) (n : Nat) (v : Brick) : (s.setBrick n v).pins = s.pins := rfl
@[simp] theorem setBrick_power (s : State) (n : Nat) (v : Brick) : (s.setBrick n v).power = s.power := rfl
@[simp] theorem setBrick_live (s : State) (n : Nat) (v : Brick) : (s.setBrick n v).live = s.live := rfl
@[simp] theorem setBrick_snap (s : State) (n : Nat) (v : Brick) : (s.setBrick n v).snap = s.snap := rfl
@[simp] theorem setBrick_ctlFaultAddr (s : State) (n : Nat) (v : Brick) : (s.setBrick n v).ctlFaultAddr = s.ctlFaultAddr := rfl
@[simp] theorem setBrick_sramN (s : State) (n : Nat) (v : Brick) : (s.setBrick n v).sramN = s.sramN := rfl
@[simp] theorem setBrick_sramS (s : State) (n : Nat) (v : Brick) : (s.setBrick n v).sramS = s.sramS := rfl
@[simp] theorem setBrick_pairHold (s : State) (n : Nat) (v : Brick) : (s.setBrick n v).pairHold = s.pairHold := rfl
@[simp] theorem setBrick_pairShadow (s : State) (n : Nat) (v : Brick) : (s.setBrick n v).pairShadow = s.pairShadow := rfl
@[simp] theorem setBrick_out (s : State) (n : Nat) (v : Brick) : (s.setBrick n v).out = s.out := rfl
@[simp] theorem setBrick_freeCtr (s : State) (n : Nat) (v : Brick) : (s.setBrick n v).freeCtr = s.freeCtr := rfl
@[simp] theorem setBrick_pending (s : State) (n : Nat) (v : Brick) : (s.setBrick n v).pending = s.pending := rfl

/-! ### setBay -/

@[simp] theorem setBay_inReset (s : State) (n : Nat) (v : Bay) : (s.setBay n v).inReset = s.inReset := rfl
@[simp] theorem setBay_stopped (s : State) (n : Nat) (v : Bay) : (s.setBay n v).stopped = s.stopped := rfl
@[simp] theorem setBay_tb (s : State) (n : Nat) (v : Bay) : (s.setBay n v).tb = s.tb := rfl
@[simp] theorem setBay_census (s : State) (n : Nat) (v : Bay) : (s.setBay n v).census = s.census := rfl
@[simp] theorem setBay_dies (s : State) (n : Nat) (v : Bay) : (s.setBay n v).dies = s.dies := rfl
@[simp] theorem setBay_net (s : State) (n : Nat) (v : Bay) : (s.setBay n v).net = s.net := rfl
@[simp] theorem setBay_bricks (s : State) (n : Nat) (v : Bay) : (s.setBay n v).bricks = s.bricks := rfl
@[simp] theorem setBay_validator (s : State) (n : Nat) (v : Bay) : (s.setBay n v).validator = s.validator := rfl
@[simp] theorem setBay_tier (s : State) (n : Nat) (v : Bay) : (s.setBay n v).tier = s.tier := rfl
@[simp] theorem setBay_objs (s : State) (n : Nat) (v : Bay) : (s.setBay n v).objs = s.objs := rfl
@[simp] theorem setBay_units (s : State) (n : Nat) (v : Bay) : (s.setBay n v).units = s.units := rfl
@[simp] theorem setBay_sectors (s : State) (n : Nat) (v : Bay) : (s.setBay n v).sectors = s.sectors := rfl
@[simp] theorem setBay_ckpt (s : State) (n : Nat) (v : Bay) : (s.setBay n v).ckpt = s.ckpt := rfl
@[simp] theorem setBay_turn (s : State) (n : Nat) (v : Bay) : (s.setBay n v).turn = s.turn := rfl
@[simp] theorem setBay_relays (s : State) (n : Nat) (v : Bay) : (s.setBay n v).relays = s.relays := rfl
@[simp] theorem setBay_ports (s : State) (n : Nat) (v : Bay) : (s.setBay n v).ports = s.ports := rfl
@[simp] theorem setBay_system (s : State) (n : Nat) (v : Bay) : (s.setBay n v).system = s.system := rfl
@[simp] theorem setBay_serving (s : State) (n : Nat) (v : Bay) : (s.setBay n v).serving = s.serving := rfl
@[simp] theorem setBay_cs (s : State) (n : Nat) (v : Bay) : (s.setBay n v).cs = s.cs := rfl
@[simp] theorem setBay_footing (s : State) (n : Nat) (v : Bay) : (s.setBay n v).footing = s.footing := rfl
@[simp] theorem setBay_boot (s : State) (n : Nat) (v : Bay) : (s.setBay n v).boot = s.boot := rfl
@[simp] theorem setBay_flash (s : State) (n : Nat) (v : Bay) : (s.setBay n v).flash = s.flash := rfl
@[simp] theorem setBay_journal (s : State) (n : Nat) (v : Bay) : (s.setBay n v).journal = s.journal := rfl
@[simp] theorem setBay_mgmt (s : State) (n : Nat) (v : Bay) : (s.setBay n v).mgmt = s.mgmt := rfl
@[simp] theorem setBay_fetch (s : State) (n : Nat) (v : Bay) : (s.setBay n v).fetch = s.fetch := rfl
@[simp] theorem setBay_rel (s : State) (n : Nat) (v : Bay) : (s.setBay n v).rel = s.rel := rfl
@[simp] theorem setBay_pins (s : State) (n : Nat) (v : Bay) : (s.setBay n v).pins = s.pins := rfl
@[simp] theorem setBay_power (s : State) (n : Nat) (v : Bay) : (s.setBay n v).power = s.power := rfl
@[simp] theorem setBay_live (s : State) (n : Nat) (v : Bay) : (s.setBay n v).live = s.live := rfl
@[simp] theorem setBay_snap (s : State) (n : Nat) (v : Bay) : (s.setBay n v).snap = s.snap := rfl
@[simp] theorem setBay_ctlFaultAddr (s : State) (n : Nat) (v : Bay) : (s.setBay n v).ctlFaultAddr = s.ctlFaultAddr := rfl
@[simp] theorem setBay_sramN (s : State) (n : Nat) (v : Bay) : (s.setBay n v).sramN = s.sramN := rfl
@[simp] theorem setBay_sramS (s : State) (n : Nat) (v : Bay) : (s.setBay n v).sramS = s.sramS := rfl
@[simp] theorem setBay_pairHold (s : State) (n : Nat) (v : Bay) : (s.setBay n v).pairHold = s.pairHold := rfl
@[simp] theorem setBay_pairShadow (s : State) (n : Nat) (v : Bay) : (s.setBay n v).pairShadow = s.pairShadow := rfl
@[simp] theorem setBay_out (s : State) (n : Nat) (v : Bay) : (s.setBay n v).out = s.out := rfl
@[simp] theorem setBay_freeCtr (s : State) (n : Nat) (v : Bay) : (s.setBay n v).freeCtr = s.freeCtr := rfl
@[simp] theorem setBay_pending (s : State) (n : Nat) (v : Bay) : (s.setBay n v).pending = s.pending := rfl

/-! ### setUnit -/

@[simp] theorem setUnit_inReset (s : State) (n : Nat) (v : MemUnit) : (s.setUnit n v).inReset = s.inReset := rfl
@[simp] theorem setUnit_stopped (s : State) (n : Nat) (v : MemUnit) : (s.setUnit n v).stopped = s.stopped := rfl
@[simp] theorem setUnit_tb (s : State) (n : Nat) (v : MemUnit) : (s.setUnit n v).tb = s.tb := rfl
@[simp] theorem setUnit_census (s : State) (n : Nat) (v : MemUnit) : (s.setUnit n v).census = s.census := rfl
@[simp] theorem setUnit_dies (s : State) (n : Nat) (v : MemUnit) : (s.setUnit n v).dies = s.dies := rfl
@[simp] theorem setUnit_net (s : State) (n : Nat) (v : MemUnit) : (s.setUnit n v).net = s.net := rfl
@[simp] theorem setUnit_bricks (s : State) (n : Nat) (v : MemUnit) : (s.setUnit n v).bricks = s.bricks := rfl
@[simp] theorem setUnit_bays (s : State) (n : Nat) (v : MemUnit) : (s.setUnit n v).bays = s.bays := rfl
@[simp] theorem setUnit_validator (s : State) (n : Nat) (v : MemUnit) : (s.setUnit n v).validator = s.validator := rfl
@[simp] theorem setUnit_tier (s : State) (n : Nat) (v : MemUnit) : (s.setUnit n v).tier = s.tier := rfl
@[simp] theorem setUnit_objs (s : State) (n : Nat) (v : MemUnit) : (s.setUnit n v).objs = s.objs := rfl
@[simp] theorem setUnit_sectors (s : State) (n : Nat) (v : MemUnit) : (s.setUnit n v).sectors = s.sectors := rfl
@[simp] theorem setUnit_ckpt (s : State) (n : Nat) (v : MemUnit) : (s.setUnit n v).ckpt = s.ckpt := rfl
@[simp] theorem setUnit_turn (s : State) (n : Nat) (v : MemUnit) : (s.setUnit n v).turn = s.turn := rfl
@[simp] theorem setUnit_relays (s : State) (n : Nat) (v : MemUnit) : (s.setUnit n v).relays = s.relays := rfl
@[simp] theorem setUnit_ports (s : State) (n : Nat) (v : MemUnit) : (s.setUnit n v).ports = s.ports := rfl
@[simp] theorem setUnit_system (s : State) (n : Nat) (v : MemUnit) : (s.setUnit n v).system = s.system := rfl
@[simp] theorem setUnit_serving (s : State) (n : Nat) (v : MemUnit) : (s.setUnit n v).serving = s.serving := rfl
@[simp] theorem setUnit_cs (s : State) (n : Nat) (v : MemUnit) : (s.setUnit n v).cs = s.cs := rfl
@[simp] theorem setUnit_footing (s : State) (n : Nat) (v : MemUnit) : (s.setUnit n v).footing = s.footing := rfl
@[simp] theorem setUnit_boot (s : State) (n : Nat) (v : MemUnit) : (s.setUnit n v).boot = s.boot := rfl
@[simp] theorem setUnit_flash (s : State) (n : Nat) (v : MemUnit) : (s.setUnit n v).flash = s.flash := rfl
@[simp] theorem setUnit_journal (s : State) (n : Nat) (v : MemUnit) : (s.setUnit n v).journal = s.journal := rfl
@[simp] theorem setUnit_mgmt (s : State) (n : Nat) (v : MemUnit) : (s.setUnit n v).mgmt = s.mgmt := rfl
@[simp] theorem setUnit_fetch (s : State) (n : Nat) (v : MemUnit) : (s.setUnit n v).fetch = s.fetch := rfl
@[simp] theorem setUnit_rel (s : State) (n : Nat) (v : MemUnit) : (s.setUnit n v).rel = s.rel := rfl
@[simp] theorem setUnit_pins (s : State) (n : Nat) (v : MemUnit) : (s.setUnit n v).pins = s.pins := rfl
@[simp] theorem setUnit_power (s : State) (n : Nat) (v : MemUnit) : (s.setUnit n v).power = s.power := rfl
@[simp] theorem setUnit_live (s : State) (n : Nat) (v : MemUnit) : (s.setUnit n v).live = s.live := rfl
@[simp] theorem setUnit_snap (s : State) (n : Nat) (v : MemUnit) : (s.setUnit n v).snap = s.snap := rfl
@[simp] theorem setUnit_ctlFaultAddr (s : State) (n : Nat) (v : MemUnit) : (s.setUnit n v).ctlFaultAddr = s.ctlFaultAddr := rfl
@[simp] theorem setUnit_sramN (s : State) (n : Nat) (v : MemUnit) : (s.setUnit n v).sramN = s.sramN := rfl
@[simp] theorem setUnit_sramS (s : State) (n : Nat) (v : MemUnit) : (s.setUnit n v).sramS = s.sramS := rfl
@[simp] theorem setUnit_pairHold (s : State) (n : Nat) (v : MemUnit) : (s.setUnit n v).pairHold = s.pairHold := rfl
@[simp] theorem setUnit_pairShadow (s : State) (n : Nat) (v : MemUnit) : (s.setUnit n v).pairShadow = s.pairShadow := rfl
@[simp] theorem setUnit_out (s : State) (n : Nat) (v : MemUnit) : (s.setUnit n v).out = s.out := rfl
@[simp] theorem setUnit_freeCtr (s : State) (n : Nat) (v : MemUnit) : (s.setUnit n v).freeCtr = s.freeCtr := rfl
@[simp] theorem setUnit_pending (s : State) (n : Nat) (v : MemUnit) : (s.setUnit n v).pending = s.pending := rfl

/-! ### setRelay -/

@[simp] theorem setRelay_inReset (s : State) (n : Nat) (v : Relay) : (s.setRelay n v).inReset = s.inReset := rfl
@[simp] theorem setRelay_stopped (s : State) (n : Nat) (v : Relay) : (s.setRelay n v).stopped = s.stopped := rfl
@[simp] theorem setRelay_tb (s : State) (n : Nat) (v : Relay) : (s.setRelay n v).tb = s.tb := rfl
@[simp] theorem setRelay_census (s : State) (n : Nat) (v : Relay) : (s.setRelay n v).census = s.census := rfl
@[simp] theorem setRelay_dies (s : State) (n : Nat) (v : Relay) : (s.setRelay n v).dies = s.dies := rfl
@[simp] theorem setRelay_net (s : State) (n : Nat) (v : Relay) : (s.setRelay n v).net = s.net := rfl
@[simp] theorem setRelay_bricks (s : State) (n : Nat) (v : Relay) : (s.setRelay n v).bricks = s.bricks := rfl
@[simp] theorem setRelay_bays (s : State) (n : Nat) (v : Relay) : (s.setRelay n v).bays = s.bays := rfl
@[simp] theorem setRelay_validator (s : State) (n : Nat) (v : Relay) : (s.setRelay n v).validator = s.validator := rfl
@[simp] theorem setRelay_tier (s : State) (n : Nat) (v : Relay) : (s.setRelay n v).tier = s.tier := rfl
@[simp] theorem setRelay_objs (s : State) (n : Nat) (v : Relay) : (s.setRelay n v).objs = s.objs := rfl
@[simp] theorem setRelay_units (s : State) (n : Nat) (v : Relay) : (s.setRelay n v).units = s.units := rfl
@[simp] theorem setRelay_sectors (s : State) (n : Nat) (v : Relay) : (s.setRelay n v).sectors = s.sectors := rfl
@[simp] theorem setRelay_ckpt (s : State) (n : Nat) (v : Relay) : (s.setRelay n v).ckpt = s.ckpt := rfl
@[simp] theorem setRelay_turn (s : State) (n : Nat) (v : Relay) : (s.setRelay n v).turn = s.turn := rfl
@[simp] theorem setRelay_ports (s : State) (n : Nat) (v : Relay) : (s.setRelay n v).ports = s.ports := rfl
@[simp] theorem setRelay_system (s : State) (n : Nat) (v : Relay) : (s.setRelay n v).system = s.system := rfl
@[simp] theorem setRelay_serving (s : State) (n : Nat) (v : Relay) : (s.setRelay n v).serving = s.serving := rfl
@[simp] theorem setRelay_cs (s : State) (n : Nat) (v : Relay) : (s.setRelay n v).cs = s.cs := rfl
@[simp] theorem setRelay_footing (s : State) (n : Nat) (v : Relay) : (s.setRelay n v).footing = s.footing := rfl
@[simp] theorem setRelay_boot (s : State) (n : Nat) (v : Relay) : (s.setRelay n v).boot = s.boot := rfl
@[simp] theorem setRelay_flash (s : State) (n : Nat) (v : Relay) : (s.setRelay n v).flash = s.flash := rfl
@[simp] theorem setRelay_journal (s : State) (n : Nat) (v : Relay) : (s.setRelay n v).journal = s.journal := rfl
@[simp] theorem setRelay_mgmt (s : State) (n : Nat) (v : Relay) : (s.setRelay n v).mgmt = s.mgmt := rfl
@[simp] theorem setRelay_fetch (s : State) (n : Nat) (v : Relay) : (s.setRelay n v).fetch = s.fetch := rfl
@[simp] theorem setRelay_rel (s : State) (n : Nat) (v : Relay) : (s.setRelay n v).rel = s.rel := rfl
@[simp] theorem setRelay_pins (s : State) (n : Nat) (v : Relay) : (s.setRelay n v).pins = s.pins := rfl
@[simp] theorem setRelay_power (s : State) (n : Nat) (v : Relay) : (s.setRelay n v).power = s.power := rfl
@[simp] theorem setRelay_live (s : State) (n : Nat) (v : Relay) : (s.setRelay n v).live = s.live := rfl
@[simp] theorem setRelay_snap (s : State) (n : Nat) (v : Relay) : (s.setRelay n v).snap = s.snap := rfl
@[simp] theorem setRelay_ctlFaultAddr (s : State) (n : Nat) (v : Relay) : (s.setRelay n v).ctlFaultAddr = s.ctlFaultAddr := rfl
@[simp] theorem setRelay_sramN (s : State) (n : Nat) (v : Relay) : (s.setRelay n v).sramN = s.sramN := rfl
@[simp] theorem setRelay_sramS (s : State) (n : Nat) (v : Relay) : (s.setRelay n v).sramS = s.sramS := rfl
@[simp] theorem setRelay_pairHold (s : State) (n : Nat) (v : Relay) : (s.setRelay n v).pairHold = s.pairHold := rfl
@[simp] theorem setRelay_pairShadow (s : State) (n : Nat) (v : Relay) : (s.setRelay n v).pairShadow = s.pairShadow := rfl
@[simp] theorem setRelay_out (s : State) (n : Nat) (v : Relay) : (s.setRelay n v).out = s.out := rfl
@[simp] theorem setRelay_freeCtr (s : State) (n : Nat) (v : Relay) : (s.setRelay n v).freeCtr = s.freeCtr := rfl
@[simp] theorem setRelay_pending (s : State) (n : Nat) (v : Relay) : (s.setRelay n v).pending = s.pending := rfl

/-! ### setPort -/

@[simp] theorem setPort_inReset (s : State) (n : Nat) (v : HxPort) : (s.setPort n v).inReset = s.inReset := rfl
@[simp] theorem setPort_stopped (s : State) (n : Nat) (v : HxPort) : (s.setPort n v).stopped = s.stopped := rfl
@[simp] theorem setPort_tb (s : State) (n : Nat) (v : HxPort) : (s.setPort n v).tb = s.tb := rfl
@[simp] theorem setPort_census (s : State) (n : Nat) (v : HxPort) : (s.setPort n v).census = s.census := rfl
@[simp] theorem setPort_dies (s : State) (n : Nat) (v : HxPort) : (s.setPort n v).dies = s.dies := rfl
@[simp] theorem setPort_net (s : State) (n : Nat) (v : HxPort) : (s.setPort n v).net = s.net := rfl
@[simp] theorem setPort_bricks (s : State) (n : Nat) (v : HxPort) : (s.setPort n v).bricks = s.bricks := rfl
@[simp] theorem setPort_bays (s : State) (n : Nat) (v : HxPort) : (s.setPort n v).bays = s.bays := rfl
@[simp] theorem setPort_validator (s : State) (n : Nat) (v : HxPort) : (s.setPort n v).validator = s.validator := rfl
@[simp] theorem setPort_tier (s : State) (n : Nat) (v : HxPort) : (s.setPort n v).tier = s.tier := rfl
@[simp] theorem setPort_objs (s : State) (n : Nat) (v : HxPort) : (s.setPort n v).objs = s.objs := rfl
@[simp] theorem setPort_units (s : State) (n : Nat) (v : HxPort) : (s.setPort n v).units = s.units := rfl
@[simp] theorem setPort_sectors (s : State) (n : Nat) (v : HxPort) : (s.setPort n v).sectors = s.sectors := rfl
@[simp] theorem setPort_ckpt (s : State) (n : Nat) (v : HxPort) : (s.setPort n v).ckpt = s.ckpt := rfl
@[simp] theorem setPort_turn (s : State) (n : Nat) (v : HxPort) : (s.setPort n v).turn = s.turn := rfl
@[simp] theorem setPort_relays (s : State) (n : Nat) (v : HxPort) : (s.setPort n v).relays = s.relays := rfl
@[simp] theorem setPort_system (s : State) (n : Nat) (v : HxPort) : (s.setPort n v).system = s.system := rfl
@[simp] theorem setPort_serving (s : State) (n : Nat) (v : HxPort) : (s.setPort n v).serving = s.serving := rfl
@[simp] theorem setPort_cs (s : State) (n : Nat) (v : HxPort) : (s.setPort n v).cs = s.cs := rfl
@[simp] theorem setPort_footing (s : State) (n : Nat) (v : HxPort) : (s.setPort n v).footing = s.footing := rfl
@[simp] theorem setPort_boot (s : State) (n : Nat) (v : HxPort) : (s.setPort n v).boot = s.boot := rfl
@[simp] theorem setPort_flash (s : State) (n : Nat) (v : HxPort) : (s.setPort n v).flash = s.flash := rfl
@[simp] theorem setPort_journal (s : State) (n : Nat) (v : HxPort) : (s.setPort n v).journal = s.journal := rfl
@[simp] theorem setPort_mgmt (s : State) (n : Nat) (v : HxPort) : (s.setPort n v).mgmt = s.mgmt := rfl
@[simp] theorem setPort_fetch (s : State) (n : Nat) (v : HxPort) : (s.setPort n v).fetch = s.fetch := rfl
@[simp] theorem setPort_rel (s : State) (n : Nat) (v : HxPort) : (s.setPort n v).rel = s.rel := rfl
@[simp] theorem setPort_pins (s : State) (n : Nat) (v : HxPort) : (s.setPort n v).pins = s.pins := rfl
@[simp] theorem setPort_power (s : State) (n : Nat) (v : HxPort) : (s.setPort n v).power = s.power := rfl
@[simp] theorem setPort_live (s : State) (n : Nat) (v : HxPort) : (s.setPort n v).live = s.live := rfl
@[simp] theorem setPort_snap (s : State) (n : Nat) (v : HxPort) : (s.setPort n v).snap = s.snap := rfl
@[simp] theorem setPort_ctlFaultAddr (s : State) (n : Nat) (v : HxPort) : (s.setPort n v).ctlFaultAddr = s.ctlFaultAddr := rfl
@[simp] theorem setPort_sramN (s : State) (n : Nat) (v : HxPort) : (s.setPort n v).sramN = s.sramN := rfl
@[simp] theorem setPort_sramS (s : State) (n : Nat) (v : HxPort) : (s.setPort n v).sramS = s.sramS := rfl
@[simp] theorem setPort_pairHold (s : State) (n : Nat) (v : HxPort) : (s.setPort n v).pairHold = s.pairHold := rfl
@[simp] theorem setPort_pairShadow (s : State) (n : Nat) (v : HxPort) : (s.setPort n v).pairShadow = s.pairShadow := rfl
@[simp] theorem setPort_out (s : State) (n : Nat) (v : HxPort) : (s.setPort n v).out = s.out := rfl
@[simp] theorem setPort_freeCtr (s : State) (n : Nat) (v : HxPort) : (s.setPort n v).freeCtr = s.freeCtr := rfl
@[simp] theorem setPort_pending (s : State) (n : Nat) (v : HxPort) : (s.setPort n v).pending = s.pending := rfl

/-! ### setObj -/

@[simp] theorem setObj_inReset (s : State) (n : Nat) (v : Option Obj) : (s.setObj n v).inReset = s.inReset := rfl
@[simp] theorem setObj_stopped (s : State) (n : Nat) (v : Option Obj) : (s.setObj n v).stopped = s.stopped := rfl
@[simp] theorem setObj_tb (s : State) (n : Nat) (v : Option Obj) : (s.setObj n v).tb = s.tb := rfl
@[simp] theorem setObj_census (s : State) (n : Nat) (v : Option Obj) : (s.setObj n v).census = s.census := rfl
@[simp] theorem setObj_dies (s : State) (n : Nat) (v : Option Obj) : (s.setObj n v).dies = s.dies := rfl
@[simp] theorem setObj_net (s : State) (n : Nat) (v : Option Obj) : (s.setObj n v).net = s.net := rfl
@[simp] theorem setObj_bricks (s : State) (n : Nat) (v : Option Obj) : (s.setObj n v).bricks = s.bricks := rfl
@[simp] theorem setObj_bays (s : State) (n : Nat) (v : Option Obj) : (s.setObj n v).bays = s.bays := rfl
@[simp] theorem setObj_validator (s : State) (n : Nat) (v : Option Obj) : (s.setObj n v).validator = s.validator := rfl
@[simp] theorem setObj_tier (s : State) (n : Nat) (v : Option Obj) : (s.setObj n v).tier = s.tier := rfl
@[simp] theorem setObj_units (s : State) (n : Nat) (v : Option Obj) : (s.setObj n v).units = s.units := rfl
@[simp] theorem setObj_sectors (s : State) (n : Nat) (v : Option Obj) : (s.setObj n v).sectors = s.sectors := rfl
@[simp] theorem setObj_ckpt (s : State) (n : Nat) (v : Option Obj) : (s.setObj n v).ckpt = s.ckpt := rfl
@[simp] theorem setObj_turn (s : State) (n : Nat) (v : Option Obj) : (s.setObj n v).turn = s.turn := rfl
@[simp] theorem setObj_relays (s : State) (n : Nat) (v : Option Obj) : (s.setObj n v).relays = s.relays := rfl
@[simp] theorem setObj_ports (s : State) (n : Nat) (v : Option Obj) : (s.setObj n v).ports = s.ports := rfl
@[simp] theorem setObj_system (s : State) (n : Nat) (v : Option Obj) : (s.setObj n v).system = s.system := rfl
@[simp] theorem setObj_serving (s : State) (n : Nat) (v : Option Obj) : (s.setObj n v).serving = s.serving := rfl
@[simp] theorem setObj_cs (s : State) (n : Nat) (v : Option Obj) : (s.setObj n v).cs = s.cs := rfl
@[simp] theorem setObj_footing (s : State) (n : Nat) (v : Option Obj) : (s.setObj n v).footing = s.footing := rfl
@[simp] theorem setObj_boot (s : State) (n : Nat) (v : Option Obj) : (s.setObj n v).boot = s.boot := rfl
@[simp] theorem setObj_flash (s : State) (n : Nat) (v : Option Obj) : (s.setObj n v).flash = s.flash := rfl
@[simp] theorem setObj_journal (s : State) (n : Nat) (v : Option Obj) : (s.setObj n v).journal = s.journal := rfl
@[simp] theorem setObj_mgmt (s : State) (n : Nat) (v : Option Obj) : (s.setObj n v).mgmt = s.mgmt := rfl
@[simp] theorem setObj_fetch (s : State) (n : Nat) (v : Option Obj) : (s.setObj n v).fetch = s.fetch := rfl
@[simp] theorem setObj_rel (s : State) (n : Nat) (v : Option Obj) : (s.setObj n v).rel = s.rel := rfl
@[simp] theorem setObj_pins (s : State) (n : Nat) (v : Option Obj) : (s.setObj n v).pins = s.pins := rfl
@[simp] theorem setObj_power (s : State) (n : Nat) (v : Option Obj) : (s.setObj n v).power = s.power := rfl
@[simp] theorem setObj_live (s : State) (n : Nat) (v : Option Obj) : (s.setObj n v).live = s.live := rfl
@[simp] theorem setObj_snap (s : State) (n : Nat) (v : Option Obj) : (s.setObj n v).snap = s.snap := rfl
@[simp] theorem setObj_ctlFaultAddr (s : State) (n : Nat) (v : Option Obj) : (s.setObj n v).ctlFaultAddr = s.ctlFaultAddr := rfl
@[simp] theorem setObj_sramN (s : State) (n : Nat) (v : Option Obj) : (s.setObj n v).sramN = s.sramN := rfl
@[simp] theorem setObj_sramS (s : State) (n : Nat) (v : Option Obj) : (s.setObj n v).sramS = s.sramS := rfl
@[simp] theorem setObj_pairHold (s : State) (n : Nat) (v : Option Obj) : (s.setObj n v).pairHold = s.pairHold := rfl
@[simp] theorem setObj_pairShadow (s : State) (n : Nat) (v : Option Obj) : (s.setObj n v).pairShadow = s.pairShadow := rfl
@[simp] theorem setObj_out (s : State) (n : Nat) (v : Option Obj) : (s.setObj n v).out = s.out := rfl
@[simp] theorem setObj_freeCtr (s : State) (n : Nat) (v : Option Obj) : (s.setObj n v).freeCtr = s.freeCtr := rfl
@[simp] theorem setObj_pending (s : State) (n : Nat) (v : Option Obj) : (s.setObj n v).pending = s.pending := rfl

/-! ### emit -/

@[simp] theorem emit_inReset (s : State) (o : Output) : (s.emit o).inReset = s.inReset := rfl
@[simp] theorem emit_stopped (s : State) (o : Output) : (s.emit o).stopped = s.stopped := rfl
@[simp] theorem emit_tb (s : State) (o : Output) : (s.emit o).tb = s.tb := rfl
@[simp] theorem emit_census (s : State) (o : Output) : (s.emit o).census = s.census := rfl
@[simp] theorem emit_dies (s : State) (o : Output) : (s.emit o).dies = s.dies := rfl
@[simp] theorem emit_net (s : State) (o : Output) : (s.emit o).net = s.net := rfl
@[simp] theorem emit_bricks (s : State) (o : Output) : (s.emit o).bricks = s.bricks := rfl
@[simp] theorem emit_bays (s : State) (o : Output) : (s.emit o).bays = s.bays := rfl
@[simp] theorem emit_validator (s : State) (o : Output) : (s.emit o).validator = s.validator := rfl
@[simp] theorem emit_tier (s : State) (o : Output) : (s.emit o).tier = s.tier := rfl
@[simp] theorem emit_objs (s : State) (o : Output) : (s.emit o).objs = s.objs := rfl
@[simp] theorem emit_units (s : State) (o : Output) : (s.emit o).units = s.units := rfl
@[simp] theorem emit_sectors (s : State) (o : Output) : (s.emit o).sectors = s.sectors := rfl
@[simp] theorem emit_ckpt (s : State) (o : Output) : (s.emit o).ckpt = s.ckpt := rfl
@[simp] theorem emit_turn (s : State) (o : Output) : (s.emit o).turn = s.turn := rfl
@[simp] theorem emit_relays (s : State) (o : Output) : (s.emit o).relays = s.relays := rfl
@[simp] theorem emit_ports (s : State) (o : Output) : (s.emit o).ports = s.ports := rfl
@[simp] theorem emit_system (s : State) (o : Output) : (s.emit o).system = s.system := rfl
@[simp] theorem emit_serving (s : State) (o : Output) : (s.emit o).serving = s.serving := rfl
@[simp] theorem emit_cs (s : State) (o : Output) : (s.emit o).cs = s.cs := rfl
@[simp] theorem emit_footing (s : State) (o : Output) : (s.emit o).footing = s.footing := rfl
@[simp] theorem emit_boot (s : State) (o : Output) : (s.emit o).boot = s.boot := rfl
@[simp] theorem emit_flash (s : State) (o : Output) : (s.emit o).flash = s.flash := rfl
@[simp] theorem emit_journal (s : State) (o : Output) : (s.emit o).journal = s.journal := rfl
@[simp] theorem emit_mgmt (s : State) (o : Output) : (s.emit o).mgmt = s.mgmt := rfl
@[simp] theorem emit_fetch (s : State) (o : Output) : (s.emit o).fetch = s.fetch := rfl
@[simp] theorem emit_rel (s : State) (o : Output) : (s.emit o).rel = s.rel := rfl
@[simp] theorem emit_pins (s : State) (o : Output) : (s.emit o).pins = s.pins := rfl
@[simp] theorem emit_power (s : State) (o : Output) : (s.emit o).power = s.power := rfl
@[simp] theorem emit_live (s : State) (o : Output) : (s.emit o).live = s.live := rfl
@[simp] theorem emit_snap (s : State) (o : Output) : (s.emit o).snap = s.snap := rfl
@[simp] theorem emit_ctlFaultAddr (s : State) (o : Output) : (s.emit o).ctlFaultAddr = s.ctlFaultAddr := rfl
@[simp] theorem emit_sramN (s : State) (o : Output) : (s.emit o).sramN = s.sramN := rfl
@[simp] theorem emit_sramS (s : State) (o : Output) : (s.emit o).sramS = s.sramS := rfl
@[simp] theorem emit_pairHold (s : State) (o : Output) : (s.emit o).pairHold = s.pairHold := rfl
@[simp] theorem emit_pairShadow (s : State) (o : Output) : (s.emit o).pairShadow = s.pairShadow := rfl
@[simp] theorem emit_freeCtr (s : State) (o : Output) : (s.emit o).freeCtr = s.freeCtr := rfl
@[simp] theorem emit_pending (s : State) (o : Output) : (s.emit o).pending = s.pending := rfl
@[simp] theorem emit_out (s : State) (o : Output) : (s.emit o).out = s.out ++ [o] := rfl

/-! ### drew -/

@[simp] theorem drew_inReset (s : State) (n : Nat) : (s.drew n).inReset = s.inReset := rfl
@[simp] theorem drew_stopped (s : State) (n : Nat) : (s.drew n).stopped = s.stopped := rfl
@[simp] theorem drew_tb (s : State) (n : Nat) : (s.drew n).tb = s.tb := rfl
@[simp] theorem drew_census (s : State) (n : Nat) : (s.drew n).census = s.census := rfl
@[simp] theorem drew_dies (s : State) (n : Nat) : (s.drew n).dies = s.dies := rfl
@[simp] theorem drew_net (s : State) (n : Nat) : (s.drew n).net = s.net := rfl
@[simp] theorem drew_bricks (s : State) (n : Nat) : (s.drew n).bricks = s.bricks := rfl
@[simp] theorem drew_bays (s : State) (n : Nat) : (s.drew n).bays = s.bays := rfl
@[simp] theorem drew_validator (s : State) (n : Nat) : (s.drew n).validator = s.validator := rfl
@[simp] theorem drew_tier (s : State) (n : Nat) : (s.drew n).tier = s.tier := rfl
@[simp] theorem drew_objs (s : State) (n : Nat) : (s.drew n).objs = s.objs := rfl
@[simp] theorem drew_units (s : State) (n : Nat) : (s.drew n).units = s.units := rfl
@[simp] theorem drew_sectors (s : State) (n : Nat) : (s.drew n).sectors = s.sectors := rfl
@[simp] theorem drew_ckpt (s : State) (n : Nat) : (s.drew n).ckpt = s.ckpt := rfl
@[simp] theorem drew_turn (s : State) (n : Nat) : (s.drew n).turn = s.turn := rfl
@[simp] theorem drew_relays (s : State) (n : Nat) : (s.drew n).relays = s.relays := rfl
@[simp] theorem drew_ports (s : State) (n : Nat) : (s.drew n).ports = s.ports := rfl
@[simp] theorem drew_system (s : State) (n : Nat) : (s.drew n).system = s.system := rfl
@[simp] theorem drew_serving (s : State) (n : Nat) : (s.drew n).serving = s.serving := rfl
@[simp] theorem drew_cs (s : State) (n : Nat) : (s.drew n).cs = s.cs := rfl
@[simp] theorem drew_footing (s : State) (n : Nat) : (s.drew n).footing = s.footing := rfl
@[simp] theorem drew_boot (s : State) (n : Nat) : (s.drew n).boot = s.boot := rfl
@[simp] theorem drew_flash (s : State) (n : Nat) : (s.drew n).flash = s.flash := rfl
@[simp] theorem drew_journal (s : State) (n : Nat) : (s.drew n).journal = s.journal := rfl
@[simp] theorem drew_mgmt (s : State) (n : Nat) : (s.drew n).mgmt = s.mgmt := rfl
@[simp] theorem drew_fetch (s : State) (n : Nat) : (s.drew n).fetch = s.fetch := rfl
@[simp] theorem drew_rel (s : State) (n : Nat) : (s.drew n).rel = s.rel := rfl
@[simp] theorem drew_pins (s : State) (n : Nat) : (s.drew n).pins = s.pins := rfl
@[simp] theorem drew_power (s : State) (n : Nat) : (s.drew n).power = s.power := rfl
@[simp] theorem drew_live (s : State) (n : Nat) : (s.drew n).live = s.live := rfl
@[simp] theorem drew_snap (s : State) (n : Nat) : (s.drew n).snap = s.snap := rfl
@[simp] theorem drew_ctlFaultAddr (s : State) (n : Nat) : (s.drew n).ctlFaultAddr = s.ctlFaultAddr := rfl
@[simp] theorem drew_sramN (s : State) (n : Nat) : (s.drew n).sramN = s.sramN := rfl
@[simp] theorem drew_sramS (s : State) (n : Nat) : (s.drew n).sramS = s.sramS := rfl
@[simp] theorem drew_pairHold (s : State) (n : Nat) : (s.drew n).pairHold = s.pairHold := rfl
@[simp] theorem drew_pairShadow (s : State) (n : Nat) : (s.drew n).pairShadow = s.pairShadow := rfl
@[simp] theorem drew_out (s : State) (n : Nat) : (s.drew n).out = s.out := rfl
@[simp] theorem drew_pending (s : State) (n : Nat) : (s.drew n).pending = s.pending := rfl
@[simp] theorem drew_freeCtr (s : State) (n : Nat) : (s.drew n).freeCtr = s.freeCtr + n := rfl

/-! ### logEntry -/

@[simp] theorem logEntry_inReset (s : State) (cls source : Nat) (code : Code) (arg : Word) : (s.logEntry cls source code arg).inReset = s.inReset := rfl
@[simp] theorem logEntry_stopped (s : State) (cls source : Nat) (code : Code) (arg : Word) : (s.logEntry cls source code arg).stopped = s.stopped := rfl
@[simp] theorem logEntry_tb (s : State) (cls source : Nat) (code : Code) (arg : Word) : (s.logEntry cls source code arg).tb = s.tb := rfl
@[simp] theorem logEntry_census (s : State) (cls source : Nat) (code : Code) (arg : Word) : (s.logEntry cls source code arg).census = s.census := rfl
@[simp] theorem logEntry_dies (s : State) (cls source : Nat) (code : Code) (arg : Word) : (s.logEntry cls source code arg).dies = s.dies := rfl
@[simp] theorem logEntry_net (s : State) (cls source : Nat) (code : Code) (arg : Word) : (s.logEntry cls source code arg).net = s.net := rfl
@[simp] theorem logEntry_bricks (s : State) (cls source : Nat) (code : Code) (arg : Word) : (s.logEntry cls source code arg).bricks = s.bricks := rfl
@[simp] theorem logEntry_bays (s : State) (cls source : Nat) (code : Code) (arg : Word) : (s.logEntry cls source code arg).bays = s.bays := rfl
@[simp] theorem logEntry_validator (s : State) (cls source : Nat) (code : Code) (arg : Word) : (s.logEntry cls source code arg).validator = s.validator := rfl
@[simp] theorem logEntry_tier (s : State) (cls source : Nat) (code : Code) (arg : Word) : (s.logEntry cls source code arg).tier = s.tier := rfl
@[simp] theorem logEntry_objs (s : State) (cls source : Nat) (code : Code) (arg : Word) : (s.logEntry cls source code arg).objs = s.objs := rfl
@[simp] theorem logEntry_units (s : State) (cls source : Nat) (code : Code) (arg : Word) : (s.logEntry cls source code arg).units = s.units := rfl
@[simp] theorem logEntry_sectors (s : State) (cls source : Nat) (code : Code) (arg : Word) : (s.logEntry cls source code arg).sectors = s.sectors := rfl
@[simp] theorem logEntry_ckpt (s : State) (cls source : Nat) (code : Code) (arg : Word) : (s.logEntry cls source code arg).ckpt = s.ckpt := rfl
@[simp] theorem logEntry_turn (s : State) (cls source : Nat) (code : Code) (arg : Word) : (s.logEntry cls source code arg).turn = s.turn := rfl
@[simp] theorem logEntry_relays (s : State) (cls source : Nat) (code : Code) (arg : Word) : (s.logEntry cls source code arg).relays = s.relays := rfl
@[simp] theorem logEntry_ports (s : State) (cls source : Nat) (code : Code) (arg : Word) : (s.logEntry cls source code arg).ports = s.ports := rfl
@[simp] theorem logEntry_system (s : State) (cls source : Nat) (code : Code) (arg : Word) : (s.logEntry cls source code arg).system = s.system := rfl
@[simp] theorem logEntry_serving (s : State) (cls source : Nat) (code : Code) (arg : Word) : (s.logEntry cls source code arg).serving = s.serving := rfl
@[simp] theorem logEntry_cs (s : State) (cls source : Nat) (code : Code) (arg : Word) : (s.logEntry cls source code arg).cs = s.cs := rfl
@[simp] theorem logEntry_footing (s : State) (cls source : Nat) (code : Code) (arg : Word) : (s.logEntry cls source code arg).footing = s.footing := rfl
@[simp] theorem logEntry_boot (s : State) (cls source : Nat) (code : Code) (arg : Word) : (s.logEntry cls source code arg).boot = s.boot := rfl
@[simp] theorem logEntry_flash (s : State) (cls source : Nat) (code : Code) (arg : Word) : (s.logEntry cls source code arg).flash = s.flash := rfl
@[simp] theorem logEntry_journal (s : State) (cls source : Nat) (code : Code) (arg : Word) : (s.logEntry cls source code arg).journal = s.journal := rfl
@[simp] theorem logEntry_mgmt (s : State) (cls source : Nat) (code : Code) (arg : Word) : (s.logEntry cls source code arg).mgmt = s.mgmt := rfl
@[simp] theorem logEntry_fetch (s : State) (cls source : Nat) (code : Code) (arg : Word) : (s.logEntry cls source code arg).fetch = s.fetch := rfl
@[simp] theorem logEntry_pins (s : State) (cls source : Nat) (code : Code) (arg : Word) : (s.logEntry cls source code arg).pins = s.pins := rfl
@[simp] theorem logEntry_power (s : State) (cls source : Nat) (code : Code) (arg : Word) : (s.logEntry cls source code arg).power = s.power := rfl
@[simp] theorem logEntry_live (s : State) (cls source : Nat) (code : Code) (arg : Word) : (s.logEntry cls source code arg).live = s.live := rfl
@[simp] theorem logEntry_snap (s : State) (cls source : Nat) (code : Code) (arg : Word) : (s.logEntry cls source code arg).snap = s.snap := rfl
@[simp] theorem logEntry_ctlFaultAddr (s : State) (cls source : Nat) (code : Code) (arg : Word) : (s.logEntry cls source code arg).ctlFaultAddr = s.ctlFaultAddr := rfl
@[simp] theorem logEntry_sramN (s : State) (cls source : Nat) (code : Code) (arg : Word) : (s.logEntry cls source code arg).sramN = s.sramN := rfl
@[simp] theorem logEntry_sramS (s : State) (cls source : Nat) (code : Code) (arg : Word) : (s.logEntry cls source code arg).sramS = s.sramS := rfl
@[simp] theorem logEntry_pairHold (s : State) (cls source : Nat) (code : Code) (arg : Word) : (s.logEntry cls source code arg).pairHold = s.pairHold := rfl
@[simp] theorem logEntry_pairShadow (s : State) (cls source : Nat) (code : Code) (arg : Word) : (s.logEntry cls source code arg).pairShadow = s.pairShadow := rfl
@[simp] theorem logEntry_out (s : State) (cls source : Nat) (code : Code) (arg : Word) : (s.logEntry cls source code arg).out = s.out := rfl
@[simp] theorem logEntry_freeCtr (s : State) (cls source : Nat) (code : Code) (arg : Word) : (s.logEntry cls source code arg).freeCtr = s.freeCtr := rfl
@[simp] theorem logEntry_pending (s : State) (cls source : Nat) (code : Code) (arg : Word) : (s.logEntry cls source code arg).pending = s.pending := rfl
@[simp] theorem logEntry_fatal (s : State) (cls source : Nat) (code : Code) (arg : Word) : (s.logEntry cls source code arg).rel.fatal = s.rel.fatal := rfl
@[simp] theorem logEntry_total (s : State) (cls source : Nat) (code : Code) (arg : Word) : (s.logEntry cls source code arg).rel.total = s.rel.total + 1 := rfl

/-! ### count -/

@[simp] theorem count_inReset (s : State) (a n : Nat) : (s.count a n).inReset = s.inReset := by rw [count_frame]
@[simp] theorem count_stopped (s : State) (a n : Nat) : (s.count a n).stopped = s.stopped := by rw [count_frame]
@[simp] theorem count_tb (s : State) (a n : Nat) : (s.count a n).tb = s.tb := by rw [count_frame]
@[simp] theorem count_census (s : State) (a n : Nat) : (s.count a n).census = s.census := by rw [count_frame]
@[simp] theorem count_dies (s : State) (a n : Nat) : (s.count a n).dies = s.dies := by rw [count_frame]
@[simp] theorem count_net (s : State) (a n : Nat) : (s.count a n).net = s.net := by rw [count_frame]
@[simp] theorem count_bricks (s : State) (a n : Nat) : (s.count a n).bricks = s.bricks := by rw [count_frame]
@[simp] theorem count_bays (s : State) (a n : Nat) : (s.count a n).bays = s.bays := by rw [count_frame]
@[simp] theorem count_validator (s : State) (a n : Nat) : (s.count a n).validator = s.validator := by rw [count_frame]
@[simp] theorem count_tier (s : State) (a n : Nat) : (s.count a n).tier = s.tier := by rw [count_frame]
@[simp] theorem count_objs (s : State) (a n : Nat) : (s.count a n).objs = s.objs := by rw [count_frame]
@[simp] theorem count_units (s : State) (a n : Nat) : (s.count a n).units = s.units := by rw [count_frame]
@[simp] theorem count_sectors (s : State) (a n : Nat) : (s.count a n).sectors = s.sectors := by rw [count_frame]
@[simp] theorem count_ckpt (s : State) (a n : Nat) : (s.count a n).ckpt = s.ckpt := by rw [count_frame]
@[simp] theorem count_turn (s : State) (a n : Nat) : (s.count a n).turn = s.turn := by rw [count_frame]
@[simp] theorem count_relays (s : State) (a n : Nat) : (s.count a n).relays = s.relays := by rw [count_frame]
@[simp] theorem count_ports (s : State) (a n : Nat) : (s.count a n).ports = s.ports := by rw [count_frame]
@[simp] theorem count_system (s : State) (a n : Nat) : (s.count a n).system = s.system := by rw [count_frame]
@[simp] theorem count_serving (s : State) (a n : Nat) : (s.count a n).serving = s.serving := by rw [count_frame]
@[simp] theorem count_cs (s : State) (a n : Nat) : (s.count a n).cs = s.cs := by rw [count_frame]
@[simp] theorem count_footing (s : State) (a n : Nat) : (s.count a n).footing = s.footing := by rw [count_frame]
@[simp] theorem count_boot (s : State) (a n : Nat) : (s.count a n).boot = s.boot := by rw [count_frame]
@[simp] theorem count_flash (s : State) (a n : Nat) : (s.count a n).flash = s.flash := by rw [count_frame]
@[simp] theorem count_journal (s : State) (a n : Nat) : (s.count a n).journal = s.journal := by rw [count_frame]
@[simp] theorem count_mgmt (s : State) (a n : Nat) : (s.count a n).mgmt = s.mgmt := by rw [count_frame]
@[simp] theorem count_fetch (s : State) (a n : Nat) : (s.count a n).fetch = s.fetch := by rw [count_frame]
@[simp] theorem count_rel (s : State) (a n : Nat) : (s.count a n).rel = s.rel := by rw [count_frame]
@[simp] theorem count_pins (s : State) (a n : Nat) : (s.count a n).pins = s.pins := by rw [count_frame]
@[simp] theorem count_power (s : State) (a n : Nat) : (s.count a n).power = s.power := by rw [count_frame]
@[simp] theorem count_snap (s : State) (a n : Nat) : (s.count a n).snap = s.snap := by rw [count_frame]
@[simp] theorem count_ctlFaultAddr (s : State) (a n : Nat) : (s.count a n).ctlFaultAddr = s.ctlFaultAddr := by rw [count_frame]
@[simp] theorem count_sramN (s : State) (a n : Nat) : (s.count a n).sramN = s.sramN := by rw [count_frame]
@[simp] theorem count_sramS (s : State) (a n : Nat) : (s.count a n).sramS = s.sramS := by rw [count_frame]
@[simp] theorem count_pairHold (s : State) (a n : Nat) : (s.count a n).pairHold = s.pairHold := by rw [count_frame]
@[simp] theorem count_pairShadow (s : State) (a n : Nat) : (s.count a n).pairShadow = s.pairShadow := by rw [count_frame]
@[simp] theorem count_out (s : State) (a n : Nat) : (s.count a n).out = s.out := by rw [count_frame]
@[simp] theorem count_freeCtr (s : State) (a n : Nat) : (s.count a n).freeCtr = s.freeCtr := by rw [count_frame]
@[simp] theorem count_pending (s : State) (a n : Nat) : (s.count a n).pending = s.pending := by rw [count_frame]

/-! ### The accessors over each other's updates -/

@[simp] theorem bay_setBrick (s : State) (n : Nat) (v : Brick) (i : Nat) : (s.setBrick n v).bay i = s.bay i := by simp only [bay, setBrick_bays]
@[simp] theorem unit_setBrick (s : State) (n : Nat) (v : Brick) (i : Nat) : (s.setBrick n v).unit i = s.unit i := by simp only [unit, setBrick_units]
@[simp] theorem relay_setBrick (s : State) (n : Nat) (v : Brick) (i : Nat) : (s.setBrick n v).relay i = s.relay i := by simp only [relay, setBrick_relays]
@[simp] theorem port_setBrick (s : State) (n : Nat) (v : Brick) (i : Nat) : (s.setBrick n v).port i = s.port i := by simp only [port, setBrick_ports]
@[simp] theorem obj_setBrick (s : State) (n : Nat) (v : Brick) (i : Nat) : (s.setBrick n v).obj i = s.obj i := by simp only [obj, setBrick_objs]
@[simp] theorem brick_setBay (s : State) (n : Nat) (v : Bay) (i : Nat) : (s.setBay n v).brick i = s.brick i := by simp only [brick, setBay_bricks]
@[simp] theorem unit_setBay (s : State) (n : Nat) (v : Bay) (i : Nat) : (s.setBay n v).unit i = s.unit i := by simp only [unit, setBay_units]
@[simp] theorem relay_setBay (s : State) (n : Nat) (v : Bay) (i : Nat) : (s.setBay n v).relay i = s.relay i := by simp only [relay, setBay_relays]
@[simp] theorem port_setBay (s : State) (n : Nat) (v : Bay) (i : Nat) : (s.setBay n v).port i = s.port i := by simp only [port, setBay_ports]
@[simp] theorem obj_setBay (s : State) (n : Nat) (v : Bay) (i : Nat) : (s.setBay n v).obj i = s.obj i := by simp only [obj, setBay_objs]
@[simp] theorem brick_setUnit (s : State) (n : Nat) (v : MemUnit) (i : Nat) : (s.setUnit n v).brick i = s.brick i := by simp only [brick, setUnit_bricks]
@[simp] theorem bay_setUnit (s : State) (n : Nat) (v : MemUnit) (i : Nat) : (s.setUnit n v).bay i = s.bay i := by simp only [bay, setUnit_bays]
@[simp] theorem relay_setUnit (s : State) (n : Nat) (v : MemUnit) (i : Nat) : (s.setUnit n v).relay i = s.relay i := by simp only [relay, setUnit_relays]
@[simp] theorem port_setUnit (s : State) (n : Nat) (v : MemUnit) (i : Nat) : (s.setUnit n v).port i = s.port i := by simp only [port, setUnit_ports]
@[simp] theorem obj_setUnit (s : State) (n : Nat) (v : MemUnit) (i : Nat) : (s.setUnit n v).obj i = s.obj i := by simp only [obj, setUnit_objs]
@[simp] theorem brick_setRelay (s : State) (n : Nat) (v : Relay) (i : Nat) : (s.setRelay n v).brick i = s.brick i := by simp only [brick, setRelay_bricks]
@[simp] theorem bay_setRelay (s : State) (n : Nat) (v : Relay) (i : Nat) : (s.setRelay n v).bay i = s.bay i := by simp only [bay, setRelay_bays]
@[simp] theorem unit_setRelay (s : State) (n : Nat) (v : Relay) (i : Nat) : (s.setRelay n v).unit i = s.unit i := by simp only [unit, setRelay_units]
@[simp] theorem port_setRelay (s : State) (n : Nat) (v : Relay) (i : Nat) : (s.setRelay n v).port i = s.port i := by simp only [port, setRelay_ports]
@[simp] theorem obj_setRelay (s : State) (n : Nat) (v : Relay) (i : Nat) : (s.setRelay n v).obj i = s.obj i := by simp only [obj, setRelay_objs]
@[simp] theorem brick_setPort (s : State) (n : Nat) (v : HxPort) (i : Nat) : (s.setPort n v).brick i = s.brick i := by simp only [brick, setPort_bricks]
@[simp] theorem bay_setPort (s : State) (n : Nat) (v : HxPort) (i : Nat) : (s.setPort n v).bay i = s.bay i := by simp only [bay, setPort_bays]
@[simp] theorem unit_setPort (s : State) (n : Nat) (v : HxPort) (i : Nat) : (s.setPort n v).unit i = s.unit i := by simp only [unit, setPort_units]
@[simp] theorem relay_setPort (s : State) (n : Nat) (v : HxPort) (i : Nat) : (s.setPort n v).relay i = s.relay i := by simp only [relay, setPort_relays]
@[simp] theorem obj_setPort (s : State) (n : Nat) (v : HxPort) (i : Nat) : (s.setPort n v).obj i = s.obj i := by simp only [obj, setPort_objs]
@[simp] theorem brick_setObj (s : State) (n : Nat) (v : Option Obj) (i : Nat) : (s.setObj n v).brick i = s.brick i := by simp only [brick, setObj_bricks]
@[simp] theorem bay_setObj (s : State) (n : Nat) (v : Option Obj) (i : Nat) : (s.setObj n v).bay i = s.bay i := by simp only [bay, setObj_bays]
@[simp] theorem unit_setObj (s : State) (n : Nat) (v : Option Obj) (i : Nat) : (s.setObj n v).unit i = s.unit i := by simp only [unit, setObj_units]
@[simp] theorem relay_setObj (s : State) (n : Nat) (v : Option Obj) (i : Nat) : (s.setObj n v).relay i = s.relay i := by simp only [relay, setObj_relays]
@[simp] theorem port_setObj (s : State) (n : Nat) (v : Option Obj) (i : Nat) : (s.setObj n v).port i = s.port i := by simp only [port, setObj_ports]
@[simp] theorem brick_emit (s : State) (o : Output) (i : Nat) : (s.emit o).brick i = s.brick i := by simp only [brick, emit_bricks]
@[simp] theorem bay_emit (s : State) (o : Output) (i : Nat) : (s.emit o).bay i = s.bay i := by simp only [bay, emit_bays]
@[simp] theorem unit_emit (s : State) (o : Output) (i : Nat) : (s.emit o).unit i = s.unit i := by simp only [unit, emit_units]
@[simp] theorem relay_emit (s : State) (o : Output) (i : Nat) : (s.emit o).relay i = s.relay i := by simp only [relay, emit_relays]
@[simp] theorem port_emit (s : State) (o : Output) (i : Nat) : (s.emit o).port i = s.port i := by simp only [port, emit_ports]
@[simp] theorem obj_emit (s : State) (o : Output) (i : Nat) : (s.emit o).obj i = s.obj i := by simp only [obj, emit_objs]
@[simp] theorem brick_drew (s : State) (n : Nat) (i : Nat) : (s.drew n).brick i = s.brick i := by simp only [brick, drew_bricks]
@[simp] theorem bay_drew (s : State) (n : Nat) (i : Nat) : (s.drew n).bay i = s.bay i := by simp only [bay, drew_bays]
@[simp] theorem unit_drew (s : State) (n : Nat) (i : Nat) : (s.drew n).unit i = s.unit i := by simp only [unit, drew_units]
@[simp] theorem relay_drew (s : State) (n : Nat) (i : Nat) : (s.drew n).relay i = s.relay i := by simp only [relay, drew_relays]
@[simp] theorem port_drew (s : State) (n : Nat) (i : Nat) : (s.drew n).port i = s.port i := by simp only [port, drew_ports]
@[simp] theorem obj_drew (s : State) (n : Nat) (i : Nat) : (s.drew n).obj i = s.obj i := by simp only [obj, drew_objs]
@[simp] theorem brick_logEntry (s : State) (cls source : Nat) (code : Code) (arg : Word) (i : Nat) : (s.logEntry cls source code arg).brick i = s.brick i := by simp only [brick, logEntry_bricks]
@[simp] theorem bay_logEntry (s : State) (cls source : Nat) (code : Code) (arg : Word) (i : Nat) : (s.logEntry cls source code arg).bay i = s.bay i := by simp only [bay, logEntry_bays]
@[simp] theorem unit_logEntry (s : State) (cls source : Nat) (code : Code) (arg : Word) (i : Nat) : (s.logEntry cls source code arg).unit i = s.unit i := by simp only [unit, logEntry_units]
@[simp] theorem relay_logEntry (s : State) (cls source : Nat) (code : Code) (arg : Word) (i : Nat) : (s.logEntry cls source code arg).relay i = s.relay i := by simp only [relay, logEntry_relays]
@[simp] theorem port_logEntry (s : State) (cls source : Nat) (code : Code) (arg : Word) (i : Nat) : (s.logEntry cls source code arg).port i = s.port i := by simp only [port, logEntry_ports]
@[simp] theorem obj_logEntry (s : State) (cls source : Nat) (code : Code) (arg : Word) (i : Nat) : (s.logEntry cls source code arg).obj i = s.obj i := by simp only [obj, logEntry_objs]
@[simp] theorem brick_count (s : State) (x y : Nat) (i : Nat) : (s.count x y).brick i = s.brick i := by simp only [brick, count_bricks]
@[simp] theorem bay_count (s : State) (x y : Nat) (i : Nat) : (s.count x y).bay i = s.bay i := by simp only [bay, count_bays]
@[simp] theorem unit_count (s : State) (x y : Nat) (i : Nat) : (s.count x y).unit i = s.unit i := by simp only [unit, count_units]
@[simp] theorem relay_count (s : State) (x y : Nat) (i : Nat) : (s.count x y).relay i = s.relay i := by simp only [relay, count_relays]
@[simp] theorem port_count (s : State) (x y : Nat) (i : Nat) : (s.count x y).port i = s.port i := by simp only [port, count_ports]
@[simp] theorem obj_count (s : State) (x y : Nat) (i : Nat) : (s.count x y).obj i = s.obj i := by simp only [obj, count_objs]

@[simp] theorem awake_setBrick (s : State) (n : Nat) (v : Brick) : (s.setBrick n v).awake = s.awake := rfl
@[simp] theorem awake_setBay (s : State) (n : Nat) (v : Bay) : (s.setBay n v).awake = s.awake := rfl
@[simp] theorem awake_emit (s : State) (o : Output) : (s.emit o).awake = s.awake := rfl
@[simp] theorem awake_count (s : State) (a n : Nat) : (s.count a n).awake = s.awake := by simp only [awake, powered, count_rel, count_inReset, count_stopped]

/-- An awake device is powered and not in the fatal state. -/
theorem awake_iff (s : State) : s.awake = true ↔ s.inReset = false ∧ s.stopped = false ∧ s.rel.fatal = false := by
  simp [awake, powered, and_assoc]

end Sys2Proof.Machine.State
end

