-- ==== Sys2Proof/Machine/ReLay.lean ====
section
/-!
DEFINITION. The re-lay path of a context (R96): the records and the header a layout-converter bond writes for another
shape (R176, R227), and the contexts it refuses. Mortar runs that bond and creates the new object, no command does; what
its records hold is stated here, and the new object is then restored directly (R95, `State.restoreBay`).
-/
namespace Sys2Proof.Machine

/-- The entries of a layout descriptor that place the tiles a rank moves through a format word (R351). -/
def relayEntry (es : List LayoutEntry) (rank fmt : Nat) : Option LayoutEntry :=
  es.find? fun e => covers e rank && e.fmtWord == fmt

/-- The hopper bytes a section's MOVEs through mapped format words reach, as spans. -/
def mappedSpans (m : Memory) (es : List LayoutEntry) (rank : Nat) : List (Int × Int) :=
  [0, 1, 2, 3].flatMap fun p => (walkMoves m p 65 0 ((progEnd m p).getD 64) (some (0, 0, 0))).2.filterMap fun x =>
    let w := progWord m p x.1
    let f := moveFormat w
    match x.2.1 with
    | some (1, lo, hi) =>
      if progOp w = 3 ∧ (relayEntry es rank f).isSome then
        some (lo * 256, hi * 256 + (moveTiles w * tileSize false (formatWord m f).stored : Nat))
      else none
    | _ => none

/-- The results of a section's accumulators belong to a tensor of the descriptor. -/
def banksMapped (m : Memory) (es : List LayoutEntry) (rank : Nat) : Bool :=
  (progBody m 2).any fun k =>
    let w := progWord m 2 k
    progOp w == 3 && moveWrite w && (relayEntry es rank (moveFormat w)).isSome

/-- A record holds live state no tensor of the descriptor maps (R96): a hopper byte or an accumulator entry that is not 0
(log entry 116). -/
def unmappedLive (m : Memory) (es : List LayoutEntry) (rank : Nat) (r : Bytes) : Bool :=
  let spans := mappedSpans m es rank
  ((slice r 0 262144).zipIdx.any fun x => x.1 != 0 && !spans.any fun a => a.1 ≤ (x.2 : Int) && (x.2 : Int) < a.2)
    || (!banksMapped m es rank && (slice r 0x40000 24576).any (· != 0))

/-- The answer of the re-lay path to a context: sections and records by rank of the saved shape (R96). -/
def relayCode (es : List LayoutEntry) (saved : List (Memory × Bytes)) : Code :=
  if saved.zipIdx.any fun x => unmappedLive x.1.1 es x.2 x.1.2 then eCtxShape else sOk

/-- The saved state has moved the tile of a tensor at a logical place: some rank's count through the tensor's format word
is past it (R352). -/
def movedTile (es : List LayoutEntry) (counts : Nat → Nat → Nat) (ranks tensor : Nat) (place : Nat × Nat) : Bool :=
  (List.range ranks).any fun r => es.any fun e => e.tensor == tensor && covers e r
    && (List.range (min (counts r e.fmtWord) (e.partRows * e.partCols))).any fun n => layoutPlace e r n 0 == place

/-- The count of a new record (R227): the brick's next tile of the format word is the first, under the target descriptor,
that the saved state had not moved. -/
def relayCount (es target : List LayoutEntry) (counts : Nat → Nat → Nat) (ranks rank fmt : Nat) : Nat :=
  match relayEntry target rank fmt with
  | none => 0
  | some e =>
    ((List.range (e.partRows * e.partCols)).find? fun n =>
      !movedTile es counts ranks e.tensor (layoutPlace e rank n 0)).getD (e.partRows * e.partCols)

/-- The lane records of a re-laid brick (R176): positions 0, and the key of stream 0 derived from ctx_seed and the new
restore_epoch. -/
def relayLanes (m : Memory) (ctxSeed : DWord) (first epoch : Word) : Bytes :=
  let key := (streamKeys m ctxSeed first epoch).getD 0 []
  (List.range 128).flatMap fun _ => zeros 16 ++ (List.range 4).flatMap fun w => leBytes 4 (key.getD w 0).toNat

/-- A record of the new shape: the converter's tensors, free-mode lanes reseeded, the target's counts (R96, R227). -/
def relayRecord (r : Bytes) (m : Memory) (ctxSeed : DWord) (first epoch : Word) (counts : List Nat) : Bytes :=
  slice r 0 0x46000 ++ relayLanes m ctxSeed first epoch ++ slice r 0x47000 0x908
    ++ padTo 64 (counts.flatMap (leBytes 8)) ++ zeros 1720

/-- The header of the new object: restore_epoch one more, the new shape, the target bond and its descriptor; the rest as
saved (R96). -/
def relayHeader (h : Bytes) (p : BayPlan) (count : Nat) (digest layoutDigest : Bytes) : Bytes :=
  padTo 256 (slice h 0 7 ++ leBytes 1 p.rects.length ++ leBytes 4 count ++ leBytes 4 (fieldLE h 12 4 + 1)
    ++ slice h 16 16 ++ padTo 32 digest ++ padTo 64 (p.rects.flatMap rectBytes) ++ padTo 32 layoutDigest)

end Sys2Proof.Machine
end

