-- ==== Sys2Proof/WellFormed.lean ====
section
/-!
DEFINITION. The commands whose operands name parts that exist (R26): a well-formed command's indices lie in the
numbering of the spec. A command that is not well-formed names nothing of the device.
-/
namespace Sys2Proof.WellFormed

/-- A requester of control space (R27). -/
def agentOk (a : Nat) : Bool := a ≤ 32
def brickOk (n : Nat) : Bool := n < 4096
def bayOk (b : Nat) : Bool := b < 64
def portOk (p : Nat) : Bool := p < 16
def serviceOk (p : Nat) : Bool := p < 2
def relayOk (c : Nat) : Bool := c < 32
def deviceOk (d : Nat) : Bool := d < 16384
def ddrOk (u : Nat) : Bool := u < 20
def cxlOk (u : Nat) : Bool := 32 ≤ u && u < 36
def keystoneOk (k : Nat) : Bool := k < 2
def wordOk (k : Nat) : Bool := k < 8
def progOk (p : Nat) : Bool := p < 4
/-- A network link: stop output directions of 4,096 bricks, four line directions then four neighbours. -/
def linkOk (l : Nat) : Bool := l < 4096 * 8
/-- A flit of 640 bytes (R394). -/
def flitOk (f : Bytes) : Bool := f.length == 640

/-- The operands of a command lie in the numbering of R26. -/
def ok : Instr → Bool
  | .registerWrite a _ _ _ => agentOk a
  | .d2dFlitRetry c _ _ => decide (c < 6)
  | .tickStart | .ppsEdge _ | .todMessage _ _ | .ptpMessage _ | .upstreamTimeout
  | .referenceLossTimeout | .holdoverLimitExpiry | .scheduleRequest _ _ _ _ | .scheduleEntryFire | .censusTick
  | .censusChildDeadline | .censusRootDecision | .censusVerdict _ _ | .censusVerdictDeadline => true
  | .censusReport c _ _ _ => deviceOk c
  | .siteFailure d r c => decide (d < 4 ∧ r < 33 ∧ c < 32)
  | .bayPlan (.mortar b _) => bayOk b
  | .bayPlan (.mgmt _) => true
  | .enable a b _ | .shutDown a b _ | .swap a b _ _ | .load a b _ _ | .save a b _ _ | .clear a b _ | .restore a b _ _ =>
    agentOk a && bayOk b
  | .saveComplete b _ _ | .swapSequence b | .swapWaitTimeout b _ => bayOk b
  | .shadowLoadError n _ | .loadedReport n _ _ | .brickQuiet n | .quietReport n _ | .swapPacket n
  | .swappedReport n _ => brickOk n
  | .validate a _ => agentOk a
  | .validateComplete _ => true
  | .endWord n p | .baseWord n p | .loopWord n p | .moveWord n p _ | .fenceWord n p | .waitWord n p _
  | .postWord n p | .jumpWord n p => brickOk n && progOk p
  | .arrayPass n | .accumWord n | .bankDrain n | .bankClear n | .primaryTile n => brickOk n
  | .addOp n k | .mulOp n k | .maxOp n k | .minOp n k | .absOp n k | .negOp n k | .recipOp n k | .sqrtOp n k
  | .rsqrtOp n k | .expOp n k | .logOp n k | .cosOp n k | .tanhOp n k | .sigmoidOp n k | .geluOp n k | .siluOp n k
  | .randOp n k | .subrOp n k | .scalebOp n k | .copysignOp n k | .rowstatOp n k | .amaxOp n k | .shareOp n k
  | .cvtOp n k | .flagsOp n k | .sortOp n k _ => brickOk n && wordOk k
  | .amaxPacket n | .amaxReturn n => brickOk n
  | .bayEpochWrite a b _ _ => agentOk a && bayOk b
  | .lineFlit l _ => linkOk l
  | .creditReturn l vc => linkOk l && decide (vc < 4)
  | .gritData _ | .gritPost _ | .gritRelease _ => true
  | .handleJoin n _ | .swapModeExchange n _ | .relayBuffer n _ => brickOk n
  | .progressPacket c _ => relayOk c
  | .openIn a c _ | .openOut a c _ | .closeChannel a c _ | .splice a c _ _ _ _ => agentOk a && relayOk c
  | .relayEgressSend c _ | .relayGrant c _ _ _ _ _ | .relayToken c _ _ _ _ | .relayTile c _ _ _ _ _
  | .relayError c _ _ _ | .laggardTimeout c => relayOk c
  | .create a _ | .promote a _ | .evict a _ | .migrate a _ | .pin a _ | .unpin a _ | .delete a _ | .markLost a _
  | .query a _ | .tierDoneAck a _ => agentOk a
  | .movementStart _ | .movementTile _ _ _ => true
  | .patrolScrub n _ _ => brickOk n
  | .ddrTrainingDone rs => rs.length == 20
  | .dqsOscillatorRead u _ | .ddrRetrainDone u _ | .moduleTempRead u _ | .ddrAlert u _ _ | .i3cTransfer u _
  | .pmicInterrupt u _ => ddrOk u
  | .cxlBringup u _ | .memoryActiveTimeout u | .cxlReadTimeout u _ | .cxlWriteTimeout u _ | .cxlResponse u _ _
  | .cxlRecoveryEntry u | .cxlLinkDownTimeout u | .cxlFatalError u | .cxlLinkDown u | .cxlRecoveryExit u => cxlOk u
  | .attend n _ | .backward n _ | .merge n _ _ | .mergeCombine n | .adamw n | .momentum n => brickOk n
  | .stepRerun | .ckptWrite _ _ | .ckptTimeout | .ownPartDone _ | .phaseLimitExpiry => true
  | .ckptData d _ _ | .ckptAck d _ | .voteReport d _ _ _ _ => deviceOk d
  | .voteAnnounce _ _ _ _ _ => true
  | .wslotWrite a b _ => agentOk a && bayOk b
  | .ethernetFrame p _ _ | .neighborSolicitation p _ _ _ | .hello p _ _ _ | .record p _ _ _ | .confirm p _
  | .submit p _ | .cancelReq p _ | .resend p _ | .ackReq p _ | .reportReq p _ | .closeRecord p _
  | .confirmTimeout p _ | .sessionIdleTimeout p _ | .outputRetainTimeout p _ _ | .servicePortLinkChange p _
  | .neighborAdvertisement p _ _ _ | .fetchData p _ | .fetchError p _ => serviceOk p
  | .servingStepBoundary b _ _ _ _ => bayOk b
  | .linkTraining p _ | .linkTrainingRetry p | .flitCrcFail p | .linkRetrainDone p _ | .beaconSend p
  | .delayReqSend p _ | .linkHello p _ | .rekey p | .portDownTimeout p | .portSignalLoss p => portOk p
  | .dataFlit p f _ | .ctrlFlit p f | .nak p f | .beacon p f _ | .delayReq p f _ _ | .delayResp p f _ =>
    portOk p && flitOk f
  | .suspect s d => deviceOk s && deviceOk d
  | .substitute f _ => deviceOk f
  | .mortarMessage s _ _ => deviceOk s
  | .remapAnnounce f h _ _ => deviceOk f && deviceOk h
  | .remapReady h => deviceOk h
  | .stateFetch s _ _ => deviceOk s
  | .remapTableFetch _ _ | .journalAdopt _ _ _ _ _ | .reportComplete | .wopenComplete _ => true
  | .openImage a k _ | .acceptImage a k _ | .checkImage a k _ => agentOk a && keystoneOk k
  | .entropyHealthFail k | .entropyRetestDone k _ => keystoneOk k
  | .tapInstruction _ | .resetRelease _ | .firmwareVerifyDone _ _ | .selfTestDone _ | .footingVerifyDone | .scrubDone
  | .ready | .mgmtConnection _ | .mgmtIdleTimeout _ => true
  | .status _ | .readReg _ | .readStats _ | .report _ | .readJournal _ | .readObject _ | .alarms _ | .setField _
  | .bayCmd _ | .tierCmd _ | .replaceWeights _ | .cancelChange _ | .job _ | .erase _ | .write _ | .verify _
  | .reset _ | .substituteCommand _ => true
  | .fetchGetTimeout _ => true
  | .watchdogKick a _ => agentOk a
  | .watchdogExpiry c => decide (c < 32)
  | .auditResult | .pwrOkFall | .resetInNAssert | .powerWindow _ | .pwrCapChange _ | .pmbAlert _ _ | .thermalTrip
  | .entropyStartupTestsDone _ _ | .writeFootingDone => true

end Sys2Proof.WellFormed
end

