-- ==== Sys2Proof/Tests/Slice0.lean ====
section
/-!
SUPPORT. Tests. For every statement with hypotheses, a theorem witness_<statement> with concrete states and operands that
meet the hypotheses of each of its clauses together, at the boundary of a range where the clause has one; a premise is left
standing only where an open value of Config decides it, or where it asks the kernel for the checksum of a tile. Then an ill-formed command for each check of WellFormed, and the
worked examples of the spec and check values of the published standards.
-/
namespace Sys2Proof.Tests
open Sys2Proof.Machine
set_option Elab.async false

/-! ### Small states -/

/-- The state a command answers. -/
def chkNext (o : Host.Outcome State Fault Refusal) : State := match o with
  | .next t => t
  | _ => State.reset

/-- An object and a packet that no command has made. -/
def noObj : Obj := { bytesKind := true, fmt := 0, tiles := 0, size := 0, residence := .clay, creating := false, charged := 0 }
def noPacket : GritPacket := ⟨0, false, false, 0, 0, 0, 0, 0, 0, []⟩

/-- The state after a few commands. -/
def run (s : State) (cs : List Instr) : State := cs.foldl (fun s c => chkNext (exec c s)) s

def up : State := { inReset := false, boot := { stage := .ready, mortar := true, fwVerified := true } }
def fp (f : Footing) : State := { up with footing := { f with present := true } }
def one : BayPlan := { role := 1, rects := [⟨0, 0, 0, 1, 1⟩], clayQuota := 4000 }
def two : BayPlan := { role := 1, rects := [⟨0, 0, 0, 1, 2⟩], clayQuota := 4000 }
def bayS (v : Bay) : State := { up with bays := [(63, v)] }
def w (f : Bay → Bay) (s : State) : State := s.setBay 63 (f (s.bay 63))
def kk (f : Brick → Brick) (s : State) : State := s.setBrick 0 (f (s.brick 0))
def gg (p : Nat) (f : Gen → Gen) (s : State) : State := kk (fun k => k.setGen p (f (k.gen p))) s
def img (l : List (Nat × Nat × Nat)) : Memory := l.foldl (fun m x => awrite 0 m x.1 (leBytes x.2.1 x.2.2)) []
def pw (p k v : Nat) : Nat × Nat × Nat := (0x230 + 512 * p + 8 * k, 8, v)
def ew (k v : Nat) : Nat × Nat × Nat := (0x10 + 4 * k, 4, v)
def sw (i v v1 v2 : Nat) : Nat × Nat × Nat := (0x130 + 16 * i, 12, v + v1 * 2^32 + v2 * 2^64)
def fw (i v : Nat) : Nat × Nat × Nat := (0xB0 + 16 * i, 4, v)
def mode (v : Nat) : Nat × Nat × Nat := (0, 4, v)
def rn (l : List (Nat × Nat × Nat)) : State :=
  { bayS { plan := one, state := .running } with bricks := [(0, { plane0 := { state := .active, image := img l, keys := List.replicate 16 [1,2,3,4] } })] }
def op (o v : Nat) : Nat := o * 2 ^ 60 + v
def eps (n : Nat) (f : Endpoint → Endpoint) (s : State) : State := kk (fun k => { k with streams := aput {} k.streams n (f (k.stream n)) }) s

/-! ### Witnesses: Time base -/

namespace TimeW

def tbOf (s : State) (t : TimeBase) : State := { s with tb := t }
def tod (sec : Nat) : Bytes := let b : Bytes := [0xA5, 0x5A] ++ leBytes 6 sec ++ [1]; b ++ [BitVec.ofNat 8 (crc8 (b.drop 2))]
def p0 : State := fp { timeSource := 0 }
def clk : PtpClock := { priority1 := 1, cls := 6, accuracy := 0x20, variance := 5, priority2 := 1, identity := 7, steps := 0 }
def ptp (b : PtpBody) (ns : Nat) : PtpMsg := { wellFormed := true, inProfile := true, domain := 3, overEthernet := true, source := 7, seq := 9, body := b, arriveNs := ns, requestNs := 900 }
def sy (ns : Nat) : PtpMsg := ptp (.sync false 5000000 0) ns
def ptpS (st : TbState) (tick : Nat) (good : Nat) : State := tbOf (fp { timeSource := 1, ptpDomain := 3, ptpEthernet := true }) { state := st, tick := tick, good := good, loaded := st != .unset, ptp := { clocks := [(7, some clk)] } }
def pend (s : State) : State := { s with tb := { s.tb with ptp := { s.tb.ptp with sync := some (7, 9, 4882 * 1024 + 832), request := some (7, 9, 1000, 2000, 3000) } } }
def lk (i : Nat) (up : Nat) : State := { fp { timeSource := 2, upstreams := [3, 4] } with tb := { tick := 4096, up := up, state := .locked, upIndex := i } }

theorem witness_StepTakesTheFrontCommand :
    (let s : State := up
     s.pending = []) := by
  first
    | decide +kernel
    | (repeat' apply And.intro) <;> first
      | decide +kernel


theorem witness_TickStartSteersTheTick :
    (let s : State := { up with rel := { fatal := true } }
     s.powered = true ∧ s.turn.doomed = [] ∧ s.rel.fatal = true) := by
  first
    | decide +kernel
    | (repeat' apply And.intro) <;> first
      | decide +kernel


theorem witness_PulseAndTimeOfDay :
    (let s : State := p0
     let bytes : Bytes := tod 7
     let us : Nat := 99999
     s.awake = true ∧ s.footing.timeSource = 0 ∧ s.footing.present = true ∧ State.todOk bytes us = false ∧
       s.tb.loaded = false ∧ s.tb.state = TbState.unset) ∧
    (let s : State := tbOf p0 {loaded := true, tick := 976564}
     let ns : Nat := 464
     let here : Int := (↑(s.tb.tick * 1024 + ns) : Int)
     let near : Int := (here + 500000000) % 1000000000 - 500000000
     s.awake = true ∧ s.footing.timeSource = 0 ∧ s.footing.present = true ∧ s.tb.loaded = true ∧
       (s.tb.loaded = false ∨ near.natAbs ≤ 2000) ∧ s.tb.tod = none) ∧
    (let s : State := p0
     let bytes : Bytes := tod 7
     let us : Nat := 100000
     s.awake = true ∧ s.footing.timeSource = 0 ∧ s.footing.present = true ∧ State.todOk bytes us = true) ∧
    (let s : State := tbOf p0 { tod := some 7 }
     let sec : Nat := 7
     s.awake = true ∧ s.footing.timeSource = 0 ∧ s.footing.present = true ∧ s.tb.loaded = false ∧
       s.tb.state = TbState.unset ∧ s.tb.tod = some sec) ∧
    (let s : State := tbOf p0 {loaded := true, tick := 976564}
     let ns : Nat := 465
     let here : Int := (↑(s.tb.tick * 1024 + ns) : Int)
     let near : Int := (here + 500000000) % 1000000000 - 500000000
     s.awake = true ∧ s.footing.timeSource = 0 ∧ s.footing.present = true ∧ s.tb.loaded = true ∧
       2000 < near.natAbs) := by
  refine ⟨?_, ?_, ?_, ?_, ?_⟩ <;> first
    | decide +kernel
    | (repeat' apply And.intro) <;> first
      | decide +kernel


theorem witness_MeasurementMovesTheTimeBase :
    (let s : State := ptpS .acquiring 4882 3
     let m : PtpMsg := sy 873
     let o : Nat := 5000000
     let c : Int := 0
     let arrive : Int := (4882 * 1024 + 873 : Nat)
     let tai : Nat := ((↑o : Int) + c + s.tb.ptp.delay).toNat
     let off : Int := arrive - (↑tai : Int)
     s.awake = true ∧ s.footing.timeSource = 1 ∧ s.footing.present = true ∧ m.wellFormed = true ∧
       m.inProfile = true ∧ m.domain = s.footing.ptpDomain ∧ m.overEthernet = s.footing.ptpEthernet ∧
       s.bestSource = some m.source ∧
       (m.body = PtpBody.sync false o c ∧ arrive = (↑(s.tb.tick * 1024 + m.arriveNs) : Int) ∨ m.body = PtpBody.followUp o c ∧ s.tb.ptp.sync = some (m.source, m.seq, arrive)) ∧
       s.tb.state = TbState.acquiring ∧ (s.tb.state = TbState.acquiring ∨ s.tb.state = TbState.holdover) ∧
       40 < off.natAbs ∧ off.natAbs ≤ 1000000) ∧
    (let s : State := ptpS .lost 5859 3
     let m : PtpMsg := sy 384
     let o : Nat := 5000000
     let c : Int := 0
     let arrive : Int := (5859 * 1024 + 384 : Nat)
     let tai : Nat := ((↑o : Int) + c + s.tb.ptp.delay).toNat
     let off : Int := arrive - (↑tai : Int)
     s.awake = true ∧ s.footing.timeSource = 1 ∧ s.footing.present = true ∧ m.wellFormed = true ∧
       m.inProfile = true ∧ m.domain = s.footing.ptpDomain ∧ m.overEthernet = s.footing.ptpEthernet ∧
       s.bestSource = some m.source ∧
       (m.body = PtpBody.sync false o c ∧ arrive = (↑(s.tb.tick * 1024 + m.arriveNs) : Int) ∨ m.body = PtpBody.followUp o c ∧ s.tb.ptp.sync = some (m.source, m.seq, arrive)) ∧
       s.tb.state = TbState.lost ∧ s.tb.stuck = false ∧ off.natAbs ≤ 1000000) ∧
    (let s : State := ptpS .unset 0 0
     let m : PtpMsg := ptp (.sync true 5000000 0) 5
     let two : Bool := true
     let o : Nat := 5000000
     let c : Int := 0
     s.awake = true ∧ s.footing.timeSource = 1 ∧ s.footing.present = true ∧ m.wellFormed = true ∧
       m.inProfile = true ∧ m.body = PtpBody.sync two o c ∧ m.domain = s.footing.ptpDomain ∧
       m.overEthernet = s.footing.ptpEthernet ∧ m.body = PtpBody.sync true o c ∧ s.bestSource = some m.source) ∧
    (let s : State := ptpS .locked 5859 3
     let m : PtpMsg := sy 384
     let o : Nat := 5000000
     let c : Int := 0
     let arrive : Int := (5859 * 1024 + 384 : Nat)
     let tai : Nat := ((↑o : Int) + c + s.tb.ptp.delay).toNat
     let off : Int := arrive - (↑tai : Int)
     s.awake = true ∧ s.footing.timeSource = 1 ∧ s.footing.present = true ∧ m.wellFormed = true ∧
       m.inProfile = true ∧ m.domain = s.footing.ptpDomain ∧ m.overEthernet = s.footing.ptpEthernet ∧
       s.bestSource = some m.source ∧
       (m.body = PtpBody.sync false o c ∧ arrive = (↑(s.tb.tick * 1024 + m.arriveNs) : Int) ∨ m.body = PtpBody.followUp o c ∧ s.tb.ptp.sync = some (m.source, m.seq, arrive)) ∧
       s.tb.state = TbState.locked ∧ off.natAbs ≤ 1000000 ∧
       (s.tb.state = TbState.locked ∨ s.tb.state = TbState.holdover)) ∧
    (let s : State := pend (ptpS .locked 4882 3)
     let m : PtpMsg := ptp (.delayResp 4000 10) 0
     let r : Nat := 4000
     let c : Int := 10
     let t1 : Int := 1000
     let t2 : Int := 2000
     let t3 : Int := 3000
     s.awake = true ∧ s.footing.timeSource = 1 ∧ s.footing.present = true ∧ m.wellFormed = true ∧
       m.inProfile = true ∧ m.domain = s.footing.ptpDomain ∧ m.overEthernet = s.footing.ptpEthernet ∧
       m.body = PtpBody.delayResp r c ∧ s.tb.ptp.request = some (m.source, m.seq, t1, t2, t3)) ∧
    (let s : State := ptpS .holdover 4882 15
     let m : PtpMsg := sy 872
     let o : Nat := 5000000
     let c : Int := 0
     let arrive : Int := (4882 * 1024 + 872 : Nat)
     let tai : Nat := ((↑o : Int) + c + s.tb.ptp.delay).toNat
     let off : Int := arrive - (↑tai : Int)
     s.awake = true ∧ s.footing.timeSource = 1 ∧ s.footing.present = true ∧ m.wellFormed = true ∧
       m.inProfile = true ∧ m.domain = s.footing.ptpDomain ∧ m.overEthernet = s.footing.ptpEthernet ∧
       s.bestSource = some m.source ∧
       (m.body = PtpBody.sync false o c ∧ arrive = (↑(s.tb.tick * 1024 + m.arriveNs) : Int) ∨ m.body = PtpBody.followUp o c ∧ s.tb.ptp.sync = some (m.source, m.seq, arrive)) ∧
       (s.tb.state = TbState.acquiring ∨ s.tb.state = TbState.holdover) ∧ off.natAbs ≤ 40 ∧ 15 ≤ s.tb.good) ∧
    (let s : State := ptpS .unset 0 0
     let m : PtpMsg := ptp .peerDelay 0
     s.awake = true ∧ s.footing.timeSource = 1 ∧ s.footing.present = true ∧ m.wellFormed = true ∧
       m.inProfile = true ∧
       (m.domain ≠ s.footing.ptpDomain ∨ m.overEthernet ≠ s.footing.ptpEthernet ∨ m.body = PtpBody.peerDelay)) ∧
    (let s : State := ptpS .unset 0 0
     let m : PtpMsg := sy 832
     let o : Nat := 5000000
     let c : Int := 0
     let arrive : Int := 832
     s.awake = true ∧ s.footing.timeSource = 1 ∧ s.footing.present = true ∧ m.wellFormed = true ∧
       m.inProfile = true ∧ m.domain = s.footing.ptpDomain ∧ m.overEthernet = s.footing.ptpEthernet ∧
       s.bestSource = some m.source ∧
       (m.body = PtpBody.sync false o c ∧ arrive = (↑(s.tb.tick * 1024 + m.arriveNs) : Int) ∨ m.body = PtpBody.followUp o c ∧ s.tb.ptp.sync = some (m.source, m.seq, arrive)) ∧
       s.tb.state = TbState.unset) ∧
    (let s : State := ptpS .unset 0 0
     let m : PtpMsg := ptp (.announce clk) 0
     let k : PtpClock := clk
     s.awake = true ∧ s.footing.timeSource = 1 ∧ s.footing.present = true ∧ m.wellFormed = true ∧
       m.inProfile = true ∧ m.domain = s.footing.ptpDomain ∧ m.overEthernet = s.footing.ptpEthernet ∧
       m.body = PtpBody.announce k) ∧
    (let s : State := ptpS .unset 0 0
     let m : PtpMsg := { sy 100 with inProfile := false }
     s.awake = true ∧ s.footing.timeSource = 1 ∧ s.footing.present = true ∧
       (m.wellFormed = false ∨ m.inProfile = false)) ∧
    (let s : State := ptpS .unset 0 0
     let m : PtpMsg := { sy 100 with source := 8 }
     let two : Bool := false
     let o : Nat := 5000000
     let c : Int := 0
     s.awake = true ∧ s.footing.timeSource = 1 ∧ s.footing.present = true ∧ m.wellFormed = true ∧
       m.inProfile = true ∧ m.body = PtpBody.sync two o c ∧ s.bestSource ≠ some m.source) ∧
    (let s : State := ptpS .lost 5859 3
     let m : PtpMsg := sy 385
     let o : Nat := 5000000
     let c : Int := 0
     let arrive : Int := (5859 * 1024 + 385 : Nat)
     let tai : Nat := ((↑o : Int) + c + s.tb.ptp.delay).toNat
     let off : Int := arrive - (↑tai : Int)
     s.awake = true ∧ s.footing.timeSource = 1 ∧ s.footing.present = true ∧ m.wellFormed = true ∧
       m.inProfile = true ∧ m.domain = s.footing.ptpDomain ∧ m.overEthernet = s.footing.ptpEthernet ∧
       s.bestSource = some m.source ∧
       (m.body = PtpBody.sync false o c ∧ arrive = (↑(s.tb.tick * 1024 + m.arriveNs) : Int) ∨ m.body = PtpBody.followUp o c ∧ s.tb.ptp.sync = some (m.source, m.seq, arrive)) ∧
       s.tb.state = TbState.lost ∧ (1000000 < off.natAbs ∨ s.tb.stuck = true)) ∧
    (let s : State := ptpS .locked 5859 3
     let m : PtpMsg := sy 385
     let o : Nat := 5000000
     let c : Int := 0
     let arrive : Int := (5859 * 1024 + 385 : Nat)
     let tai : Nat := ((↑o : Int) + c + s.tb.ptp.delay).toNat
     let off : Int := arrive - (↑tai : Int)
     s.awake = true ∧ s.footing.timeSource = 1 ∧ s.footing.present = true ∧ m.wellFormed = true ∧
       m.inProfile = true ∧ m.domain = s.footing.ptpDomain ∧ m.overEthernet = s.footing.ptpEthernet ∧
       s.bestSource = some m.source ∧
       (m.body = PtpBody.sync false o c ∧ arrive = (↑(s.tb.tick * 1024 + m.arriveNs) : Int) ∨ m.body = PtpBody.followUp o c ∧ s.tb.ptp.sync = some (m.source, m.seq, arrive)) ∧
       (s.tb.state = TbState.locked ∨ s.tb.state = TbState.holdover) ∧ 1000000 < off.natAbs) ∧
    (let s : State := ptpS .holdover 4882 14
     let m : PtpMsg := sy 872
     let o : Nat := 5000000
     let c : Int := 0
     let arrive : Int := (4882 * 1024 + 872 : Nat)
     let tai : Nat := ((↑o : Int) + c + s.tb.ptp.delay).toNat
     let off : Int := arrive - (↑tai : Int)
     s.awake = true ∧ s.footing.timeSource = 1 ∧ s.footing.present = true ∧ m.wellFormed = true ∧
       m.inProfile = true ∧ m.domain = s.footing.ptpDomain ∧ m.overEthernet = s.footing.ptpEthernet ∧
       s.bestSource = some m.source ∧
       (m.body = PtpBody.sync false o c ∧ arrive = (↑(s.tb.tick * 1024 + m.arriveNs) : Int) ∨ m.body = PtpBody.followUp o c ∧ s.tb.ptp.sync = some (m.source, m.seq, arrive)) ∧
       (s.tb.state = TbState.acquiring ∨ s.tb.state = TbState.holdover) ∧ off.natAbs ≤ 40 ∧ s.tb.good < 15) ∧
    (let s : State := ptpS .acquiring 5859 3
     let m : PtpMsg := sy 385
     let o : Nat := 5000000
     let c : Int := 0
     let arrive : Int := (5859 * 1024 + 385 : Nat)
     let tai : Nat := ((↑o : Int) + c + s.tb.ptp.delay).toNat
     let off : Int := arrive - (↑tai : Int)
     s.awake = true ∧ s.footing.timeSource = 1 ∧ s.footing.present = true ∧ m.wellFormed = true ∧
       m.inProfile = true ∧ m.domain = s.footing.ptpDomain ∧ m.overEthernet = s.footing.ptpEthernet ∧
       s.bestSource = some m.source ∧
       (m.body = PtpBody.sync false o c ∧ arrive = (↑(s.tb.tick * 1024 + m.arriveNs) : Int) ∨ m.body = PtpBody.followUp o c ∧ s.tb.ptp.sync = some (m.source, m.seq, arrive)) ∧
       s.tb.state = TbState.acquiring ∧ 1000000 < off.natAbs) := by
  refine ⟨?_, ?_, ?_, ?_, ?_, ?_, ?_, ?_, ?_, ?_, ?_, ?_, ?_, ?_, ?_⟩ <;> first
    | decide +kernel
    | (repeat' apply And.intro) <;> first
      | decide +kernel


theorem witness_LosingTheReference :
    (let s : State := lk 1 4096
     let gone : Prop := if s.footing.timeSource = 2 then s.footing.upstreams.length ≤ s.tb.upIndex else 3 * 1953125 ≤ 2 * (s.tb.up - s.tb.lastGood)
     s.awake = true ∧ s.footing.timeSource = 2 ∧ s.footing.present = true ∧
       s.tb.upIndex < s.footing.upstreams.length ∧ s.tb.lastBeacon + 4096 ≤ s.tb.up ∧
       s.footing.upstreams.length ≤ s.tb.upIndex + 1 ∧ s.tb.state = TbState.locked ∧ (¬gone)) ∧
    (let s : State := tbOf (fp { holdover := 1 }) { state := .holdover, up := 976563 }
     s.awake = true ∧ s.tb.state = TbState.holdover ∧
       s.footing.holdover * 1953125 ≤ 2 * (s.tb.up - s.tb.holdSince)) ∧
    (let s : State := lk 0 4096
     s.awake = true ∧ s.footing.timeSource = 2 ∧ s.footing.present = true ∧
       s.tb.upIndex < s.footing.upstreams.length ∧ s.tb.lastBeacon + 4096 ≤ s.tb.up ∧
       s.tb.upIndex + 1 < s.footing.upstreams.length) ∧
    (let s : State := tbOf (fp { holdover := 1 }) { state := .holdover, up := 976562 }
     s.awake = true ∧ s.tb.state = TbState.holdover ∧
       2 * (s.tb.up - s.tb.holdSince) < s.footing.holdover * 1953125) ∧
    (let s : State := lk 2 4096
     let gone : Prop := if s.footing.timeSource = 2 then s.footing.upstreams.length ≤ s.tb.upIndex else 3 * 1953125 ≤ 2 * (s.tb.up - s.tb.lastGood)
     s.awake = true ∧ s.tb.state = TbState.locked ∧ gone) := by
  refine ⟨?_, ?_, ?_, ?_, ?_⟩ <;> first
    | decide +kernel
    | (repeat' apply And.intro) <;> first
      | decide +kernel


end TimeW

/-! ### Witnesses: Scheduled events and the census -/

namespace CensusW

def box (dev : Nat) : State := { fp { ex := 2 } with system := { device := dev, x := dev } }
def cen (dev : Nat) (tick : Nat) (c : Census) : State := { box dev with tb := { loaded := true, tick := tick }, census := c }
def cenP (dev : Nat) (tick : Nat) (c : Census) : State := cen dev tick c
def three (tick : Nat) (c : Census) : State := { (fp { ex := 3 }) with system := { device := 1, x := 1, voteRoot := 0 }, tb := { loaded := true, tick := tick }, census := c }
def rep (m a l : Bool) : ChildReport := { child := 1, equal := true, matched := m, absent := a, timeLost := l }

theorem witness_ScheduledEventsFire :
    (let s : State := { up with tb := { loaded := true, tick := 2 ^ 20 } }
     s.awake = true ∧ s.tb.loaded = true ∧ s.tb.tick % 2 ^ 20 = 0 ∧ s.tb.sched = [] ∧
       s.tb.lastLatch ≠ some s.tb.tick ∧ s.census.tick ≠ some s.tb.tick ∧
       (∀ (b : Nat), b < 64 → (s.bay b).state ≠ BayState.fenced ∧ (s.bay b).loading = none) ∧ s.inCensus = true) ∧
    (let s : State := { up with tb := { tick := 9, sched := [{ tick := 9, cls := 3, arg := 77 }] } }
     let e : SchedEntry := { tick := 9, cls := 3, arg := 77 }
     s.awake = true ∧ s.tb.sched = [e] ∧ e.cls = 3 ∧ e.tick ≤ s.tb.tick ∧
       (s.tb.loaded = false ∨ s.tb.tick % 2 ^ 20 ≠ 0) ∧ s.turn.next = none ∧ s.system.remapNext = none ∧
       s.mgmt.resetAt = none) ∧
    (let s : State := { up with tb := { tick := 9 }, mgmt := { resetAt := some 9 } }
     let r : Nat := 9
     s.awake = true ∧ s.tb.sched = [] ∧ (s.tb.loaded = false ∨ s.tb.tick % 2 ^ 20 ≠ 0) ∧ s.mgmt.resetAt = some r ∧
       r ≤ s.tb.tick) ∧
    (let s : State := up
     s.awake = true ∧ s.tb.sched = [] ∧ (s.tb.loaded = false ∨ s.tb.tick % 2 ^ 20 ≠ 0) ∧ s.mgmt.resetAt = none) ∧
    (let s : State := { up with tb := { tick := 9 }, mgmt := { resetAt := some 10 } }
     let r : Nat := 10
     s.awake = true ∧ s.tb.sched = [] ∧ (s.tb.loaded = false ∨ s.tb.tick % 2 ^ 20 ≠ 0) ∧ s.mgmt.resetAt = some r ∧
       s.tb.tick < r) ∧
    (let s : State := { up with boot := { stage := .time }, tb := { loaded := true, tick := 2 ^ 20 } }
     s.awake = true ∧ s.tb.loaded = true ∧ s.tb.tick % 2 ^ 20 = 0 ∧ s.tb.sched = [] ∧
       s.tb.lastLatch ≠ some s.tb.tick ∧ s.census.tick ≠ some s.tb.tick ∧
       (∀ (b : Nat), b < 64 → (s.bay b).state ≠ BayState.fenced ∧ (s.bay b).loading = none) ∧ s.inCensus = false) := by
  refine ⟨?_, ?_, ?_, ?_, ?_, ?_⟩ <;> first
    | decide +kernel
    | (repeat' apply And.intro) <;> first
      | decide +kernel


theorem witness_CensusExchange :
    (let s : State := cen 1 4160 { tick := some 64 }
     let child : Nat := 2
     let c : Nat := 64
     let digest : Bytes := []
     let flags : Byte := 0
     let rs : List ChildReport := s.census.reports ++ [{ child := child, equal := digest == s.census.digest, matched := BitVec.getLsbD flags 0, absent := BitVec.getLsbD flags 1, timeLost := BitVec.getLsbD flags 2 : ChildReport }]
     s.children.contains child = true → (∀ (k : Nat), k ∈ s.children → ∃ r, r ∈ rs ∧ r.child = k) → s.children.Nodup → (∀ (k : Nat), k ∈ s.children → aget 0 s.census.absences k = 0) →
       s.awake = true ∧ s.census.tick = some c ∧ s.census.verdict = false ∧
       (∀ (r : ChildReport), r ∈ s.census.reports → r.child ≠ child) ∧ s.isRoot = false ∧ s.census.sent = false ∧
       c + 4096 ≤ s.tb.tick ∧ BitVec.getLsbD flags 0 = false) ∧
    (let s : State := cenP 0 6208 { tick := some 64 , part := true}
     let c : Nat := 64
     let t : State := chkNext (exec Instr.censusRootDecision s)
     t.census.matched = false → s.children.Nodup → (∀ (k : Nat), k ∈ s.children → aget 0 s.census.absences k = 0) →
       s.awake = true ∧ s.isRoot = true ∧ s.census.part = true ∧ s.census.verdict = false ∧ s.census.tick = some c ∧
       c + 6144 ≤ s.tb.tick) ∧
    (let s : State := cen 1 8256 { tick := some 64}
     let c : Nat := 64
     let flags : Byte := 1
     s.awake = true ∧ s.isRoot = false ∧ s.census.verdict = false ∧ s.census.tick = some c ∧
       BitVec.getLsbD flags 0 = true ∧ c + 8192 ≤ s.tb.tick) ∧
    (let s : State := three 100 { tick := some 64, verdict := true }
     let child : Nat := 0
     (s.census.verdict = true ∨ s.census.tick = none ∨ s.children.contains child = false)) ∧
    (let s : State := cen 1 4160 { tick := some 64 }
     let c : Nat := 64
     let k : Nat := 2
     s.children.Nodup → (∀ (k : Nat), k ∈ s.children → aget 0 s.census.absences k = 0) → k ∈ s.children →
       s.awake = true ∧ s.isRoot = false ∧ s.census.sent = false ∧ s.census.tick = some c ∧ c + 4096 ≤ s.tb.tick) ∧
    (let s : State := cenP 0 6208 { tick := some 64, part := true, reports := [rep true false false] }
     let c : Nat := 64
     let t : State := chkNext (exec Instr.censusRootDecision s)
     t.census.matched = true →
       s.awake = true ∧ s.isRoot = true ∧ s.census.part = true ∧ s.census.verdict = false ∧ s.census.tick = some c ∧
       c + 6144 ≤ s.tb.tick) ∧
    (let s : State := cen 0 100 { tick := some 64 }
     let child : Nat := 1
     let c : Nat := 64
     let digest : Bytes := []
     let flags : Byte := 0
     let rs : List ChildReport := s.census.reports ++ [{ child := child, equal := digest == s.census.digest, matched := BitVec.getLsbD flags 0, absent := BitVec.getLsbD flags 1, timeLost := BitVec.getLsbD flags 2 : ChildReport }]
     s.children.contains child = true → (s.isRoot = true ∨ s.census.sent = true ∨ ∃ k, k ∈ s.children ∧ ∀ (r : ChildReport), r ∈ rs → r.child ≠ k) →
       s.awake = true ∧ s.census.tick = some c ∧ s.census.verdict = false ∧
       (∀ (r : ChildReport), r ∈ s.census.reports → r.child ≠ child)) := by
  refine ⟨fun _ _ _ _ => ?_, fun _ _ _ => ?_, ?_, ?_, fun _ _ _ => ?_, fun _ => ?_, fun _ _ => ?_⟩
  · first
      | decide +kernel
      | (repeat' apply And.intro) <;> first
        | decide +kernel

  · first
      | decide +kernel
      | (repeat' apply And.intro) <;> first
        | decide +kernel

  · first
      | decide +kernel
      | (repeat' apply And.intro) <;> first
        | decide +kernel

  · first
      | decide +kernel
      | (repeat' apply And.intro) <;> first
        | decide +kernel

  · first
      | decide +kernel
      | (repeat' apply And.intro) <;> first
        | decide +kernel

  · first
      | decide +kernel
      | (repeat' apply And.intro) <;> first
        | decide +kernel

  · first
      | decide +kernel
      | (repeat' apply And.intro) <;> first
        | decide +kernel


end CensusW

/-! ### Witnesses: Bays -/

namespace BaysW

def st (x : BayState) : State := bayS { plan := one, state := x, arg := 9 }
def tbx (s : State) : State := { s with tb := { tick := 1 } }
def sh (x : BayState) : State := w (fun v => { v with shutdown := some 0x21 }) (st x)
def he (x : BayState) : State := w (fun v => { v with enableHeld := true }) (st x)
def withBond (s : State) : State :=
  let b : Brick := { clay := awrite 0 [] 0 (leBytes 4 bondMagic ++ zeros 20 ++ [1, 0] ++ leBytes 2 1 ++ leBytes 2 1 ++ leBytes 2 0 ++ [0, 0]) }
  let lp : Placement := { host := 0, first := 0, ranks := 1, offset := 100, order := 0, base := 0, bricks := [0], granules := 1 }
  let b : Brick := { b with clay := awrite 0 b.clay 409600 (leBytes 4 layoutMagic) }
  let p : Placement := { host := 63, first := 0, ranks := 1, offset := 0, order := 2, base := 0, bricks := [0], granules := 4 }
  { (s.setBrick 0 b) with objs := [(9, some { bytesKind := true, fmt := 0, tiles := 3, size := 12000, residence := .clay, creating := false, place := some p, charged := 0, validated := some [1, 2] }), (10, some { bytesKind := true, fmt := 0, tiles := 1, size := 200, residence := .clay, creating := false, place := some lp, charged := 0, validated := some (zeros 32) })] }
def bi : BondInfo := { object := 9, digest := zeros 32, layoutDigest := [], fences := [], seed := 0, streamFirst := 0 }
def saved : State :=
  let k : Brick := { clay := awrite 0 [] 0 (leBytes 4 ctxMagic ++ [1, 0, 63, 1]) }
  let p : Placement := { host := 63, first := 0, ranks := 1, offset := 0, order := 2, base := 0, bricks := [0], granules := 4 }
  { (w (fun v => { v with active := some bi }) (st .ready)).setBrick 0 k with
    objs := [(9, some { bytesKind := true, fmt := 0, tiles := 3, size := 12000, residence := .clay, creating := false, place := some p, charged := 63 })] }
def snd (k d n : Nat) (s : State) : State := s.sendGrit reqFunction (gritOf k d n 0 0 0 [])
def bricks2 (f : Brick) (s : State) : State := (s.setBrick 0 f).setBrick 1 f
def ld (n : List Nat) (x : BayState) : State := bayS { plan := two, state := x, loading := some 9, loadedBy := n, swapAt := none }
def qs (n : List Nat) (f : Bay → Bay) : State := w f (bricks2 { quietSent := true } (bayS { plan := two, state := .draining, fenceId := some 5, quietBy := n }))
def pk (s : State) : GritPacket := (s.net.grit.getLast?.map (·.p)).getD (gritOf 5 0 0 0 0 0 [])
def sw0 : State := w (fun v => { v with shadowReady := true, shadow := some bi }) (bayS { plan := two, state := .ready })
def sw1 : State := run sw0 [.swap 3 63 0 50]
def sw2 : State := run sw1 [.swapPacket 0, .swapPacket 1]
def sw3 : State := run sw2 [.swapSequence 63]
def fin (x : Bay → Bay) : State := w (fun v => { x v with state := .fenced, swapAt := some 0, fenceTick := 0, fenceId := some 5, plan := { two with swapWaitLimit := 1 } }) (bricks2 {} (bayS { plan := two, state := .fenced }))
def upTick (n : Nat) (s : State) : State := { s with tb := { s.tb with up := n } }
def sv1 : State := run { (withBond (w (fun v => { v with active := some bi }) (st .ready))) with objs := [(10, ((withBond up).obj 10))] } [.save 3 63 0 50]
def far : State := { st .empty with bays := [(63, { plan := { one with rects := [⟨3, 31, 31, 1, 1⟩] } })] }

theorem witness_EnableAndShutDown :
    (let s : State := st .empty
     let agent : Nat := 3
     let b : Nat := 63
     let v : Bay := s.bay b
     s.coreUp agent = true ∧ b < 64 ∧ s.namesVacant b = false ∧ v.shutdown = none ∧
       (v.state = BayState.empty ∨ v.state = BayState.faulted ∨ v.state = BayState.saving ∧ v.fenceId = none ∧ v.shutdown = none) ∧
       v.enableHeld = false ∧ (v.state = BayState.stopped ∨ v.state = BayState.empty)) ∧
    (let s : State := sh .running
     let agent : Nat := 3
     let b : Nat := 63
     let v : Bay := s.bay b
     s.coreUp agent = true ∧ b < 64 ∧ s.namesVacant b = false ∧ v.shutdown ≠ none ∧
       (v.state = BayState.running ∨ v.state = BayState.draining ∨ v.state = BayState.fenced ∨ v.state = BayState.swapping ∨ v.state = BayState.saving) ∧
       v.enableHeld = false ∧ v.state = BayState.running) ∧
    (let s : State := st .ready
     let agent : Nat := 3
     let b : Nat := 63
     let v : Bay := s.bay b
     s.coreUp agent = true ∧ b < 64 ∧ s.namesVacant b = false ∧ v.shutdown = none ∧
       (v.state = BayState.ready ∨ v.state = BayState.stopped) ∧ v.enableHeld = false ∧ v.state = BayState.ready) ∧
    (let s : State := st .fenced
     let agent : Nat := 3
     let b : Nat := 63
     let v : Bay := s.bay b
     s.coreUp agent = true ∧ b < 64 ∧ s.namesVacant b = false ∧ v.shutdown = none ∧
       (v.state = BayState.running ∨ v.state = BayState.draining ∨ v.state = BayState.fenced ∨ v.state = BayState.saving ∧ v.fenceId ≠ none) ∧
       v.enableHeld = false ∧
       (v.state = BayState.draining ∨ v.state = BayState.fenced ∨ v.state = BayState.swapping ∨ v.state = BayState.saving ∨ v.state = BayState.faulted)) ∧
    (let s : State := run (st .ready) [.siteFailure 0 0 0]
     let agent : Nat := 3
     let b : Nat := 63
     let reserved : Nat := 1
     s.coreUp agent = true ∧ b < 64 ∧ reserved ≠ 0 ∧ s.namesVacant b = true) ∧
    (let s : State := he .empty
     let agent : Nat := 3
     let b : Nat := 63
     let v : Bay := s.bay b
     s.coreUp agent = true ∧ b < 64 ∧ s.namesVacant b = false ∧ v.enableHeld = true) ∧
    (let s : State := st .swapping
     let agent : Nat := 3
     let b : Nat := 63
     let v : Bay := s.bay b
     s.coreUp agent = true ∧ b < 64 ∧ s.namesVacant b = false ∧ v.shutdown = none ∧ v.state = BayState.swapping) := by
  refine ⟨?_, ?_, ?_, ?_, ?_, ?_, ?_⟩ <;> first
    | decide +kernel
    | (repeat' apply And.intro) <;> first
      | decide +kernel


theorem witness_SwapLoadSaveRestoreClear :
    (let s : State := saved
     let agent : Nat := 3
     let b : Nat := 63
     let read : ObjRead := []
     let v : Bay := s.bay b
     let o : Obj := (saved.obj 9).getD noObj
     s.coreUp agent = true ∧ b < 64 ∧ s.namesVacant b = false ∧ v.state ≠ BayState.faulted ∧
       v.state ≠ BayState.swapping ∧
       (v.state = BayState.empty ∨ v.state = BayState.ready ∨ v.state = BayState.stopped) ∧ v.swapAt = none ∧
       v.shadowReady = false ∧ v.state ≠ BayState.saving ∧ (s.planLoad b (BitVec.toNat v.arg)).snd.isSome = false ∧
       v.saveObj = none ∧ (v.state = BayState.ready ∨ v.state = BayState.stopped ∨ v.state = BayState.fenced) ∧
       s.saveCode b (BitVec.toNat v.arg) ≠ sOk ∧ s.restoreCode b (BitVec.toNat v.arg) = sOk ∧
       s.obj (BitVec.toNat v.arg) = some o ∧
       (s.fetchTiles (BitVec.toNat v.arg) o read 0 o.tiles).snd.isSome = true ∧ v.state ≠ BayState.stopped ∧
       (v.state = BayState.faulted ∨ v.state = BayState.stopped ∨ v.state = BayState.ready)) ∧
    (let s : State := st .saving
     let agent : Nat := 3
     let b : Nat := 63
     let v : Bay := s.bay b
     s.coreUp agent = true ∧ b < 64 ∧ s.namesVacant b = false ∧
       (v.state = BayState.running ∨ v.state = BayState.draining ∨ v.state = BayState.fenced ∨ v.state = BayState.saving) ∧
       v.swapAt = none ∧ (v.state = BayState.swapping ∨ v.state = BayState.saving) ∧ v.saveObj = none ∧
       (v.state = BayState.empty ∨ v.state = BayState.draining ∨ v.state = BayState.swapping ∨ v.state = BayState.saving ∨ v.state = BayState.faulted) ∧
       s.restoreCode b (BitVec.toNat v.arg) ≠ sOk ∧ v.state ≠ BayState.faulted ∧ v.state ≠ BayState.stopped ∧
       v.state ≠ BayState.ready) ∧
    (let s : State := w (fun v => { v with swapAt := some 3 }) (st .ready)
     let agent : Nat := 3
     let b : Nat := 63
     let v : Bay := s.bay b
     s.coreUp agent = true ∧ b < 64 ∧ s.namesVacant b = false ∧ v.state ≠ BayState.faulted ∧
       v.state ≠ BayState.swapping ∧ v.swapAt ≠ none ∧ v.saveObj = none ∧
       (v.state = BayState.ready ∨ v.state = BayState.stopped ∨ v.state = BayState.fenced) ∧
       s.saveCode b (BitVec.toNat v.arg) = sOk) ∧
    (let s : State := st .faulted
     let agent : Nat := 3
     let b : Nat := 63
     let v : Bay := s.bay b
     s.coreUp agent = true ∧ b < 64 ∧ s.namesVacant b = false ∧
       (v.state = BayState.faulted ∨ v.state = BayState.swapping) ∧ v.state = BayState.faulted) ∧
    (let s : State := st .running
     let agent : Nat := 3
     let b : Nat := 63
     let v : Bay := s.bay b
     s.coreUp agent = true ∧ b < 64 ∧ s.namesVacant b = false ∧ v.saveObj = none ∧ v.state = BayState.running) ∧
    (let s : State := withBond (st .ready)
     let agent : Nat := 3
     let b : Nat := 63
     let v : Bay := s.bay b
     s.coreUp agent = true ∧ b < 64 ∧ s.namesVacant b = false ∧ v.state ≠ BayState.faulted ∧
       v.state ≠ BayState.swapping ∧ v.state ≠ BayState.saving ∧ v.swapAt = none ∧
       (s.planLoad b (BitVec.toNat v.arg)).snd.isSome = true) ∧
    (let s : State := w (fun v => { v with saveObj := some 9 }) (st .running)
     let agent : Nat := 3
     let b : Nat := 63
     let v : Bay := s.bay b
     s.coreUp agent = true ∧ b < 64 ∧ s.namesVacant b = false ∧ v.saveObj ≠ none) ∧
    (let s : State := w (fun v => { v with shadowReady := true }) (st .stopped)
     let agent : Nat := 3
     let b : Nat := 63
     let v : Bay := s.bay b
     s.coreUp agent = true ∧ b < 64 ∧ s.namesVacant b = false ∧
       (v.state = BayState.empty ∨ v.state = BayState.ready ∨ v.state = BayState.stopped) ∧ v.swapAt = none ∧
       v.shadowReady = true) ∧
    (let s : State := saved
     let agent : Nat := 3
     let b : Nat := 63
     let read : ObjRead := [(0, [(0, .uncorrectable)])]
     let v : Bay := s.bay b
     let o : Obj := (saved.obj 9).getD noObj
     s.coreUp agent = true ∧ b < 64 ∧ s.namesVacant b = false ∧ s.restoreCode b (BitVec.toNat v.arg) = sOk ∧
       s.obj (BitVec.toNat v.arg) = some o ∧ (s.fetchTiles (BitVec.toNat v.arg) o read 0 o.tiles).snd = none) := by
  refine ⟨?_, ?_, ?_, ?_, ?_, ?_, ?_, ?_, ?_⟩ <;> first
    | decide +kernel
    | (repeat' apply And.intro) <;> first
      | decide +kernel


theorem witness_ReportsAndSequencesOfBays :
    (let s : State := snd 4 0 1 (qs [0] id)
     let n : Nat := 1
     let b : Nat := 63
     let v : Bay := s.bay b
     let p : GritPacket := gritOf 4 0 1 0 0 0 []
     s.awake = true ∧ s.bayOf n = some b ∧ (v.loading = none ∨ v.loadedBy.contains n = true) ∧
       s.Arriving 4 n false p ∧ v.state = BayState.draining ∧ v.quietBy.contains n = false ∧
       (s.brick n).quietSent = true ∧ s.brickCount b ≤ v.quietBy.length + 1 ∧
       State.stepEnds v (v.fenceId.getD 0) = false ∧ v.saveObj = none ∧ v.swapAt = none ∧ v.enableHeld = false ∧
       v.state ≠ BayState.swapping ∧ v.state ≠ BayState.saving ∧ (v.swapAt = none ∨ v.shadowReady = true)) ∧
    (let s : State := upTick 1 (fin id)
     let b : Nat := 63
     let v : Bay := s.bay b
     let a : Nat := 0
     s.awake = true ∧ v.swapAt = some a ∧ v.shadowReady = false ∧ v.state = BayState.fenced ∧ v.swapAt ≠ none ∧
       v.fenceTick + v.plan.swapWaitLimit ≤ s.tb.up ∧ v.saveObj = none ∧ v.shutdown = none) ∧
    (let s : State := run sw3 [.swappedReport 0 9]
     let n : Nat := 1
     let b : Nat := 63
     let v : Bay := s.bay b
     let p : GritPacket := pk sw3
     s.awake = true ∧ s.bayOf n = some b ∧ s.Arriving 7 n false p ∧ v.state = BayState.swapping ∧
       (s.brick n).swapped = true ∧ v.swappedBy.contains n = false ∧ s.brickCount b ≤ v.swappedBy.length + 1 ∧
       v.fenceId = none ∧ v.afterSwap ≠ BayState.running ∧ v.swapCycle ≠ none) ∧
    (let s : State := sw2
     let n : Nat := 0
     let b : Nat := 63
     let v : Bay := s.bay b
     let u : Nat := 65535
     s.awake = true ∧ s.bayOf n = some b ∧ u < 65536 ∧ v.loading = none ∧ v.state = BayState.swapping ∧
       v.swapCycle ≠ none ∧ (∀ (n : Nat), n ∈ s.bricksOf b → (s.brick n).swapCycle = v.swapCycle) ∧
       (s.bricksOf b).Nodup ∧ n ∈ s.bricksOf b) ∧
    (let s : State := sv1
     let b : Nat := 63
     let v : Bay := s.bay b
     let o : Nat := 9
     let x : Obj := (sv1.obj 9).getD noObj
     s.awake = true ∧ v.state = BayState.saving ∧ v.saveObj = some o ∧ v.fenceId = none ∧ v.shadowReady = false ∧
       s.obj o = some x) ∧
    (let s : State := ld [0] .ready
     let n : Nat := 1
     let b : Nat := 63
     let corrected : Nat := 0
     let v : Bay := s.bay b
     let sent : State := (s.corrected memCorr corrected).sendLoaded b n
     let o : Nat := 9
     let p : GritPacket := pk ((ld [] .ready).sendLoaded 63 1)
     s.awake = true ∧ s.bayOf n = some b ∧ v.loading = some o ∧ v.loadedBy.contains n = false ∧
       sent.Arriving 5 n false p ∧ s.brickCount b ≤ v.loadedBy.length + 1 ∧ v.swapAt = none) ∧
    (let s : State := sw1
     let n : Nat := 0
     let b : Nat := 63
     let v : Bay := s.bay b
     let p : GritPacket := (sw1.net.grit.head?.map (·.p)).getD noPacket
     s.awake = true ∧ s.bayOf n = some b ∧ s.Arriving 6 n true p ∧ v.state = BayState.swapping ∧
       (s.brick n).swapped = false) ∧
    (let s : State := w (fun v => { v with swapAt := some 0, plan := { one with swapWaitLimit := 1 } }) (upTick 1 (st .ready))
     let b : Nat := 63
     let v : Bay := s.bay b
     let a : Nat := 0
     s.awake = true ∧ v.swapAt = some a ∧ v.shadowReady = false ∧
       (v.state = BayState.empty ∨ v.state = BayState.ready ∨ v.state = BayState.stopped) ∧
       a + v.plan.swapWaitLimit ≤ s.tb.up) ∧
    (let s : State := sw3
     let n : Nat := 1
     let b : Nat := 63
     let v : Bay := s.bay b
     let p : GritPacket := pk sw3
     s.awake = true ∧ s.bayOf n = some b ∧ s.Arriving 7 n false p ∧ v.state = BayState.swapping ∧
       (s.brick n).swapped = true ∧ v.swappedBy.contains n = false ∧ v.swappedBy.length + 1 < s.brickCount b) ∧
    (let s : State := upTick 0 (fin id)
     let b : Nat := 63
     let v : Bay := s.bay b
     s.awake = true ∧ v.state = BayState.fenced ∧ v.swapAt ≠ none ∧ s.tb.up < v.fenceTick + v.plan.swapWaitLimit) ∧
    (let s : State := ld [] .ready
     let n : Nat := 0
     let b : Nat := 63
     let v : Bay := s.bay b
     let u : Nat := 65535
     s.awake = true ∧ s.bayOf n = some b ∧ u < 65536 ∧ v.loading ≠ none) ∧
    (let s : State := snd 4 0 0 (qs [] id)
     let n : Nat := 0
     let b : Nat := 63
     let v : Bay := s.bay b
     let p : GritPacket := gritOf 4 0 0 0 0 0 []
     s.awake = true ∧ s.bayOf n = some b ∧ s.Arriving 4 n false p ∧ v.state = BayState.draining ∧
       v.quietBy.contains n = false ∧ (s.brick n).quietSent = true ∧ v.quietBy.length + 1 < s.brickCount b) ∧
    (let s : State := snd 6 0 0 (st .ready)
     let n : Nat := 0
     let b : Nat := 63
     let v : Bay := s.bay b
     let p : GritPacket := gritOf 6 0 0 0 0 0 []
     s.awake = true ∧ s.bayOf n = some b ∧ s.Arriving 6 n true p ∧
       (v.state ≠ BayState.swapping ∨ (s.brick n).swapped = true)) ∧
    (let s : State := snd 7 0 0 (st .running)
     let n : Nat := 0
     let b : Nat := 63
     let v : Bay := s.bay b
     let p : GritPacket := gritOf 7 0 0 0 0 0 []
     s.awake = true ∧ s.bayOf n = some b ∧ s.Arriving 7 n false p ∧
       (v.state ≠ BayState.swapping ∨ (s.brick n).swapped = false ∨ v.swappedBy.contains n = true)) ∧
    (let s : State := snd 4 0 0 (st .running)
     let n : Nat := 0
     let b : Nat := 63
     let v : Bay := s.bay b
     let p : GritPacket := gritOf 4 0 0 0 0 0 []
     s.awake = true ∧ s.bayOf n = some b ∧ s.Arriving 4 n false p ∧
       (v.state ≠ BayState.draining ∨ v.quietBy.contains n = true ∨ (s.brick n).quietSent = false)) ∧
    (let s : State := ld [] .ready
     let n : Nat := 0
     let b : Nat := 63
     let corrected : Nat := 0
     let v : Bay := s.bay b
     let sent : State := (s.corrected memCorr corrected).sendLoaded b n
     let o : Nat := 9
     let p : GritPacket := pk ((ld [] .ready).sendLoaded 63 0)
     s.awake = true ∧ s.bayOf n = some b ∧ v.loading = some o ∧ v.loadedBy.contains n = false ∧
       sent.Arriving 5 n false p ∧ v.loadedBy.length + 1 < s.brickCount b) ∧
    (let s : State := w (fun v => { v with swapAt := some 0, plan := { one with swapWaitLimit := 2 } }) (upTick 1 (st .ready))
     let b : Nat := 63
     let v : Bay := s.bay b
     let a : Nat := 0
     s.awake = true ∧ v.swapAt = some a ∧ v.shadowReady = false ∧
       (v.state = BayState.empty ∨ v.state = BayState.ready ∨ v.state = BayState.stopped) ∧
       s.tb.up < a + v.plan.swapWaitLimit) := by
  refine ⟨?_, ?_, ?_, ?_, ?_, ?_, ?_, ?_, ?_, ?_, ?_, ?_, ?_, ?_, ?_, ?_, ?_⟩ <;> first
    | decide +kernel
    | (repeat' apply And.intro) <;> first
      | decide +kernel


theorem witness_BayPlanAndSiteFailure :
    (let s : State := st .stopped
     let b : Nat := 63
     let p : BayPlan := two
     let v : Bay := s.bay b
     s.mortarUp = true ∧ b < 64 ∧ planBad p = false ∧ (p.rects ≠ v.plan.rects ∨ p.base ≠ v.plan.base) ∧
       v.state ≠ BayState.empty ∧ (v.state = BayState.empty ∨ v.state = BayState.stopped) ∧ s.planCode b p = sOk ∧
       s.awake = true) ∧
    (let s : State := far
     let die : Nat := 3
     let row : Nat := 32
     let col : Nat := 31
     s.awake = true ∧ die < 4 ∧ row < 33 ∧ col < 32 ∧ s.rowOfSite die row col = none) ∧
    (let s : State := far
     let die : Nat := 3
     let row : Nat := 31
     let col : Nat := 31
     let r : Nat := 31
     let b : Nat := 63
     s.awake = true ∧ die < 4 ∧ row < 33 ∧ col < 32 ∧ s.rowOfSite die row col = some r ∧
       s.vacant (brickId die r col) = false ∧ s.bayOf (brickId die r col) = some b) ∧
    (let s : State := st .running
     let b : Nat := 63
     let p : BayPlan := two
     let v : Bay := s.bay b
     s.mortarUp = true ∧ b < 64 ∧ planBad p = false ∧ (p.rects ≠ v.plan.rects ∨ p.base ≠ v.plan.base) ∧
       v.state ≠ BayState.empty ∧ v.state ≠ BayState.stopped) ∧
    (let s : State := far
     let b : Nat := 63
     let p : BayPlan := { one with role := 99 }
     s.mortarUp = true ∧ b < 64 ∧ planBad p = true) ∧
    (let s : State := { st .stopped with bays := [(63, { plan := one, state := .stopped }), (1, { plan := { role := 1, rects := [⟨0, 2, 2, 1, 1⟩] } })] }
     let b : Nat := 63
     let p : BayPlan := { one with rects := [⟨0, 2, 2, 1, 1⟩] }
     let v : Bay := s.bay b
     s.mortarUp = true ∧ b < 64 ∧ planBad p = false ∧ (v.state = BayState.empty ∨ v.state = BayState.stopped) ∧
       (∃ c, c < 64 ∧ c ≠ b ∧ ∃ x, x ∈ p.rects ∧ ∃ y, y ∈ (s.bay c).plan.rects ∧ rectsOverlap x y = true)) := by
  refine ⟨?_, ?_, ?_, ?_, ?_, ?_⟩ <;> first
    | decide +kernel
    | (repeat' apply And.intro) <;> first
      | decide +kernel


end BaysW

/-! ### Witnesses: Programs -/

namespace ProgramsW

def nt : RewindPoint := { prog := 0, word := 0, stack := [], addr := 0, space := .column, fromBase := false, moved := 0, fmtWord := 0, count := 0, draws := [] }
def tl : OperandTile := { fmt := 0, codes := List.replicate 1024 0, groups := [], bases := [], row := 0, col := 0, placed := false, tag := 0, note := nt }
def loopW : Nat := op 2 (1 + 3 * 2 ^ 16 + 1 * 2 ^ 40)
def rawT : ResultTile := { raw := true, wide := false, values := List.range 1024, tag := 0, words := [0] }
def mv (p : Nat) (t : Nat) (wr : Nat) : Nat × Nat × Nat := pw p 0 (op 3 (t * 2 ^ 21 + wr * 2 ^ 20))
def bIf : BondInfo := { object := 9, digest := zeros 32, layoutDigest := [], fences := [(5, true)], seed := 0, streamFirst := 0 }
def se (f : Brick → Brick) (l : List (Nat × Nat × Nat)) : State := { bayS { plan := two, state := .running, active := some bIf } with bricks := [(0, f { plane0 := { state := .active, image := img l } }), (1, f { plane0 := { state := .active, image := img l } })] }
def inS : Nat × Nat × Nat := sw 2 (1 + 2 * 8) 0 3
def outS : Nat × Nat × Nat := sw 2 (3 + 2 * 8) 0 3
def two' (f : Brick → Brick) : State := { bayS { plan := two, state := .running } with bricks := [(0, f { plane0 := { state := .active, image := img [mode 1] } }), (1, f { plane0 := { state := .active, image := img [mode 1] } })] }

theorem witness_ControlWords :
    (let s : State := rn []
     let b : Nat := 63
     let n : Nat := 0
     let p : Nat := 0
     let k : Brick := s.brick n
     let g : Gen := k.gen p
     let m : Nat := 1
     s.AtWord b n p 0 ∧ s.engineBusy n p = false ∧ g.held = [] ∧ m ≠ n) ∧
    (let s : State := rn [pw 0 0 (op 7 0), pw 1 0 (op 7 0)]
     let b : Nat := 63
     let n : Nat := 0
     let p : Nat := 0
     let k : Brick := s.brick n
     let g : Gen := k.gen p
     let m : Nat := 1
     s.AtWord b n p 7 ∧ s.engineBusy n p = false ∧ g.held = [] ∧ m ≠ n) ∧
    (let m : Memory := img [pw 0 0 loopW]
     let p : Nat := 0
     let g : Gen := { word := 1, stack := [{ word := 0, remaining := 1, start := 0 }] }
     let fr : LoopFrame := { word := 0, remaining := 1, start := 0 }
     let rest : List LoopFrame := []
     g.stack = fr :: rest ∧ g.word + 1 = fr.word + loopBody (progWord m p fr.word) + 1 ∧ fr.remaining ≤ 1 ∧
       rest = []) ∧
    (let s : State := rn [pw 1 0 loopW]
     let b : Nat := 63
     let n : Nat := 0
     let p : Nat := 1
     s.AtWord b n p 2) ∧
    (let s : State := rn [pw 0 0 (op 1 0x1234)]
     let b : Nat := 63
     let n : Nat := 0
     let p : Nat := 0
     s.AtWord b n p 1) ∧
    (let s : State := kk (fun k => { k with working := true }) (rn [mode 3])
     let b : Nat := 63
     let n : Nat := 0
     let p : Nat := 0
     s.AtWord b n p 0 ∧ s.engineBusy n p = true) ∧
    (let s : State := kk (fun k => { k with working := true }) (rn [mode 3, pw 0 0 (op 7 0)])
     let b : Nat := 63
     let n : Nat := 0
     let p : Nat := 0
     s.AtWord b n p 7 ∧ s.engineBusy n p = true) ∧
    (let m : Memory := img [pw 0 0 loopW]
     let p : Nat := 0
     let g : Gen := { word := 1, stack := [{ word := 0, remaining := 2, start := 0 }] }
     let fr : LoopFrame := { word := 0, remaining := 2, start := 0 }
     let rest : List LoopFrame := []
     g.stack = fr :: rest ∧ g.word + 1 = fr.word + loopBody (progWord m p fr.word) + 1 ∧ 1 < fr.remaining) := by
  refine ⟨?_, ?_, ?_, ?_, ?_, ?_, ?_, ?_⟩ <;> first
    | decide +kernel
    | (repeat' apply And.intro) <;> first
      | decide +kernel
      | (simp only [State.AtWord, State.Running]; (repeat' apply And.intro) <;> decide +kernel)

theorem witness_MoveWordFeedsItsConsumer :
    (let s : State := kk (fun k => { k with results := [rawT] }) (gg 2 (fun g => { g with space := .hopper, addr := 1 }) (rn [mode 1, mv 2 18 1]))
     let b : Nat := 63
     let n : Nat := 0
     let p : Nat := 2
     let k : Brick := s.brick n
     let w : DWord := k.wordAt p
     let fw : FormatWord := formatWord k.conf (moveFormat w)
     let waits : Prop := (fw.amax && gatherHeld k fw.scaleReg) = true
     let r : ResultTile := rawT
     let rest : List ResultTile := []
     let x : Nat := 256
     s.AtWord b n p 3 ∧ moveWrite w = true ∧ moveTarget w = 18 ∧ (¬waits) ∧ k.results = r :: rest ∧ r.raw = true ∧
       functionOf k.conf ≠ 7 ∧ (k.gen p).space = Space.hopper ∧ x < List.length (State.rawBytes r)) ∧
    (let s : State := rn [mode 1, mv 0 16 0]
     let b : Nat := 63
     let n : Nat := 0
     let p : Nat := 0
     let k : Brick := s.brick n
     let w : DWord := k.wordAt p
     let fw : FormatWord := formatWord k.conf (moveFormat w)
     let waits : Prop := (fw.amax && gatherHeld k fw.scaleReg) = true
     s.AtWord b n p 3 ∧ moveWrite w = false ∧ State.consumerFull k p (moveFormat w) (moveTarget w) = false ∧
       (¬waits) ∧ 16 ≤ moveTarget w ∧ moveTarget w ≤ 18) ∧
    (let s : State := rn [mode 1, mv 2 3 1]
     let b : Nat := 63
     let n : Nat := 0
     let p : Nat := 2
     let k : Brick := s.brick n
     let w : DWord := k.wordAt p
     let fw : FormatWord := formatWord k.conf (moveFormat w)
     let waits : Prop := (fw.amax && gatherHeld k fw.scaleReg) = true
     s.AtWord b n p 3 ∧ moveWrite w = true ∧ moveTarget w < 16 ∧ (¬waits) ∧ s.slotReady n (moveTarget w) = false ∧
       functionOf k.conf ≠ 7) ∧
    (let s : State := rn [mode 2, mv 2 18 1]
     let b : Nat := 63
     let n : Nat := 0
     let p : Nat := 2
     let k : Brick := s.brick n
     let w : DWord := k.wordAt p
     s.AtWord b n p 3 ∧ moveWrite w = true ∧ moveTarget w = 18 ∧ k.results = [] ∧ functionOf k.conf ≠ 7) ∧
    (let s : State := kk (fun k => { k with acts := [tl] }) (rn [mode 1, mv 0 16 0])
     let b : Nat := 63
     let n : Nat := 0
     let p : Nat := 0
     let k : Brick := s.brick n
     let w : DWord := k.wordAt p
     s.AtWord b n p 3 ∧ moveWrite w = false ∧ State.consumerFull k p (moveFormat w) (moveTarget w) = true) ∧
    (let s : State := kk (fun k => { k with amaxSent := true }) (rn [mode (1 + 4096), mv 0 16 0, ew 0 (0x2A + 3 * 64), fw 0 (2 ^ 14)])
     let b : Nat := 63
     let n : Nat := 0
     let p : Nat := 0
     let k : Brick := s.brick n
     let w : DWord := k.wordAt p
     let fw : FormatWord := formatWord k.conf (moveFormat w)
     let waits : Prop := (fw.amax && gatherHeld k fw.scaleReg) = true
     s.AtWord b n p 3 ∧ waits) ∧
    (let s : State := kk (fun k => { k with results := [rawT] }) (gg 2 (fun g => { g with space := .hopper, addr := 1 }) (rn [mode 1, mv 2 18 1]))
     let b : Nat := 63
     let n : Nat := 0
     let p : Nat := 2
     let k : Brick := s.brick n
     let w : DWord := k.wordAt p
     let fw : FormatWord := formatWord k.conf (moveFormat w)
     let waits : Prop := (fw.amax && gatherHeld k fw.scaleReg) = true
     let r : ResultTile := rawT
     let rest : List ResultTile := []
     let a : Nat := s.moveByte b n p true (moveFormat w)
     let x : Nat := 12544
     s.AtWord b n p 3 ∧ moveWrite w = true ∧ moveTarget w = 18 ∧ (¬waits) ∧ k.results = r :: rest ∧ r.raw = true ∧
       functionOf k.conf ≠ 7 ∧ (k.gen p).space = Space.hopper ∧ (x < a ∨ a + List.length (State.rawBytes r) ≤ x)) := by
  refine ⟨?_, ?_, ?_, ?_, ?_, ?_, ?_⟩ <;> first
    | decide +kernel
    | (repeat' apply And.intro) <;> first
      | decide +kernel
      | (simp only [State.AtWord, State.Running]; (repeat' apply And.intro) <;> decide +kernel)

theorem witness_FencesAndQuiet :
    (let s : State := se id [mode (1 + 4096), pw 0 0 (op 4 5), ew 0 (0x2A + 3 * 64)]
     let b : Nat := 63
     let n : Nat := 0
     let v : Bay := s.bay b
     let k : Brick := s.brick n
     let id : Nat := fenceIdOf (k.wordAt 0)
     let asked : Prop := v.saveObj ≠ none ∨ v.swapAt ≠ none ∨ v.shutdown ≠ none
     s.AtWord b n 0 4 ∧ s.engineBusy n 0 = false ∧ (¬asked) ∧ State.stepEnds v id = true ∧
       State.sharedMask k.conf ≠ 0 ∧ k.amaxSent = false ∧ State.pathsEmpty k = true ∧ s.awake = true ∧
       s.bayOf n = some b ∧ ((s.bay b).state ≠ BayState.draining ∨ k.quietSent = true ∨ s.drainStopped n = false)) ∧
    (let s : State := gg 0 (fun g => { g with state := .held }) (w (fun v => { v with state := .draining }) (rn [pw 0 0 (op 4 5)]))
     let b : Nat := 63
     let n : Nat := 0
     let k : Brick := s.brick n
     let u : State := (s.setBrick n { State.rewindBrick k with rewound := k.rewound ++ State.rewoundBy k }).releaseHalves b n
     s.awake = true ∧ s.bayOf n = some b ∧ (s.bay b).state = BayState.draining ∧ k.quietSent = false ∧
       s.drainStopped n = true ∧ u.brickClear b n = true) ∧
    (let s : State := se (fun k => { k with amax := [(3, { amax := 0x40000000 })] }) [pw 0 0 (op 4 5)]
     let b : Nat := 63
     let n : Nat := 1
     let v : Bay := s.bay b
     let k : Brick := s.brick n
     let id : Nat := fenceIdOf (k.wordAt 0)
     let asked : Prop := v.saveObj ≠ none ∨ v.swapAt ≠ none ∨ v.shutdown ≠ none
     let r : Nat := 3
     s.AtWord b n 0 4 ∧ s.engineBusy n 0 = false ∧ (¬asked) ∧ State.stepEnds v id = true ∧
       State.sharedMask k.conf = 0 ∧ n ≠ s.anchor b ∧ r < 16) ∧
    (let s : State := w (fun v => { v with swapAt := some 0 }) (rn [pw 0 0 (op 4 5)])
     let b : Nat := 63
     let n : Nat := 0
     let v : Bay := s.bay b
     let asked : Prop := v.saveObj ≠ none ∨ v.swapAt ≠ none ∨ v.shutdown ≠ none
     s.AtWord b n 0 4 ∧ s.engineBusy n 0 = false ∧ asked ∧ s.firstAtFence b n = true) ∧
    (let s : State := rn [pw 0 0 (op 4 5)]
     let b : Nat := 63
     let n : Nat := 0
     let v : Bay := s.bay b
     let k : Brick := s.brick n
     let id : Nat := fenceIdOf (k.wordAt 0)
     let asked : Prop := v.saveObj ≠ none ∨ v.swapAt ≠ none ∨ v.shutdown ≠ none
     s.AtWord b n 0 4 ∧ s.engineBusy n 0 = false ∧ (¬asked) ∧ State.stepEnds v id = false) ∧
    (let s : State := State.sendGrit (gg 0 (fun g => { g with state := .held }) (w (fun v => { v with state := .draining }) (rn [pw 0 0 (op 4 5)]))) 0 (gritOf 2 5 0 0 0 0 [])
     let b : Nat := 63
     let n : Nat := 0
     let k : Brick := s.brick n
     let u : State := (s.setBrick n { State.rewindBrick k with rewound := k.rewound ++ State.rewoundBy k }).releaseHalves b n
     s.awake = true ∧ s.bayOf n = some b ∧ (s.bay b).state = BayState.draining ∧ k.quietSent = false ∧
       s.drainStopped n = true ∧ u.brickClear b n = false) := by
  refine ⟨?_, ?_, ?_, ?_, ?_, ?_⟩ <;> first
    | decide +kernel
    | (repeat' apply And.intro) <;> first
      | decide +kernel
      | (simp only [State.AtWord, State.Running]; (repeat' apply And.intro) <;> decide +kernel)

theorem witness_WaitAndPostWords :
    (let s : State := eps 2 (fun e => { e with bound := true, queue := [7, 8] }) (rn [inS, pw 1 0 (op 5 2)])
     let b : Nat := 63
     let n : Nat := 0
     let p : Nat := 1
     let k : Brick := s.brick n
     let g : Gen := k.gen p
     let i : Nat := streamOf (k.wordAt p)
     let w : StreamWord := streamWord k.conf i
     let h : Word := 7
     let m : Nat := 1
     s.AtWord b n p 5 ∧ w.swap = false ∧ s.engineBusy n p = false ∧ (∀ (x : Nat × Word), x ∈ g.held → x.fst ≠ i) ∧
       State.eligibleHandle k p i = some h ∧ m ≠ n) ∧
    (let s : State := eps 2 (fun e => { e with bound := true, out := true, free := [7, 8], bytes := 5 }) (rn [outS, pw 1 0 (op 6 2)])
     let b : Nat := 63
     let n : Nat := 0
     let p : Nat := 1
     let k : Brick := s.brick n
     let i : Nat := streamOf (k.wordAt p)
     let m : Nat := 1
     s.AtWord b n p 6 ∧ s.slotReady n i = true ∧ m ≠ n) ∧
    (let s : State := rn [outS, pw 1 0 (op 6 2)]
     let b : Nat := 63
     let n : Nat := 0
     let p : Nat := 1
     let k : Brick := s.brick n
     let i : Nat := streamOf (k.wordAt p)
     s.AtWord b n p 6 ∧ s.slotReady n i = false) ∧
    (let s : State := rn [inS, pw 1 0 (op 5 2)]
     let b : Nat := 63
     let n : Nat := 0
     let p : Nat := 1
     let k : Brick := s.brick n
     let g : Gen := k.gen p
     let i : Nat := streamOf (k.wordAt p)
     let w : StreamWord := streamWord k.conf i
     s.AtWord b n p 5 ∧ w.swap = false ∧ s.engineBusy n p = false ∧ (∀ (x : Nat × Word), x ∈ g.held → x.fst ≠ i) ∧
       State.eligibleHandle k p i = none) ∧
    (let s : State := rn [sw 2 (5 + 16) 0 3, pw 1 0 (op 5 2)]
     let b : Nat := 63
     let n : Nat := 0
     let p : Nat := 1
     let k : Brick := s.brick n
     let i : Nat := streamOf (k.wordAt p)
     let w : StreamWord := streamWord k.conf i
     s.AtWord b n p 5 ∧ (w.swap = true ∨ s.engineBusy n p = true)) ∧
    (let s : State := eps 2 (fun e => { e with bound := true, queue := [7, 8] }) (rn [inS, pw 1 0 (op 5 2)])
     let b : Nat := 63
     let n : Nat := 0
     let p : Nat := 1
     let k : Brick := s.brick n
     let g : Gen := k.gen p
     let i : Nat := streamOf (k.wordAt p)
     let w : StreamWord := streamWord k.conf i
     let ecc : Ecc := .clean
     let h : Word := 7
     s.AtWord b n p 5 ∧ w.swap = false ∧ s.engineBusy n p = false ∧ (∀ (x : Nat × Word), x ∈ g.held → x.fst ≠ i) ∧
       State.eligibleHandle k p i = some h ∧ ecc = Ecc.clean) ∧
    (let s : State := eps 2 (fun e => { e with bound := true, out := true, free := [7, 8], bytes := 5 }) (rn [outS, pw 1 0 (op 6 2)])
     let b : Nat := 63
     let n : Nat := 0
     let p : Nat := 1
     let k : Brick := s.brick n
     let i : Nat := streamOf (k.wordAt p)
     let w : StreamWord := streamWord k.conf i
     let r : RouteWord := routeWord k.conf w.route
     s.AtWord b n p 6 ∧ s.slotReady n i = true ∧
       (r.network ≠ 2 ∨ s.heldData n (s.streamDest b n i) r.destStream = false)) := by
  refine ⟨?_, ?_, ?_, ?_, ?_, ?_, ?_⟩ <;> first
    | decide +kernel
    | (repeat' apply And.intro) <;> first
      | decide +kernel
      | (simp only [State.AtWord, State.Running]; (repeat' apply And.intro) <;> decide +kernel)

end ProgramsW

/-! ### Witnesses: Array passes and drains -/

namespace PassesW

def nt : RewindPoint := { prog := 0, word := 0, stack := [], addr := 0, space := .column, fromBase := false, moved := 0, fmtWord := 0, count := 0, draws := [] }
def tl : OperandTile := { fmt := 0, codes := List.replicate 1024 0, groups := [], bases := [], row := 0, col := 0, placed := false, tag := 0, note := nt }
def two' (f : Brick → Brick) (l : List (Nat × Nat × Nat)) : State := { bayS { plan := two, state := .running } with bricks := [(0, f { plane0 := { state := .active, image := img l } }), (1, f { plane0 := { state := .active, image := img l } })] }
def shl : List (Nat × Nat × Nat) := [mode (1 + 1 * 4096), ew 0 (0x2A + 3 * 64)]
def rt : ResultTile := { raw := false, wide := false, values := [], tag := 0, words := [] }
def s1 : State := two' (fun k => { k with amaxSent := true, amax := [(0, { amax := 0x40000000 })] }) shl
def am8 (n : Nat) : GritPacket := gritOf 8 0 n 0 0 3 ((List.replicate 16 0x40400000).flatMap (leBytes 4))
def am9 (n : Nat) : GritPacket := gritOf 9 n 0 0 0 3 ((List.replicate 16 0x40400000).flatMap (leBytes 4))
def g8 (n : Nat) (s : State) : State := s.sendGrit reqFunction (am8 n)
def g9 (n : Nat) (s : State) : State := s.sendGrit reqFunction (am9 n)
def acc (p : Nat) : Nat × Nat × Nat := ew 0 (1 + (p - 1) * 64)
def am (p : Nat) (m : Nat) (k : Brick → Brick) : State := kk k (rn [mode (m + 4096), acc p])

theorem witness_AmaxExchangeEpochAndWeightSlots :
    (let s : State := g9 1 s1
     let b : Nat := 63
     let n : Nat := 1
     let p : GritPacket := am9 1
     let k : Brick := s.brick n
     let m : Nat := 0
     s.Running b n ∧ s.Arriving 9 n true p ∧ k.amaxSent = true ∧ (k.gen 0).state ≠ GenState.held ∧
       n ≠ s.anchor b ∧ m ≠ n ∧ s.awake = true ∧ (∀ (m : GritMsg), m ∈ s.net.grit → m.p.kind ≠ 8 ∨ m.p.source ≠ n)) ∧
    (let s : State := g8 0 s1
     let agent : Nat := 3
     let b : Nat := 63
     s.coreUp agent = true ∧ b < 64 ∧ aget none s.pairHold (agent * 2 ^ 40 + (randBase b + 8)) = none) ∧
    (let s : State := g8 0 s1
     let b : Nat := 63
     let n : Nat := 0
     let p : GritPacket := am8 0
     let v : Bay := s.bay b
     let ps : List (Nat × Nat × List Word) := v.amaxIn ++ [(p.source, BitVec.toNat p.arg, State.amaxValues p)]
     s.Running b n ∧ s.Arriving 8 n false p ∧ ps.length < (s.sharers b).length ∧ s.awake = true ∧
       (∀ (m : GritMsg), m ∈ s.net.grit → m.p.kind ≠ 9 ∨ m.p.dest ≠ n)) ∧
    (let s : State := g9 0 (two' id shl)
     let b : Nat := 63
     let n : Nat := 0
     let p : GritPacket := am9 0
     let k : Brick := s.brick n
     s.Running b n ∧ s.Arriving 9 n true p ∧ (k.amaxSent = false ∨ (k.gen 0).state = GenState.held)) ∧
    (let s : State := g8 1 (run (g8 0 s1) [.amaxPacket 0])
     let b : Nat := 63
     let n : Nat := 1
     let p : GritPacket := am8 1
     let v : Bay := s.bay b
     let ps : List (Nat × Nat × List Word) := v.amaxIn ++ [(p.source, BitVec.toNat p.arg, State.amaxValues p)]
     s.Running b n ∧ s.Arriving 8 n false p ∧ (s.sharers b).length ≤ ps.length) := by
  refine ⟨?_, ?_, ?_, ?_, ?_⟩ <;> first
    | decide +kernel
    | (repeat' apply And.intro) <;> first
      | decide +kernel
      | (simp only [State.Running]; (repeat' apply And.intro) <;> decide +kernel)

theorem witness_PassesDrainsAndPrimaryTiles :
    (let s : State := rn [mode (1 + 4096), ew 0 (1 + 1 * 2^22 + 2 * 2^24), sw 2 17 0 3]
     let b : Nat := 63
     let n : Nat := 0
     let k : Brick := s.brick n
     let m : Memory := k.conf
     let w : Word := epi m 0
     s.Running b n ∧ State.passReady k = false ∧ functionOf m = 1 ∧ epiOp w = 1 ∧ accJoin w = 1 ∧ k.passes = 0 ∧
       k.chainLoaded = false ∧ (k.fill.state = BankState.clear ∨ k.fill.state = BankState.filling) ∧
       (s.nextTile b n (accLink w) (State.partialSize m)).isSome = false ∧
       (functionOf m ≠ 1 ∨ k.drain.state ≠ BankState.dirty) ∧ functionOf m ≠ 2 ∧ functionOf m ≠ 5) ∧
    (let s : State := am 2 1 (fun k => { k with acts := [tl], weights := [tl] })
     let b : Nat := 63
     let n : Nat := 0
     let k : Brick := s.brick n
     let m : Memory := k.conf
     let w : Word := epi m 0
     s.Running b n ∧ State.passReady k = true ∧ k.passes + 1 < accPasses w ∧ reductionOf m = 0 ∧
       functionOf m = 1 ∧ epiOp w = 1 ∧ accJoin w = 0) ∧
    (let s : State := kk (fun k => { k with prim := [tl], results := List.replicate 3 rt }) (rn [mode 2])
     let b : Nat := 63
     let n : Nat := 0
     let k : Brick := s.brick n
     let m : Memory := k.conf
     let free : Prop := k.laneWords = none ∧ State.sideReady k = true ∧ chainOrder m = [] ∧ k.results.length < 4
     let x : OperandTile := tl
     let rest : List OperandTile := []
     s.Running b n ∧ functionOf m ≠ 1 ∧ (functionOf m = 2 ∨ functionOf m = 5) ∧ k.prim = x :: rest ∧ free) ∧
    (let s : State := kk (fun k => { k with bank1 := { state := .full, entries := [(0, 5)] }, results := List.replicate 3 rt }) (rn [mode (1 + 4096), ew 0 (1 + 2 ^ 31)])
     let b : Nat := 63
     let n : Nat := 0
     let k : Brick := s.brick n
     let m : Memory := k.conf
     let free : Prop := k.laneWords = none ∧ State.sideReady k = true ∧ chainOrder m = [] ∧ k.results.length < 4
     s.Running b n ∧ functionOf m = 1 ∧ accRaw (epi m 0) = true ∧ k.drain.state = BankState.full ∧
       (accRaw (epi m 0) = true ∧ k.results.length < 4 ∨ accRaw (epi m 0) = false ∧ free)) ∧
    (let s : State := am 1 1 (fun k => { k with bank1 := { state := .dirty, entries := [(0, 5)] } })
     let b : Nat := 63
     let n : Nat := 0
     let k : Brick := s.brick n
     let m : Memory := k.conf
     s.Running b n ∧ functionOf m = 1 ∧ k.drain.state = BankState.dirty ∧ k.fill.state ≠ BankState.full) ∧
    (let s : State := rn [mode 2]
     let b : Nat := 63
     let n : Nat := 0
     let k : Brick := s.brick n
     let m : Memory := k.conf
     let w : Word := epi m 0
     s.Running b n ∧ (functionOf m ≠ 1 ∨ epiOp w ≠ 1)) ∧
    (let s : State := rn [mode (1 + 4096), ew 0 (1 + 2 ^ 31)]
     let b : Nat := 63
     let n : Nat := 0
     let k : Brick := s.brick n
     let m : Memory := k.conf
     s.Running b n ∧ functionOf m = 1 ∧ accRaw (epi m 0) = true ∧
       (k.drain.state ≠ BankState.full ∨ 4 ≤ k.results.length)) ∧
    (let s : State := am 2 1 (fun k => { k with acts := [tl], weights := [tl] })
     let b : Nat := 63
     let n : Nat := 0
     let k : Brick := s.brick n
     let x : Nat := 1
     s.Running b n ∧ State.passReady k = true ∧ x ≠ n) ∧
    (let s : State := eps 2 (fun e => { e with bound := true, queue := [7], arrived := [(7, 1)] }) (rn [mode (1 + 4096), ew 0 (1 + 1 * 2^22 + 2 * 2^24), sw 2 17 0 63])
     let b : Nat := 63
     let n : Nat := 0
     let k : Brick := s.brick n
     let m : Memory := k.conf
     let w : Word := epi m 0
     s.Running b n ∧ functionOf m = 1 ∧ epiOp w = 1 ∧ accJoin w = 1 ∧ k.passes = 0 ∧ k.chainLoaded = false ∧
       (k.fill.state = BankState.clear ∨ k.fill.state = BankState.filling) ∧
       (s.nextTile b n (accLink w) (State.partialSize m)).isSome = true) := by
  refine ⟨?_, ?_, ?_, ?_, ?_, ?_, ?_, ?_, ?_⟩ <;> first
    | decide +kernel
    | (repeat' apply And.intro) <;> first
      | decide +kernel
      | (simp only [State.Running]; (repeat' apply And.intro) <;> decide +kernel)

end PassesW

/-! ### Witnesses: Lane words -/

namespace LanesW

def nt : RewindPoint := { prog := 0, word := 0, stack := [], addr := 0, space := .column, fromBase := false, moved := 0, fmtWord := 0, count := 0, draws := [] }
def tl : OperandTile := { fmt := 0, codes := List.replicate 1024 0, groups := [], bases := [], row := 0, col := 0, placed := false, tag := 0, note := nt }
def la (o m src : Nat) (rest : List Nat) : State := kk (fun k => { k with lanes := [0x3F80, 0xBF80, 0, 0x8000, 0x7F80, 0x7FC1, 0x4049], laneWords := some (0 :: rest), laneSide := some { tl with codes := [0x4000, 0x3F80, 0x8000, 0, 0xFF80, 0, 0x3F00] } }) (rn [mode (m + 2 * 4096), ew 0 (o + 0x20000 + src * 64)])
def rt : ResultTile := { raw := false, wide := false, values := [], tag := 0, words := [] }
def full3 (s : State) : State := kk (fun k => { k with results := List.replicate 3 rt }) s

theorem witness_LaneWordsActOnEveryElement :
    (let x : (Nat → Nat → Instr) × Nat × (Nat → Rnd → Word → Nat → Nat → Rounded) := (Instr.addOp, 2, fun p rnd x v a => addOf p rnd (decodeFmt p v) (decodeFmt p a))
     let s : State := full3 (la 2 2 0 [])
     let b : Nat := 63
     let n : Nat := 0
     let k : Nat := 0
     let rest : List Nat := []
     let y : Nat := 1
     s.LaneAt b n k x.snd.fst rest ∧ rest = [] ∧ (s.brick n).results.length < 4 ∧ y ≠ n) ∧
    (let p : Nat := 0
     let x : FVal := .shortNan
     let y : FVal := .fin 1
     (p = 0 ∨ p = 1) ∧ x.isNan = true ∧ (x.isNan = true ∨ y.isNan = true)) ∧
    (let p : Nat := 0
     let q : Rat := -1
     (p = 0 ∨ p = 1) ∧ q < 0) ∧
    (let x : (Nat → Nat → Instr) × Nat × (Nat → Rnd → Word → Nat → Nat → Rounded) := (Instr.maxOp, 4, fun p x x_1 v a => pickOf p true v a)
     let s : State := la 4 2 0 [1]
     let b : Nat := 63
     let n : Nat := 0
     let k : Nat := 0
     let rest : List Nat := [1]
     s.LaneAt b n k x.snd.fst rest ∧ rest ≠ []) := by
  refine ⟨?_, ?_, ?_, ?_⟩ <;> first
    | decide +kernel
    | (repeat' apply And.intro) <;> first
      | decide +kernel
      | (simp only [State.LaneAt, State.Running]; (repeat' apply And.intro) <;> decide +kernel)

end LanesW

/-! ### Witnesses: Draws, networks and handles -/

namespace NetworkW

def nt : RewindPoint := { prog := 0, word := 0, stack := [], addr := 0, space := .column, fromBase := false, moved := 0, fmtWord := 0, count := 0, draws := [] }
def tl : OperandTile := { fmt := 0, codes := List.replicate 1024 0, groups := [], bases := [], row := 0, col := 0, placed := false, tag := 0, note := nt }
def la2 (m v v2 : Nat) (extra : List (Nat × Nat × Nat)) : State := kk (fun k => { k with lanes := [0x3F80, 0xBF80, 0, 0x8000, 0x7F80, 0x7FC1, 0x4049], laneWords := some [0, 1] }) (rn ([mode (m + 2 * 4096), ew 0 v, ew 1 v2] ++ extra))
def fl (path : List (Nat × Nat)) (o : Option (Nat × Nat)) : LineFlit := { src := 0, srcStream := 1, dest := 3, destStream := 2, handle := 7, offset := 0, data := [1, 2], path := path, occupies := o }
def fd (path : List (Nat × Nat)) (o : Option (Nat × Nat)) : LineFlit := { fl path o with dest := 0 }
def net (n : Net) : State := { rn [] with net := n }
def gp (k : Nat) (post : Bool) (d : Nat) : GritPacket := { kind := k, fence := false, post := post, dest := d, source := 1, stream := 2, length := 64, handle := 7, arg := 3, body := zeros 64 }
def gs (p : GritPacket) : State := (rn []).sendGrit reqFunction p
def icfg : Word := BitVec.ofNat 32 (2 * 2 ^ 22 + 63 * 16)
def p3 : GritPacket := { gp 3 false 4097 with stream := 15, source := 0, handle := 7 }
def rin : State := { rn [sw 2 (1 + 2 * 8 + 2 ^ 21) 0 63, pw 2 0 (op 3 (18 * 2 ^ 21 + 2 ^ 20))] with relays := [(31, { count := 5, start := 1, cfg := icfg, state := 1, peer := 77, xfer := 6, next := 1, tokens := 2, slotTiles := [(0, 2), (7, 2)] })] }
def ms3 : List GritMsg := [(⟨gp 1 false 0, 3, [], none, false⟩ : GritMsg), ⟨gp 2 false 0, 1, [], none, false⟩]
def msF : List GritMsg := ms3 ++ [(⟨{ gp 7 false 0 with fence := true }, 5, [], none, false⟩ : GritMsg), ⟨{ gp 6 false 0 with fence := true }, 5, [], none, false⟩]
def hs (posts : List PendingPost) (arr : Assoc Nat) (v : Nat) : State := eps 2 (fun e => { e with bound := true, posts := posts, arrived := arr }) (rn [sw 2 (1 + 2 * 8 + v) 0 3])
def po (h : Word) : PendingPost := { handle := BitVec.ofNat 32 (63 * 2 ^ 26) + h, flits := 2, source := 0, srcStream := 0 }

theorem witness_DrawsConversionsAndGathers :
    (let s : State := la2 2 (0x38 + 3 * 64) 5 []
     let b : Nat := 63
     let n : Nat := 0
     let k : Nat := 0
     let j : Nat := 1
     let rest : List Nat := []
     let kb : Brick := s.brick n
     let m : Memory := kb.conf
     let i : Nat := 31
     s.LaneAt b n k 56 (j :: rest) ∧ aget 0 kb.sortRow k = 0 ∧
       aget 0 kb.sortTile k + 1 ≠ sortTiles (epi m (k + 1)) ∧ i < 32) ∧
    (let s : State := kk (fun k => { k with drains := 2 }) (la2 2 (0x28 + 2 * 256 + 3 * 4096) 0 [])
     let b : Nat := 63
     let n : Nat := 0
     let k : Nat := 0
     let j : Nat := 1
     let rest : List Nat := []
     let kb : Brick := s.brick n
     let m : Memory := kb.conf
     let w : Word := epi m k
     let i : Nat := 31
     s.LaneAt b n k 40 (j :: rest) ∧ kb.drains % rowBanks w ≠ 0 ∧ i < 32 ∧
       (kb.drains + rowBanks w - 1) % rowBanks w ≠ 0) ∧
    (let s : State := la2 2 0x20 0 []
     let b : Nat := 63
     let n : Nat := 0
     let k : Nat := 0
     let j : Nat := 1
     let rest : List Nat := []
     let m : Memory := (s.brick n).conf
     let w : Word := epi m k
     let y : Nat := 1
     s.LaneAt b n k 32 (j :: rest) ∧ randKind w ≠ 1 ∧ y ≠ n) ∧
    (let s : State := la2 2 (0x30 + 1 * 64) 0 []
     let b : Nat := 63
     let n : Nat := 0
     let k : Nat := 0
     let j : Nat := 1
     let rest : List Nat := []
     let m : Memory := (s.brick n).conf
     let w : Word := epi m k
     let y : Nat := 1
     s.LaneAt b n k 48 (j :: rest) ∧ cvtRnd w ≠ 5 ∧ y ≠ n) ∧
    (let s : State := la2 2 (0x29 + 2 * 64) 0 []
     let b : Nat := 63
     let n : Nat := 0
     let k : Nat := 0
     let j : Nat := 1
     let rest : List Nat := []
     let kb : Brick := s.brick n
     let m : Memory := kb.conf
     let w : Word := epi m k
     let r : Nat := 0
     s.LaneAt b n k 41 (j :: rest) ∧ gatherHeld kb (amaxReg w) = false ∧ r ≠ amaxReg w) ∧
    (let s : State := la2 2 (0x31 + 2 * 64) 0 []
     let b : Nat := 63
     let n : Nat := 0
     let k : Nat := 0
     let j : Nat := 1
     let rest : List Nat := []
     let kb : Brick := s.brick n
     let m : Memory := kb.conf
     let w : Word := epi m k
     s.LaneAt b n k 49 (j :: rest) ∧ s.slotReady n (flagsStream w) = false) ∧
    (let s : State := la2 2 (0x28 + 2 * 256) 0 []
     let b : Nat := 63
     let n : Nat := 0
     let k : Nat := 0
     let j : Nat := 1
     let rest : List Nat := []
     let kb : Brick := s.brick n
     let m : Memory := kb.conf
     let w : Word := epi m k
     s.LaneAt b n k 40 (j :: rest) ∧ kb.drains % rowBanks w = 0 ∧ s.slotReady n (rowStream w) = false) ∧
    (let s : State := la2 2 (0x2A + 4 * 64) 0 []
     let b : Nat := 63
     let n : Nat := 0
     let k : Nat := 0
     let j : Nat := 1
     let rest : List Nat := []
     s.LaneAt b n k 42 (j :: rest)) ∧
    (let s : State := la2 2 (0x38 + 3 * 64) 5 []
     let b : Nat := 63
     let n : Nat := 0
     let k : Nat := 0
     let j : Nat := 1
     let rest : List Nat := []
     let kb : Brick := s.brick n
     let m : Memory := kb.conf
     let ecc : Ecc := .clean
     s.LaneAt b n k 56 (j :: rest) ∧ aget 0 kb.sortRow k = 0 ∧
       aget 0 kb.sortTile k + 1 ≠ sortTiles (epi m (k + 1)) ∧ ecc = Ecc.clean) ∧
    (let s : State := kk (fun k => { k with amaxSent := true }) (la2 2 (0x29 + 2 * 64) (0x2A + 4 * 64) [])
     let b : Nat := 63
     let n : Nat := 0
     let k : Nat := 0
     let j : Nat := 1
     let rest : List Nat := []
     let kb : Brick := s.brick n
     let m : Memory := kb.conf
     let w : Word := epi m k
     s.LaneAt b n k 41 (j :: rest) ∧ gatherHeld kb (amaxReg w) = true) ∧
    (let s : State := la2 2 (0x38 + 3 * 64) 5 []
     let b : Nat := 63
     let n : Nat := 0
     let k : Nat := 0
     let j : Nat := 1
     let rest : List Nat := []
     let kb : Brick := s.brick n
     let m : Memory := kb.conf
     let w : Word := epi m k
     let pairs : List Byte := List.flatMap (sortBytes (sortK w)) (State.sortTaken kb k)
     let x : Nat := 768
     s.LaneAt b n k 56 (j :: rest) ∧ aget 0 kb.sortRow k = 0 ∧
       aget 0 kb.sortTile k + 1 ≠ sortTiles (epi m (k + 1)) ∧ x < pairs.length) ∧
    (let s : State := la2 2 (0x38 + 3 * 64) 5 []
     let b : Nat := 63
     let n : Nat := 0
     let k : Nat := 0
     let j : Nat := 1
     let rest : List Nat := []
     let kb : Brick := s.brick n
     let m : Memory := kb.conf
     let w : Word := epi m k
     let at_ : Nat := sortAt m k 0
     let pairs : List Byte := List.flatMap (sortBytes (sortK w)) (State.sortTaken kb k)
     let x : Nat := 9000
     s.LaneAt b n k 56 (j :: rest) ∧ aget 0 kb.sortRow k = 0 ∧
       aget 0 kb.sortTile k + 1 ≠ sortTiles (epi m (k + 1)) ∧ (x < at_ ∨ at_ + pairs.length ≤ x)) ∧
    (let s : State := eps 2 (fun e => { e with bound := true, out := true, free := [7, 8], bytes := 5 }) (la2 2 (0x31 + 2 * 64) 0 [sw 2 (3 + 16) 0 3])
     let b : Nat := 63
     let n : Nat := 0
     let k : Nat := 0
     let j : Nat := 1
     let rest : List Nat := []
     let kb : Brick := s.brick n
     let m : Memory := kb.conf
     let w : Word := epi m k
     s.LaneAt b n k 49 (j :: rest) ∧ s.slotReady n (flagsStream w) = true) := by
  refine ⟨?_, ?_, ?_, ?_, ?_, ?_, ?_, ?_, ?_, ?_, ?_, ?_, ?_⟩ <;> first
    | decide +kernel
    | (repeat' apply And.intro) <;> first
      | decide +kernel
      | (simp only [State.LaneAt, State.Running]; (repeat' apply And.intro) <;> decide +kernel)

theorem witness_FlitsPassUnderCredits :
    (let s : State := net { flits := [fd [(0, 0)] none] }
     let link : Nat := 0
     let cands : List FlitCand := [{ requester := 4, brick := 0, stream := 1 }]
     let c : FlitCand := { requester := 4, brick := 0, stream := 1 }
     let f : LineFlit := fd [(0, 0)] none
     let vc : Nat := 0
     let b : Nat := 63
     s.awake = true ∧ cands = [c] ∧ (4 ≤ link % 8 ∨ c.requester < 8) ∧ s.waitingFlit link c = some f ∧
       f.path.head? = some (link, vc) ∧ s.spentCredits link vc < linkCredits link ∧ f.path = [(link, vc)] ∧
       s.bayOf f.dest = some b ∧ (∀ (c : CreditOut), c ∈ s.net.credits → c.link = link → c.vc ≠ vc)) ∧
    (let s : State := net { flits := [fl [(0, 0), (8, 0)] none], credits := List.replicate 3 { link := 0, vc := 0, src := 0 } }
     let link : Nat := 0
     let cands : List FlitCand := [{ requester := 4, brick := 0, stream := 1 }]
     let c : FlitCand := { requester := 4, brick := 0, stream := 1 }
     let f : LineFlit := fl [(0, 0), (8, 0)] none
     let vc : Nat := 0
     s.awake = true ∧ cands = [c] ∧ (4 ≤ link % 8 ∨ c.requester < 8) ∧ s.waitingFlit link c = some f ∧
       f.path.head? = some (link, vc) ∧ s.spentCredits link vc < linkCredits link ∧ 2 ≤ f.path.length ∧
       (∃ c, c ∈ s.net.credits ∧ c.link = link ∧ c.vc = vc)) ∧
    (let s : State := net { flits := [fd [(0, 0)] none] }
     let link : Nat := 3
     let cands : List FlitCand := [{ requester := 7, brick := 0, stream := 1 }]
     let c : FlitCand := { requester := 7, brick := 0, stream := 1 }
     s.awake = true ∧ cands = [c] ∧ (4 ≤ link % 8 ∨ c.requester < 8) ∧
       (∀ (c : FlitCand), c ∈ cands → s.eligible link c = false) ∧ link % 8 < 4) ∧
    (let s : State := net {}
     let n : Nat := 16
     let bad : Bool := true
     s.awake = true ∧ 16 ≤ n ∧ bad = true) ∧
    (let s : State := net { flits := [fl [(0, 0), (8, 0)] none], arb := [(0, 4)] }
     let link : Nat := 0
     let cands : List FlitCand := [{ requester := 4, brick := 0, stream := 1 }]
     let c : FlitCand := { requester := 4, brick := 0, stream := 1 }
     link % 8 < 4 ∧ aget 0 s.net.arb link < 8 ∧ c ∈ cands ∧ s.eligible link c = true ∧
       c.requester = aget 0 s.net.arb link ∧ (∀ (d : FlitCand), d ∈ cands → d.requester = c.requester → d = c)) ∧
    (let s : State := net { flits := [fl [(3, 0), (8, 0)] none], arb := [(3, 7)] }
     let link : Nat := 3
     let cands : List FlitCand := [{ requester := 4, brick := 0, stream := 1 }]
     let c : FlitCand := { requester := 4, brick := 0, stream := 1 }
     link % 8 < 4 ∧ aget 0 s.net.arb link < 8 ∧ c ∈ cands ∧ s.eligible link c = true) ∧
    (let s : State := net {}
     let n : Nat := 15
     let bad : Bool := true
     s.awake = true ∧ (n < 16 ∨ bad = false)) ∧
    (let s : State := net { flits := [fl [(0, 0), (8, 0)] none], arb := [(0, 7)] }
     let link : Nat := 0
     link % 8 < 4 ∧ aget 0 s.net.arb link < 8) ∧
    (let s : State := net { flits := [fl [(0, 0), (8, 0)] none], credits := List.replicate 4 { link := 0, vc := 0, src := 0 } }
     let link : Nat := 0
     let cands : List FlitCand := [{ requester := 4, brick := 0, stream := 1 }]
     let c : FlitCand := { requester := 4, brick := 0, stream := 1 }
     let f : LineFlit := fl [(0, 0), (8, 0)] none
     let vc : Nat := 0
     s.awake = true ∧ cands = [c] ∧ (4 ≤ link % 8 ∨ c.requester < 8) ∧ s.waitingFlit link c = some f ∧
       f.path.head? = some (link, vc) ∧ linkCredits link ≤ s.spentCredits link vc) := by
  refine ⟨?_, ?_, ?_, ?_, ?_, ?_, ?_, ?_, ?_⟩ <;> first
    | decide +kernel
    | (repeat' apply And.intro) <;> first
      | decide +kernel


theorem witness_GritPackets :
    (let s : State := rin.sendGrit reqFunction p3
     let p : GritPacket := p3
     let c : Nat := (p.dest - 4096) * 16 + p.stream
     let r : Relay := s.relay c
     let n : Nat := aget 0 r.slotTiles (slotOf (streamWord (s.brick (s.relayBrick r)).conf (relayStream r).snd.snd) p.handle)
     s.awake = true ∧ gritMalformed p = false ∧ (p.kind ≠ 1 ∨ s.gritDue p = false) ∧
       (p.kind ≠ 2 ∨ s.gritDue p = false) ∧ p.kind = 3 ∧ s.gritDue p = true ∧ 4096 ≤ p.dest ∧ r.state = 1 ∧ n ≠ 0 ∧
       s.ingressOf (relayStream r).fst (relayStream r).snd.fst (relayStream r).snd.snd = some c) ∧
    (let s : State := gs (gp 1 false 0)
     let p : GritPacket := gp 1 false 0
     s.awake = true ∧ gritMalformed p = false ∧ p.kind = 1 ∧ s.gritDue p = true ∧ p.post = false ∧
       s.bayOf p.dest ≠ none ∧ (p.kind ≠ 3 ∨ s.gritDue p = false)) ∧
    (let s : State := rn []
     let p : GritPacket := gp 0 false 0
     s.awake = true ∧ gritMalformed p = true) ∧
    (let s : State := gs (gp 2 false 0)
     let p : GritPacket := gp 2 false 0
     s.awake = true ∧ gritMalformed p = false ∧ p.kind = 2 ∧ s.gritDue p = true) ∧
    (let s : State := gs (gp 3 false 4095)
     let p : GritPacket := gp 3 false 4095
     s.awake = true ∧ gritMalformed p = false ∧ p.kind = 3 ∧ s.gritDue p = true ∧ p.dest < 4096) := by
  refine ⟨?_, ?_, ?_, ?_, ?_⟩ <;> first
    | decide +kernel
    | (repeat' apply And.intro) <;> first
      | decide +kernel


theorem witness_GritOrderAndCredits :
    (let n : Nat := 2
     let net : Net := {}
     let next : Net := gritMove { grit := [⟨gp 2 false 0, 4, [8, 9], none, false⟩] } ⟨gp 2 false 0, 4, [8, 9], none, false⟩
     let m : GritMsg := ⟨gp 2 false 0, 4, [8, 9], none, false⟩
     m.path ≠ [] ∧ m.place = none ∧ m.p.fence = false ∧
       ((fun net => ∀ (x : GritMsg), x ∈ net.grit → ∀ (l : Nat), l ∈ x.place.toList → (gritBuffer net.grit l x.p.fence).length ≤ gritCredits) net) ∧
       gritPush n net m = some next) ∧
    (let ptr : Nat := 0
     let ms : List GritMsg := ms3
     let m : GritMsg := ⟨gp 2 false 0, 1, [], none, false⟩
     (∀ (x : GritMsg), x ∈ ms → x.p.fence = true → 4 ≤ x.p.kind ∧ x.p.kind ≤ 9) ∧ injectNext ptr ms = some m ∧
       m.p.fence = false ∧ (∃ x, x ∈ ms ∧ (x.p.fence = true ∨ x.requester < 5))) ∧
    (let s : State := gs (gp 2 false 0)
     ((fun net => ∀ (x : GritMsg), x ∈ net.grit → ∀ (l : Nat), l ∈ x.place.toList → (gritBuffer net.grit l x.p.fence).length ≤ gritCredits) s.net)) := by
  refine ⟨?_, ?_, ?_⟩ <;> first
    | decide +kernel
    | (repeat' apply And.intro) <;> first
      | decide +kernel


theorem witness_HandlesJoinAndExchange :
    (let s : State := hs [po 1] [(0, 2)] 0
     let b : Nat := 63
     let n : Nat := 0
     let i : Nat := 2
     let k : Brick := s.brick n
     let e : Endpoint := k.stream i
     let w : StreamWord := streamWord k.conf i
     let p : PendingPost := po 1
     let rest : List PendingPost := []
     s.awake = true ∧ s.bayOf n = some b ∧ e.posts = p :: rest ∧ p.flits ≤ aget 0 e.arrived (slotOf w p.handle) ∧
       State.handleExpected b w e p.handle = true ∧ w.swap = false ∧ s.Running b n ∧
       (e.swapPosted = none ∨ s.waiterOn n i = none)) ∧
    (let s : State := gg 0 (fun g => { g with state := .waiting }) (eps 2 (fun e => { e with bound := true, swapPosted := some 9 }) ({ rn [sw 2 5 0 3, pw 0 0 (op 5 2)] with bays := [(63, {plan := { two with rects := [⟨0, 0, 1, 1, 1⟩, ⟨0, 0, 0, 1, 1⟩] }, state := .running})] }))
     let b : Nat := 63
     let n : Nat := 0
     let i : Nat := 2
     let k : Brick := s.brick n
     let e : Endpoint := k.stream i
     let h : Word := 9
     let p : Nat := 0
     s.Running b n ∧ e.swapPosted = some h ∧ s.waiterOn n i = some p ∧ State.tagFits k p i h = true ∧
       (s.swapProducer b n i).fst ≠ n) ∧
    (let s : State := hs [] [] 4
     let b : Nat := 63
     let n : Nat := 0
     let i : Nat := 2
     let k : Brick := s.brick n
     let e : Endpoint := k.stream i
     let w : StreamWord := streamWord k.conf i
     s.awake = true ∧ s.bayOf n = some b ∧
       (∀ (p : PendingPost), p ∈ e.posts → aget 0 e.arrived (slotOf w p.handle) < p.flits)) ∧
    (let s : State := hs [po 2] [(0, 2)] 0
     let b : Nat := 63
     let n : Nat := 0
     let i : Nat := 2
     let k : Brick := s.brick n
     let e : Endpoint := k.stream i
     let w : StreamWord := streamWord k.conf i
     let p : PendingPost := po 2
     let rest : List PendingPost := []
     s.awake = true ∧ s.bayOf n = some b ∧ e.posts = p :: rest ∧ p.flits ≤ aget 0 e.arrived (slotOf w p.handle) ∧
       State.handleExpected b w e p.handle = false) ∧
    (let s : State := hs [po 1] [(0, 2)] 4
     let b : Nat := 63
     let n : Nat := 0
     let i : Nat := 2
     let k : Brick := s.brick n
     let e : Endpoint := k.stream i
     let w : StreamWord := streamWord k.conf i
     let p : PendingPost := po 1
     let rest : List PendingPost := []
     s.awake = true ∧ s.bayOf n = some b ∧ e.posts = p :: rest ∧ p.flits ≤ aget 0 e.arrived (slotOf w p.handle) ∧
       State.handleExpected b w e p.handle = true ∧ w.swap = true) ∧
    (let s : State := gg 1 (fun g => { g with state := .waiting }) (kk (fun k => { k with tag := 3 }) (eps 2 (fun e => { e with bound := true, swapPosted := some 9 }) (rn [sw 2 (5 + 2 ^ 18) 0 3, pw 1 0 (op 5 2)])))
     let b : Nat := 63
     let n : Nat := 0
     let i : Nat := 2
     let k : Brick := s.brick n
     let e : Endpoint := k.stream i
     let h : Word := 9
     let p : Nat := 1
     s.Running b n ∧ e.swapPosted = some h ∧ s.waiterOn n i = some p ∧ State.tagFits k p i h = false) := by
  refine ⟨?_, ?_, ?_, ?_, ?_, ?_⟩ <;> first
    | decide +kernel
    | (repeat' apply And.intro) <;> first
      | decide +kernel
      | (simp only [State.Running]; (repeat' apply And.intro) <;> decide +kernel)

end NetworkW

/-! ### Witnesses: Relays -/

namespace RelaysW

def cobj (tiles : Nat) : Obj := { bytesKind := false, fmt := 0, tiles := tiles, size := 4096 * tiles, residence := .clay, creating := false, place := some { host := 0, first := 0, ranks := 1, offset := 0, order := 0, base := 0, bricks := [0], granules := 4 }, charged := 0 }
def rs (r : Relay) : State := { rn [sw 2 (1 + 2 * 8 + 2 ^ 21) 0 63, pw 2 0 (op 3 (18 * 2 ^ 21 + 2 ^ 20))] with relays := [(31, r)], objs := [(9, some (cobj 5))] }
def icfg : Word := BitVec.ofNat 32 (2 * 2 ^ 22 + 63 * 16)
def okIn : Relay := { count := 5, start := 1, cfg := icfg }
def okOut : Relay := { count := 5, start := 1, object := 9, peer := 77 }
def auxed (s : State) : State := { s with footing := { s.footing with present := true, ports := [(8, { role := 8, aux := 77 })] } }
def bd (s : State) : State := eps 2 (fun e => { e with bound := true }) s
def rebound : State := bd (rs { okIn with state := 3, next := 1, opened := some (63, 0, 2, 0), bytes := 64, flits := 1 })
def grants (s : State) : State := let r := s.relay 31; let n := s.relayBrick r
  (s.setBrick n ((s.freeSlots n 2).foldl (fun k h => State.forgetSlot k 2 h) (s.brick n))).setRelay 31 { State.opened r false with free := s.freeSlots n 2 }
def regrants (s : State) : State := let r := s.relay 31; let n := s.relayBrick r
  s.setRelay 31 { State.opened r false with free := s.freeSlots n 2, bytes := r.bytes, flits := r.flits, granted := r.flits }
def pg : GritPacket := gritOf 10 (State.ksEndpoint 31) 1 15 0 3 []
def eg (f : Relay → Relay) : State := rs (f { okOut with state := 1, egress := true, tokens := 2, granted := 3, next := 1, avail := 5, xfer := 6 })

theorem witness_RelayChannelCommands :
    (let s : State := rs { okOut with state := 1, egress := true, tokens := 3, granted := 5 }
     let agent : Nat := 3
     let c : Nat := 31
     let reserved : Nat := 0
     let resume : Nat := 4
     let r : Relay := s.relay c
     s.coreUp agent = true ∧ c < 32 ∧ r.badWrite = false ∧ reserved = 0 ∧ r.state = 1 ∧ r.egress = true ∧
       resume < BitVec.toNat r.count) ∧
    (let s : State := rs {}
     let agent : Nat := 3
     let c : Nat := 31
     let reserved : Nat := 1
     let r : Relay := s.relay c
     s.coreUp agent = true ∧ c < 32 ∧ r.badWrite = false ∧ reserved ≠ 0) ∧
    (let s : State := rebound
     let agent : Nat := 3
     let c : Nat := 31
     let reserved : Nat := 0
     let r : Relay := s.relay c
     s.coreUp agent = true ∧ c < 32 ∧ reserved = 0 ∧ r.badWrite = false ∧ r.state ≠ 1 ∧ s.openInCode r = sOk ∧
       State.rebinds r = true ∧ (r.state ≠ 1 ∨ r.egress = false)) ∧
    (let s : State := rs { okIn with badWrite := true }
     let agent : Nat := 3
     let c : Nat := 31
     let r : Relay := s.relay c
     s.coreUp agent = true ∧ c < 32 ∧ r.badWrite = true) ∧
    (let s : State := rs {}
     let agent : Nat := 3
     let c : Nat := 31
     let reserved : Nat := 0
     let r : Relay := s.relay c
     s.coreUp agent = true ∧ c < 32 ∧ reserved = 0 ∧ r.badWrite = false ∧ r.state ≠ 1 ∧
       (r.count = 0 ∨ BitVec.toNat r.count ≤ BitVec.toNat r.start)) ∧
    (let s : State := bd (rs okIn)
     let agent : Nat := 3
     let c : Nat := 31
     let reserved : Nat := 0
     let r : Relay := s.relay c
     s.coreUp agent = true ∧ c < 32 ∧ reserved = 0 ∧ r.badWrite = false ∧ s.openInCode r = sOk ∧
       State.rebinds r = false) ∧
    (let s : State := auxed (rs okOut)
     let agent : Nat := 3
     let c : Nat := 31
     let reserved : Nat := 0
     let r : Relay := s.relay c
     s.coreUp agent = true ∧ c < 32 ∧ reserved = 0 ∧ r.badWrite = false ∧ s.openOutCode c r = sOk) ∧
    (let s : State := rs { okOut with state := 1, egress := true, tokens := 3, granted := 5 }
     let agent : Nat := 3
     let c : Nat := 31
     let reserved : Nat := 0
     let resume : Nat := 5
     let r : Relay := s.relay c
     s.coreUp agent = true ∧ c < 32 ∧ reserved = 0 ∧ r.badWrite = false ∧ r.state = 1 ∧ r.egress = true ∧
       BitVec.toNat r.count ≤ resume) := by
  refine ⟨?_, ?_, ?_, ?_, ?_, ?_, ?_, ?_⟩ <;> first
    | decide +kernel
    | (repeat' apply And.intro) <;> first
      | decide +kernel


theorem witness_RelayTokensAndTiles :
    (let s : State := bd (rs { okIn with state := 1, peer := 77, xfer := 6, next := 3, tokens := 1, free := [7], cfg := icfg, bytes := 16320 })
     let c : Nat := 31
     let dev : Nat := 77
     let ch : Nat := 0
     let xfer : Nat := 6
     let index : Nat := 3
     let tile : Bytes := zeros 64
     let r : Relay := s.relay c
     let m : Memory := (s.brick (s.relayBrick r)).conf
     let i : Nat := (relayStream r).snd.snd
     let peer : Prop := relayPeerDev r = dev ∧ relayPeerCh r = ch ∧ BitVec.toNat r.xfer = xfer
     s.awake = true ∧ c < 32 ∧ r.state = 1 ∧ (r.state ≠ 1 ∨ r.egress = false ∨ ¬peer) ∧
       (r.state ≠ 1 ∨ r.egress = false) ∧ (r.tokens ≠ 0 ∨ r.laggard = true) ∧ r.egress = false ∧ peer ∧
       index = r.next ∧ r.tokens ≠ 0 ∧ r.free ≠ [] ∧ r.bytes + List.length tile ≤ (streamWord m i).slotUnits * 256 ∧
       r.flits + 1 < tilesPerSlot m i ∧ r.next + 1 < BitVec.toNat r.count) ∧
    (let s : State := eg (fun r => { r with tokens := 0, starved := 0x1000 })
     let c : Nat := 31
     let dev : Nat := 77
     let code : Code := eRelaySpliced
     let r : Relay := s.relay c
     let i : Nat := 31
     s.awake = true ∧ c < 32 ∧
       (r.state ≠ 1 ∨ r.egress = false ∨ r.tokens = 0 ∨ BitVec.toNat r.count ≤ r.next ∨ r.avail ≤ r.next) ∧
       r.state = 1 ∧ r.egress = true ∧ r.tokens = 0 ∧ r.laggard = false ∧ bits r.laggardTicks 0 16 ≤ r.starved ∧
       (r.state ≠ 1 ∨ r.egress = true) ∧ code = eRelaySpliced ∧ relayPeerDev r = dev ∧ i < 32 ∧
       (s.relay i).state = 1 ∧ (s.relay i).xfer = r.xfer) ∧
    (let s : State := eps 2 (fun e => { e with bound := true, queue := [7, 8] }) (rn [mode 6, sw 2 17 0 3])
     let b : Nat := 63
     let n : Nat := 0
     let k : Brick := s.brick n
     let i : Nat := 2
     s.Running b n ∧ functionOf k.conf = 6 ∧ (∀ (j : Nat), j < 16 → (k.stream j).relayTaken = []) ∧
       State.relayNext k = some i ∧ (streamWord k.conf i).swap = false ∧ State.outStreams k = [] ∧ k.results = [] ∧
       i < 16 ∧ (∀ (j : Nat), j < i → (k.stream j).relayTaken = [])) ∧
    (let s : State := eg (fun r => { r with tokens := 1, next := 4, avail := 5 })
     let c : Nat := 31
     let dev : Nat := 77
     let ch : Nat := 0
     let xfer : Nat := 6
     let n : Nat := 0
     let r : Relay := s.relay c
     let peer : Prop := relayPeerDev r = dev ∧ relayPeerCh r = ch ∧ BitVec.toNat r.xfer = xfer
     s.awake = true ∧ c < 32 ∧ r.state = 1 ∧ r.egress = true ∧ 0 < r.tokens ∧ r.next < BitVec.toNat r.count ∧
       r.next < r.avail ∧ peer ∧ n ≤ r.spent) ∧
    (let s : State := eps 2 (fun e => { e with bound := true, relayTaken := [{ handle := 7, needs := [], told := false }] }) (rn [mode 6, sw 2 17 0 3])
     let b : Nat := 63
     let n : Nat := 0
     let k : Brick := s.brick n
     let i : Nat := 2
     let x : RelayTake := { handle := 7, needs := [], told := false }
     let rest : List RelayTake := []
     s.Running b n ∧ functionOf k.conf = 6 ∧ i < 16 ∧ (∀ (j : Nat), j < i → (k.stream j).relayTaken = []) ∧
       (k.stream i).relayTaken = x :: rest ∧ k.results = [] ∧ State.takePosted k x = true ∧
       s.tapOf b ((s.rankOf b n).getD 0) i = none) ∧
    (let s : State := eg (fun r => { r with tokens := 1, next := 4, avail := 5 })
     let c : Nat := 31
     let read : TileRead := []
     let r : Relay := s.relay c
     let o : Obj := cobj 5
     s.awake = true ∧ c < 32 ∧ r.state = 1 ∧ r.egress = true ∧ 0 < r.tokens ∧ r.next < BitVec.toNat r.count ∧
       r.next < r.avail ∧ s.obj (BitVec.toNat r.object) = some o ∧ s.tileWaits o r.next = false ∧
       (∃ tile : Bytes, (s.fetchTile (BitVec.toNat r.object) o r.next read).snd = some tile)) ∧
    (let s : State := { rs { okIn with state := 1, egress := true, cfg := icfg + 2 ^ 26 } with net := ((rn []).sendGrit reqFunction pg).net }
     let c : Nat := 31
     let tiles : Nat := 3
     let p : GritPacket := pg
     s.awake = true ∧ c < 32 ∧
       (Option.map (fun x => x.p) (List.find? (fun m => m.p.kind == 10 && m.p.dest == State.ksEndpoint c && m.p.stream == c % 16 && BitVec.toNat m.p.arg == tiles) s.net.grit) = some p) ∧
       s.gritDue p = true) ∧
    (let s : State := bd (rs { okIn with state := 1, peer := 77, xfer := 6, next := 1, tokens := 2, free := [7], cfg := icfg, bytes := 8192, flits := 1 })
     let c : Nat := 31
     let dev : Nat := 77
     let ch : Nat := 0
     let xfer : Nat := 6
     let index : Nat := 1
     let tile : Bytes := zeros 8192
     let r : Relay := s.relay c
     let m : Memory := (s.brick (s.relayBrick r)).conf
     let i : Nat := (relayStream r).snd.snd
     let peer : Prop := relayPeerDev r = dev ∧ relayPeerCh r = ch ∧ BitVec.toNat r.xfer = xfer
     s.awake = true ∧ c < 32 ∧ r.state = 1 ∧ r.egress = false ∧ peer ∧ index = r.next ∧ r.tokens ≠ 0 ∧
       r.free ≠ [] ∧ r.bytes + List.length tile ≤ (streamWord m i).slotUnits * 256 ∧
       tilesPerSlot m i ≤ r.flits + 1 ∧ r.next + 1 < BitVec.toNat r.count) ∧
    (let s : State := eg id
     let c : Nat := 31
     let code : Code := 0x22
     s.awake = true ∧ c < 32 ∧ code ≠ eRelaySpliced) ∧
    (let s : State := eg id
     let b : Nat := 63
     let n : Nat := 0
     let k : Brick := s.brick n
     s.Running b n ∧ functionOf k.conf ≠ 6) ∧
    (let s : State := eg (fun r => { r with tokens := 1, next := 3, avail := 4 })
     let c : Nat := 31
     let read : TileRead := []
     let r : Relay := s.relay c
     let o : Obj := cobj 5
     s.awake = true ∧ c < 32 ∧ r.state = 1 ∧ r.egress = true ∧ 0 < r.tokens ∧ r.next < BitVec.toNat r.count ∧
       r.next < r.avail ∧ s.obj (BitVec.toNat r.object) = some o ∧ s.tileWaits o r.next = false ∧
       (∃ tile : Bytes, (s.fetchTile (BitVec.toNat r.object) o r.next read).snd = some tile) ∧
       r.next + 1 < BitVec.toNat r.count) ∧
    (let s : State := eg id
     let c : Nat := 31
     let dev : Nat := 77
     let ch : Nat := 0
     let xfer : Nat := 6
     let n : Nat := 1
     let r : Relay := s.relay c
     let peer : Prop := relayPeerDev r = dev ∧ relayPeerCh r = ch ∧ BitVec.toNat r.xfer = xfer
     s.awake = true ∧ c < 32 ∧ r.state = 1 ∧ r.egress = true ∧ (¬peer ∨ r.spent < n)) ∧
    (let s : State := eg (fun r => { r with tokens := 1, next := 4, avail := 5 })
     let c : Nat := 31
     let read : TileRead := [(0, .uncorrectable)]
     let r : Relay := s.relay c
     let o : Obj := cobj 5
     s.awake = true ∧ c < 32 ∧ r.state = 1 ∧ r.egress = true ∧ 0 < r.tokens ∧ r.next < BitVec.toNat r.count ∧
       r.next < r.avail ∧ s.obj (BitVec.toNat r.object) = some o ∧ s.tileWaits o r.next = false ∧
       (s.fetchTile (BitVec.toNat r.object) o r.next read).snd = none) ∧
    (let s : State := bd (rs { okIn with state := 1, peer := 77, xfer := 6, next := 1, tokens := 2, free := [7], cfg := icfg })
     let c : Nat := 31
     let dev : Nat := 77
     let ch : Nat := 0
     let xfer : Nat := 6
     let index : Nat := 0
     let r : Relay := s.relay c
     let peer : Prop := relayPeerDev r = dev ∧ relayPeerCh r = ch ∧ BitVec.toNat r.xfer = xfer
     s.awake = true ∧ c < 32 ∧ r.state = 1 ∧ r.egress = false ∧ (¬peer ∨ index ≠ r.next ∨ r.tokens = 0)) := by
  refine ⟨?_, ?_, ?_, ?_, ?_, ?_, ?_, ?_, ?_, ?_, ?_, ?_, ?_, ?_⟩ <;> first
    | decide +kernel
    | (repeat' apply And.intro) <;> first
      | decide +kernel
      | exact Option.isSome_iff_exists.mp (by decide +kernel)
      | (simp only [State.Running]; (repeat' apply And.intro) <;> decide +kernel)

end RelaysW

/-! ### Witnesses: Memory tiers and units -/

namespace TiersW

def cobj (tiles : Nat) : Obj := { bytesKind := false, fmt := 0, tiles := tiles, size := 4096 * tiles, residence := .clay, creating := false, place := some { host := 0, first := 0, ranks := 1, offset := 0, order := 0, base := 0, bricks := [0], granules := 4 }, charged := 0 }
def lo (tiles : Nat) : Obj := { cobj tiles with residence := .loam, place := none, map := List.replicate tiles ⟨0, 1, 5⟩ }
def ts (args : List Word) (f : TierMover → TierMover) (os : Assoc (Option Obj)) : State := { rn [] with tier := f { args := args }, objs := os }
def cmd (o : Nat) (run : Bool) : TierCmd := { seq := 1, op := o, obj := 9, arg1 := 0, arg2 := 5, arg3 := 0, arg4 := 0, running := run }
def fullQ (t : TierMover) : TierMover := { t with cmds := List.replicate 64 (cmd 2 false) }
def mvs (o : Nat) (ob : Option Obj) : State := ts [] (fun t => { t with cmds := [cmd o false] }) [(9, ob)]
def mrun (c : TierCmd) (ob : Obj) : State := { ts [] (fun t => { t with cmds := [c] }) [(9, some ob)] with units := [(0, { state := .inService, capacity := 1000 })] }
def crun : TierCmd := { cmd 1 true with place := (cobj 5).place }
def qs (s : State) : State := { s.setBay 0 { plan := { role := 1, rects := [⟨0, 5, 5, 1, 1⟩], loamQuota := 5000 } } with units := [(0, { state := .inService, capacity := 1000 })] }
def cev (run : Bool) : TierCmd := { cmd 3 run with arg1 := 1, arg2 := 0 }
def cev2 : TierCmd := { cev true with units := [0], mapLoc := some ⟨0, 1, 2⟩, next := 0 }
def g4 : Obj := { cobj 5 with fmt := 7 }
def evr : State := qs (ts [] (fun t => { t with cmds := [cev2] }) [(9, some g4)])
def evs : State := qs (ts [] (fun t => { t with cmds := [cev false] }) [(9, some (cobj 5))])
def cpr : TierCmd := { cmd 2 false with arg1 := 252, arg3 := 63, arg2 := 0 }
def prs : State := w (fun v => { v with plan := { one with clayQuota := 10 } }) (qs (ts [] (fun t => { t with cmds := [cpr] }) [(9, some (lo 5))]))
def us (x : UnitState) (f : MemUnit → MemUnit) : State := { fp { dramExpect := 3, dramRate := 10400 } with units := [(19, f { state := x, capacity := 100 }), (0, f { state := x, capacity := 100 }), (33, f { state := x, capacity := 100 })], objs := [(9, some (lo 3))] }
def bt (s : State) : State := { s with boot := { s.boot with mortar := true } }
def cx (a b : Bool) (wd : Nat) : CxlResult := { linkUp := a, flit256 := b, width := wd, rate64 := true, memCapable := true, cacheCapable := false, configOk := true, decoderOk := true, memoryActive := true, volatileSectors := 2 ^ 34 + 1 }
def cxs (f : MemUnit → MemUnit) (c : TierCmd) (o : Obj) : State := { us .inService f with tier := { cmds := [c] }, objs := [(9, some o)] }
def xo : Obj := { lo 3 with residence := .marl, map := List.replicate 3 ⟨33, 1, 5⟩ }

theorem witness_TierCommandsAndPins :
    (let s : State := ts [9, 1, 5, 0, 0] id [(9, some (cobj 5))]
     let agent : Nat := 3
     let reserved : Nat := 0
     let id : Nat := BitVec.toNat ((fun i => s.tier.args.getD i 0) 0)
     let x : Nat := 0
     s.coreUp agent = true ∧
       (s.tierCode 1 reserved id ((fun i => s.tier.args.getD i 0) 1) ((fun i => s.tier.args.getD i 0) 2) ((fun i => s.tier.args.getD i 0) 3) ≠ sOk) ∧
       (s.tierCode 2 reserved id ((fun i => s.tier.args.getD i 0) 1) ((fun i => s.tier.args.getD i 0) 2) ((fun i => s.tier.args.getD i 0) 3) = sOk) ∧
       2 ≠ 1 ∧ x ≠ id ∧
       (s.tierCode 3 reserved id ((fun i => s.tier.args.getD i 0) 1) ((fun i => s.tier.args.getD i 0) 2) ((fun i => s.tier.args.getD i 0) 3) = sOk) ∧
       3 ≠ 1 ∧
       (s.tierCode 4 reserved id ((fun i => s.tier.args.getD i 0) 1) ((fun i => s.tier.args.getD i 0) 2) ((fun i => s.tier.args.getD i 0) 3) = sOk) ∧
       4 ≠ 1 ∧
       (s.tierCode 7 reserved id ((fun i => s.tier.args.getD i 0) 1) ((fun i => s.tier.args.getD i 0) 2) ((fun i => s.tier.args.getD i 0) 3) = sOk) ∧
       7 ≠ 1 ∧
       (s.tierCode 8 reserved id ((fun i => s.tier.args.getD i 0) 1) ((fun i => s.tier.args.getD i 0) 2) ((fun i => s.tier.args.getD i 0) 3) = sOk) ∧
       8 ≠ 1 ∧
       ((fun op => s.tierCode op reserved id ((fun i => s.tier.args.getD i 0) 1) ((fun i => s.tier.args.getD i 0) 2) ((fun i => s.tier.args.getD i 0) 3)) 5 = sOk) ∧
       ((fun op => s.tierCode op reserved id ((fun i => s.tier.args.getD i 0) 1) ((fun i => s.tier.args.getD i 0) 2) ((fun i => s.tier.args.getD i 0) 3)) 6 = sOk) ∧
       ((fun op => s.tierCode op reserved id ((fun i => s.tier.args.getD i 0) 1) ((fun i => s.tier.args.getD i 0) 2) ((fun i => s.tier.args.getD i 0) 3)) 9 = sOk)) ∧
    (let s : State := ts [9, 0, 5, 0, 0] id [(9, some { cobj 5 with lost := true })]
     let op : Nat := 2
     let reserved : Nat := 0
     let id : Nat := 9
     let a1 : Word := 0
     let a2 : Word := 5
     let a3 : Word := 0
     let o : Obj := { cobj 5 with lost := true }
     tierArgsBad op reserved a1 a2 a3 = false ∧ op ≠ 1 ∧ (op = 2 ∨ op = 3 ∨ op = 4 ∨ op = 7 ∨ op = 8) ∧
       s.obj id = some o ∧ o.lost = true ∧ op ≠ 7 ∧ op ≠ 9) ∧
    (let s : State := ts [9, 0, 5, 0, 0] id []
     let agent : Nat := 3
     let reserved : Nat := 0
     let id : Nat := BitVec.toNat ((fun i => s.tier.args.getD i 0) 0)
     let x : Nat := 0
     s.coreUp agent = true ∧
       (s.tierCode 1 reserved id ((fun i => s.tier.args.getD i 0) 1) ((fun i => s.tier.args.getD i 0) 2) ((fun i => s.tier.args.getD i 0) 3) = sOk) ∧
       1 = 1 ∧ x ≠ id ∧
       (s.tierCode 2 reserved id ((fun i => s.tier.args.getD i 0) 1) ((fun i => s.tier.args.getD i 0) 2) ((fun i => s.tier.args.getD i 0) 3) ≠ sOk) ∧
       (s.tierCode 3 reserved id ((fun i => s.tier.args.getD i 0) 1) ((fun i => s.tier.args.getD i 0) 2) ((fun i => s.tier.args.getD i 0) 3) ≠ sOk) ∧
       (s.tierCode 4 reserved id ((fun i => s.tier.args.getD i 0) 1) ((fun i => s.tier.args.getD i 0) 2) ((fun i => s.tier.args.getD i 0) 3) ≠ sOk) ∧
       (s.tierCode 7 reserved id ((fun i => s.tier.args.getD i 0) 1) ((fun i => s.tier.args.getD i 0) 2) ((fun i => s.tier.args.getD i 0) 3) ≠ sOk) ∧
       (s.tierCode 8 reserved id ((fun i => s.tier.args.getD i 0) 1) ((fun i => s.tier.args.getD i 0) 2) ((fun i => s.tier.args.getD i 0) 3) ≠ sOk) ∧
       ((fun op => s.tierCode op reserved id ((fun i => s.tier.args.getD i 0) 1) ((fun i => s.tier.args.getD i 0) 2) ((fun i => s.tier.args.getD i 0) 3)) 5 ≠ sOk) ∧
       ((fun op => s.tierCode op reserved id ((fun i => s.tier.args.getD i 0) 1) ((fun i => s.tier.args.getD i 0) 2) ((fun i => s.tier.args.getD i 0) 3)) 6 ≠ sOk) ∧
       ((fun op => s.tierCode op reserved id ((fun i => s.tier.args.getD i 0) 1) ((fun i => s.tier.args.getD i 0) 2) ((fun i => s.tier.args.getD i 0) 3)) 9 ≠ sOk)) ∧
    (let s : State := ts [9, 0, 5, 0, 0] id [(9, some (cobj 5))]
     let agent : Nat := 3
     let reserved : Nat := 0
     let id : Nat := BitVec.toNat ((fun i => s.tier.args.getD i 0) 0)
     let o : Obj := cobj 5
     s.coreUp agent = true ∧
       ((fun op => s.tierCode op reserved id ((fun i => s.tier.args.getD i 0) 1) ((fun i => s.tier.args.getD i 0) 2) ((fun i => s.tier.args.getD i 0) 3)) 5 = sOk) ∧
       s.obj id = some o ∧
       ((fun op => s.tierCode op reserved id ((fun i => s.tier.args.getD i 0) 1) ((fun i => s.tier.args.getD i 0) 2) ((fun i => s.tier.args.getD i 0) 3)) 6 = sOk) ∧
       ((fun op => s.tierCode op reserved id ((fun i => s.tier.args.getD i 0) 1) ((fun i => s.tier.args.getD i 0) 2) ((fun i => s.tier.args.getD i 0) 3)) 9 = sOk)) ∧
    (let s : State := ts [9, 0, 5, 0, 0] id [(9, some (lo 5))]
     let op : Nat := 1
     let reserved : Nat := 0
     let id : Nat := 9
     let a1 : Word := 0
     let a2 : Word := 5
     let a3 : Word := 0
     tierArgsBad op reserved a1 a2 a3 = false ∧ op = 1 ∧ s.obj id ≠ none) ∧
    (let s : State := ts [9, 0, 5, 0, 0] fullQ [(9, some (cobj 5))]
     let op : Nat := 2
     let reserved : Nat := 0
     let id : Nat := 9
     let a1 : Word := 0
     let a2 : Word := 5
     let a3 : Word := 0
     let o : Obj := cobj 5
     tierArgsBad op reserved a1 a2 a3 = false ∧ (op = 2 ∨ op = 3 ∨ op = 4 ∨ op = 7 ∨ op = 8) ∧ s.obj id = some o ∧
       o.lost = false ∧ 64 ≤ s.tier.cmds.length + s.tier.done.length) ∧
    (let op : Nat := 1
     let reserved : Nat := 1
     let a1 : Word := 0
     let a2 : Word := 5
     let a3 : Word := 0
     tierArgsBad op reserved a1 a2 a3 = true) ∧
    (let s : State := ts [9, 0, 5, 0, 0] id []
     let op : Nat := 2
     let reserved : Nat := 0
     let id : Nat := 9
     let a1 : Word := 0
     let a2 : Word := 5
     let a3 : Word := 0
     tierArgsBad op reserved a1 a2 a3 = false ∧ op ≠ 1 ∧ s.obj id = none) := by
  refine ⟨?_, ?_, ?_, ?_, ?_, ?_, ?_, ?_⟩ <;> first
    | decide +kernel
    | (repeat' apply And.intro) <;> first
      | decide +kernel


theorem witness_MovementsStartAndRun :
    (let s : State := evr
     let seq : Nat := 1
     let first : TileRead := []
     let c : TierCmd := cev2
     let o : Obj := g4
     let b : Bytes := zeros 512
     let l : TileLoc := (evr.allocate [0] 9 1 ((sieveEncode false 7 9 (zeros 512)).length / 64)).getD ⟨0, 0, 0⟩
     let m : TileLoc := ⟨0, 1, 2⟩
     let data : Bytes := sieveEncode o.bytesKind o.fmt c.obj b
     let n : Nat := List.length data / 64
     s.awake = true ∧ s.tier.cmds = [c] ∧ c.seq = seq ∧ c.running = true ∧ c.op = 3 ∧ s.obj c.obj = some o ∧
       o.residence = Tier.clay ∧ c.place = none ∧ first = [] ∧ c.badReads = 0 ∧ s.readTile c.obj o c.next = some b ∧
       s.beyondQuota (destTier c) (State.ownerOf c.obj) n = false ∧
       s.allocate c.units (c.obj % 2 ^ 26) c.next n = some l ∧ c.mapLoc = some m ∧ (s.unit l.unit).held = false ∧
       (s.unit m.unit).held = false ∧ c.next + 1 < o.tiles ∧ o.lostPending = false) ∧
    (let s : State := prs
     let c : TierCmd := cpr
     let o : Obj := lo 5
     let p : Placement := argPlacement s c.obj o c.arg3 c.arg4
     s.awake = true ∧ List.find? s.mayStart s.tier.cmds = some c ∧ s.obj c.obj = some o ∧ s.startCode c = sOk ∧
       c.op ≠ 7 ∧ c.op ≠ 8 ∧ destTier c = Tier.clay ∧ placementCode s c.obj o p = sOk ∧
       (s.bay (argBay c.arg1)).clayUsed + p.granules ≤ (s.bay (argBay c.arg1)).plan.clayQuota) ∧
    (let s : State := mrun { crun with next := 4 } { cobj 5 with creating := true }
     let seq : Nat := 1
     let c : TierCmd := { crun with next := 4 }
     let o : Obj := { cobj 5 with creating := true }
     let p : Placement := { host := 0, first := 0, ranks := 1, offset := 0, order := 0, base := 0, bricks := [0], granules := 4 }
     s.awake = true ∧ s.tier.cmds = [c] ∧ c.seq = seq ∧ c.running = true ∧ c.op = 1 ∧ s.obj c.obj = some o ∧
       c.place = some p ∧ c.next + 1 = o.tiles ∧ o.lostPending = false) ∧
    (let s : State := mvs 3 none
     let c : TierCmd := cmd 3 false
     let seq : Nat := 2
     s.awake = true ∧ List.find? s.mayStart s.tier.cmds = some c ∧ seq ≠ c.seq ∧ s.obj c.obj = none ∧
       (∀ (c : TierCmd), c ∈ s.tier.cmds → c.seq = seq → c.running = false)) ∧
    (let s : State := mvs 3 (some { cobj 5 with pins := 1 })
     let c : TierCmd := cmd 3 false
     let o : Obj := { cobj 5 with pins := 1 }
     s.awake = true ∧ List.find? s.mayStart s.tier.cmds = some c ∧ s.obj c.obj = some o ∧
       s.startCode c = eObjPinned ∧ o.lostPending = false ∧ c.op ≠ 1) ∧
    (let s : State := evs
     let c : TierCmd := cev false
     let o : Obj := cobj 5
     let n : Nat := mapSectors o.tiles
     let l : TileLoc := (evs.allocate [0] 9 0 1).getD ⟨0, 0, 0⟩
     s.awake = true ∧ List.find? s.mayStart s.tier.cmds = some c ∧ s.obj c.obj = some o ∧ s.startCode c = sOk ∧
       c.op ≠ 7 ∧ c.op ≠ 8 ∧ destTier c ≠ Tier.clay ∧ s.beyondQuota (destTier c) (State.ownerOf c.obj) n = false ∧
       s.allocate (s.inService (destTier c)) (c.obj % 2 ^ 26) 0 n = some l) ∧
    (let s : State := evr
     let unit : Nat := 65535
     let found : Ecc := .clean
     s.awake = true ∧ unit < 65536 ∧ found = Ecc.clean) ∧
    (let s : State := mvs 8 (some (cobj 5))
     let c : TierCmd := cmd 8 false
     let o : Obj := cobj 5
     s.awake = true ∧ List.find? s.mayStart s.tier.cmds = some c ∧ s.obj c.obj = some o ∧ s.startCode c = sOk ∧
       c.op = 8 ∧ o.lostPending = false) ∧
    (let s : State := evr
     let seq : Nat := 1
     let first : TileRead := [(3, .uncorrectable)]
     let second : TileRead := [(4, .uncorrectable)]
     let c : TierCmd := cev2
     let o : Obj := g4
     let x : Nat := 3
     let y : Nat := 4
     s.awake = true ∧ s.tier.cmds = [c] ∧ c.seq = seq ∧ c.running = true ∧ c.op = 3 ∧ s.obj c.obj = some o ∧
       o.residence = Tier.clay ∧ o.lostPending = false ∧ (x, SectorRead.uncorrectable) ∈ first ∧
       (y, SectorRead.uncorrectable) ∈ second) ∧
    (let s : State := evr
     let unit : Nat := 65535
     let found : Ecc := .corrected 3
     let k : Nat := 3
     s.awake = true ∧ unit < 65536 ∧ found = Ecc.corrected k) ∧
    (let s : State := evr
     let unit : Nat := 65535
     let found : Ecc := .uncorrectable 7
     let off : Nat := 7
     s.awake = true ∧ unit < 65536 ∧ found = Ecc.uncorrectable off) ∧
    (let s : State := mvs 7 (some (cobj 5))
     let c : TierCmd := cmd 7 false
     let o : Obj := cobj 5
     s.awake = true ∧ List.find? s.mayStart s.tier.cmds = some c ∧ s.obj c.obj = some o ∧ s.startCode c = sOk ∧
       c.op = 7) ∧
    (let s : State := mrun { crun with next := 3 } { cobj 5 with creating := true }
     let seq : Nat := 1
     let c : TierCmd := { crun with next := 3 }
     let o : Obj := { cobj 5 with creating := true }
     let p : Placement := { host := 0, first := 0, ranks := 1, offset := 0, order := 0, base := 0, bricks := [0], granules := 4 }
     s.awake = true ∧ s.tier.cmds = [c] ∧ c.seq = seq ∧ c.running = true ∧ c.op = 1 ∧ s.obj c.obj = some o ∧
       c.place = some p ∧ c.next + 1 < o.tiles) := by
  refine ⟨?_, ?_, ?_, ?_, ?_, ?_, ?_, ?_, ?_, ?_, ?_, ?_, ?_⟩ <;> first
    | decide +kernel
    | (repeat' apply And.intro) <;> first
      | decide +kernel


theorem witness_DdrTrainingDriftAndTemperature :
    (let s : State := us .inService (fun u => { u with drift := 1 })
     let u : Nat := 19
     let v : MemUnit := s.unit u
     s.awake = true ∧ s.boot.mortar = true ∧ s.boot.ddrDone = false ∧ u < 20 ∧
       (s.unit u).state ≠ UnitState.mappedOut ∧ s.footing.dramExpect.testBit u = false ∧
       (s.unit u).state = UnitState.inService ∧ v.held = false ∧ v.drift < 2) ∧
    (let s : State := us .inService id
     let rs : List DdrResult := [{ present := true, spdRate := 8800, sidebandOk := true, trained := true }, { present := true, spdRate := 8800, sidebandOk := true, trained := false }]
     let u : Nat := 1
     let r : DdrResult := { present := true, spdRate := 8800, sidebandOk := true, trained := false }
     s.awake = true ∧ s.boot.mortar = true ∧ s.boot.ddrDone = false ∧ u < 20 ∧
       (s.unit u).state ≠ UnitState.mappedOut ∧ s.footing.dramExpect.testBit u = true ∧ rs[u]? = some r ∧
       r.present = true ∧ r.sidebandOk = true ∧ (r.present = false ∨ r.trained = false)) ∧
    (let s : State := us .inService (fun u => { u with held := true })
     let u : Nat := 0
     let v : MemUnit := s.unit u
     s.awake = true ∧ (s.unit u).state = UnitState.inService ∧ v.held = true) ∧
    (let s : State := us .inService id
     let rs : List DdrResult := [{ present := true, spdRate := 8800, sidebandOk := true, trained := true }, { present := true, spdRate := 8800, sidebandOk := true, trained := false }]
     let u : Nat := 0
     let r : DdrResult := { present := true, spdRate := 8800, sidebandOk := true, trained := true }
     s.awake = true ∧ s.boot.mortar = true ∧ s.boot.ddrDone = false ∧ u < 20 ∧
       (s.unit u).state ≠ UnitState.mappedOut ∧ s.footing.dramExpect.testBit u = true ∧ rs[u]? = some r ∧
       r.present = true ∧ r.sidebandOk = true ∧ r.trained = true ∧ s.ddrRate rs ≠ 0) ∧
    (let s : State := us .inService id
     let u : Nat := 0
     let q : Int := 419
     s.awake = true ∧ (s.unit u).state = UnitState.inService ∧ q < 420) ∧
    (let s : State := us .inService id
     let u : Nat := 0
     let q : Int := 420
     s.awake = true ∧ (s.unit u).state = UnitState.inService ∧ 420 ≤ q) ∧
    (let s : State := bt (us .mappedOut id)
     let u : Nat := 19
     s.awake = true ∧ s.boot.mortar = true ∧ s.boot.ddrDone = false ∧ u < 20 ∧
       (s.unit u).state = UnitState.mappedOut) ∧
    (let s : State := us .inService (fun u => { u with drift := 2 })
     let u : Nat := 0
     let v : MemUnit := s.unit u
     s.awake = true ∧ (s.unit u).state = UnitState.inService ∧ v.held = false ∧ 2 ≤ v.drift) := by
  refine ⟨?_, ?_, ?_, ?_, ?_, ?_, ?_, ?_⟩ <;> first
    | decide +kernel
    | (repeat' apply And.intro) <;> first
      | decide +kernel


theorem witness_UnitsAreMappedOut :
    (let s : State := bt (us .training id)
     let u : Nat := 0
     let v : MemUnit := s.unit u
     let f : CxlResult := cx true true 16
     s.awake = true ∧ v.state = UnitState.training ∧ f.linkUp = true ∧ State.cxlCause s.boot.mortar f = 0 ∧
       f.memoryActive = true ∧ s.boot.mortar = true ∧ f.rate64 = true ∧ 16 ≤ f.width) ∧
    (let s : State := us .inService (fun u => { u with recoveries := 15 })
     let u : Nat := 0
     let v : MemUnit := s.unit u
     let n : Nat := 4
     let w : Nat := 1
     s.awake = true ∧ v.state = UnitState.inService ∧ n < 5 ∧ u < 20 ∧ 4 ≤ n ∧ w ≠ u ∧ 15 ≤ v.recoveries ∧
       v.linkDown = false) ∧
    (let s : State := us .inService (fun u => { u with linkDown := true })
     let u : Nat := 0
     let v : MemUnit := s.unit u
     let n : Nat := 5
     let w : Nat := 1
     s.awake = true ∧ v.state = UnitState.inService ∧ 5 ≤ n ∧ w ≠ u ∧ v.linkDown = true) ∧
    (let s : State := bt (us .training id)
     let u : Nat := 0
     let v : MemUnit := s.unit u
     let f : CxlResult := cx true false 16
     let w : Nat := 1
     s.awake = true ∧ v.state = UnitState.training ∧ w ≠ u ∧ f.linkUp = true ∧ (f.flit256 = false ∨ f.width < 8)) ∧
    (let s : State := us .inService (fun u => { u with recoveries := 14 })
     let u : Nat := 0
     let v : MemUnit := s.unit u
     let n : Nat := 3
     s.awake = true ∧ v.state = UnitState.inService ∧ u < 20 ∧ n < 4 ∧ v.recoveries < 15) ∧
    (let s : State := us .absent id
     let u : Nat := 0
     let v : MemUnit := s.unit u
     s.awake = true ∧ (v.state = UnitState.mappedOut ∨ v.state = UnitState.absent)) ∧
    (let s : State := bt (us .training id)
     let u : Nat := 0
     let v : MemUnit := s.unit u
     let f : CxlResult := cx false true 16
     s.awake = true ∧ v.state = UnitState.training ∧ f.linkUp = false) ∧
    (let s : State := { us .training id with boot := { stage := .firmware } }
     let u : Nat := 0
     let v : MemUnit := s.unit u
     let f : CxlResult := cx true true 8
     s.awake = true ∧ v.state = UnitState.training ∧ f.linkUp = true ∧ State.cxlCause s.boot.mortar f = 0 ∧
       (f.memoryActive = false ∨ s.boot.mortar = false)) := by
  refine ⟨?_, ?_, ?_, ?_, ?_, ?_, ?_, ?_⟩ <;> first
    | decide +kernel
    | (repeat' apply And.intro) <;> first
      | decide +kernel


theorem witness_CxlTimeoutsAndResponses :
    (let s : State := cxs id { cmd 2 true with place := (cobj 5).place } xo
     let u : Nat := 33
     let seq : Nat := 1
     let v : MemUnit := s.unit u
     let c : TierCmd := { cmd 2 true with place := (cobj 5).place }
     let o : Obj := xo
     s.awake = true ∧ (s.unit u).state = UnitState.inService ∧ s.tier.cmds = [c] ∧ c.seq = seq ∧
       c.running = true ∧ s.obj c.obj = some o ∧ State.sourceUnit c o = some u ∧ v.violations < 15) ∧
    (let s : State := us .inService (fun u => { u with violations := 14 })
     let u : Nat := 33
     let v : MemUnit := s.unit u
     s.awake = true ∧ (s.unit u).state = UnitState.inService ∧ v.violations < 15) ∧
    (let s : State := us .inService (fun u => { u with violations := 15 })
     let u : Nat := 33
     let v : MemUnit := s.unit u
     s.awake = true ∧ (s.unit u).state = UnitState.inService ∧ 15 ≤ v.violations) ∧
    (let s : State := cxs id { cmd 3 true with map := List.replicate 5 ⟨33, 1, 5⟩ } (cobj 3)
     let u : Nat := 33
     let seq : Nat := 1
     let c : TierCmd := { cmd 3 true with map := List.replicate 5 ⟨33, 1, 5⟩ }
     let o : Obj := cobj 3
     s.awake = true ∧ (s.unit u).state = UnitState.inService ∧ s.tier.cmds = [c] ∧ c.seq = seq ∧
       c.running = true ∧ s.obj c.obj = some o ∧ State.onUnit u c.map c.mapLoc = true) := by
  refine ⟨?_, ?_, ?_, ?_⟩ <;> first
    | decide +kernel
    | (repeat' apply And.intro) <;> first
      | decide +kernel


end TiersW

/-! ### Witnesses: Validation, registers, attention, optimiser, checkpoints -/

namespace EnginesW

def cobj (tiles : Nat) : Obj := { bytesKind := true, fmt := 0, tiles := tiles, size := 4096 * tiles, residence := .clay, creating := false, place := some { host := 0, first := 0, ranks := 1, offset := 0, order := 0, base := 0, bricks := [0], granules := 4 }, charged := 0 }
def vs (f : Validator → Validator) (os : Assoc (Option Obj)) : State := { rn [] with validator := f { arg := 9 }, objs := os }
def u1 : Obj := { cobj 5 with validated := some [] }
def b2 (bs : Bytes) (f : Endpoint → Endpoint) (l : List (Nat × Nat × Nat)) (wk : Bool) : State :=
  gg 0 (fun g => { g with held := [(0, 0)] }) (eps 3 f (kk (fun k => { k with clay := awrite 0 [] 0 bs, working := wk }) (rn ([mode 3, sw 0 (1 + 8) 0 255, sw 3 (3 + 8) 2048 255] ++ l))))
def wr (kind fl : Nat) (seq : Nat) : Bytes := leBytes 1 kind ++ leBytes 1 fl ++ zeros 14 ++ leBytes 4 0x3F800000 ++ [0, 3, 0, 0] ++ leBytes 4 seq
def ot (e : Endpoint) : Endpoint := { e with bound := true, out := true, free := [0x00080000] }
def pm (s : State) (q : Word) : State := kk (fun k => { k with clay := awrite 0 k.clay 4096 (leBytes 4 5 ++ zeros 444), streams := aput {} k.streams 1 { k.stream 1 with bound := true, queue := [q] } }) s
def wm : Bytes := wr 3 0 5 ++ zeros 6 ++ [1]
def oj (s : State) : State := kk (fun k => { k with outJobs := [{ stream := 3, tiles := [], tag := 0 }], refused := true }) s
def nt (f : Nat) : RewindPoint := { prog := 0, word := 0, stack := [], addr := 0, space := .column, fromBase := false, moved := 0, fmtWord := f, count := 0, draws := [] }
def tl (f : Nat) : OperandTile := { fmt := 1, codes := 0x7F800000 :: 0x3F800000 :: List.replicate 1022 0, groups := [], bases := [], row := 0, col := 0, placed := false, tag := 0, note := nt f }
def ur (kind : Nat) (bad : Nat) : Bytes := leBytes 1 kind ++ [2, 0, 0] ++ leBytes 4 0 ++ leBytes 8 1 ++ leBytes 4 0x3F800000 ++ leBytes 4 0x3F000000 ++ leBytes 4 (if kind = 1 then 0x3F000000 else 0) ++ leBytes 4 (if kind = 1 then 0x3F000000 else 0) ++ leBytes 4 0 ++ leBytes 4 0x3F800000 ++ leBytes 4 (0x3F800000 + bad) ++ leBytes 4 0x3F800000 ++ zeros 16
def rt : ResultTile := { raw := false, wide := false, values := [], tag := 0, words := [] }
def os (bs : Bytes) (fs : List Nat) (upd : Nat) : State := gg 0 (fun g => { g with held := [(0, 0)] }) (kk (fun k => { k with clay := awrite 0 [] 0 bs, prim := fs.map tl, updated := upd }) (rn [mode 4, sw 0 (1 + 8) 0 255]))
def lb (x : BayState) (c : Code) : State := bayS { plan := { one with role := 4 }, state := x, lastCode := c, abortObj := some 4 }
def job (c : Ckpt) (step : Nat) (buddy : Nat) : State := { fp { ex := 2, train := { enable := true, ex := 2, ey := 1, ez := 1, t := 1, p := 1, d := 2, ckpt := true, buddySectors := buddy, ckptTimeout := 10 } } with ckpt := { c with shares := [0], slotSize := 100000, kept := [0, 1] }, turn := { step := step }, tb := { tick := 100, up := 100 } }
def hd (st : Nat) (step : Nat) : Bytes := leBytes 4 State.ckptMagic ++ leBytes 2 1 ++ leBytes 1 st ++ [0] ++ leBytes 8 step ++ leBytes 2 1 ++ zeros 46

theorem witness_ValidatorTakesOneObject :
    (let s : State := vs id [(9, some (cobj 5))]
     let agent : Nat := 3
     let reserved : Nat := 0
     let v : Validator := s.validator
     let id : Nat := BitVec.toNat v.arg
     let o : Obj := cobj 5
     s.coreUp agent = true ∧ reserved = 0 ∧ v.running = none ∧ s.obj id = some o ∧ o.lost = false ∧
       o.creating = false ∧ s.awake = true ∧ s.validator.running = none) ∧
    (let s : State := vs (fun v => { v with running := some 9 }) [(9, some (cobj 5))]
     let read : ObjRead := []
     let id : Nat := 9
     let o : Obj := cobj 5
     s.awake = true ∧ s.validator.running = some id ∧ s.heldObj id = false ∧ s.obj id = some o ∧
       o.residence = Tier.clay ∧ read = []) ∧
    (let s : State := vs id []
     let agent : Nat := 3
     let reserved : Nat := 1
     s.coreUp agent = true ∧ reserved ≠ 0) ∧
    (let s : State := vs id []
     let agent : Nat := 3
     let reserved : Nat := 0
     let v : Validator := s.validator
     let id : Nat := BitVec.toNat v.arg
     s.coreUp agent = true ∧ reserved = 0 ∧ v.running = none ∧ s.obj id = none) ∧
    (let s : State := vs (fun v => { v with running := some 9 }) [(9, some (cobj 5))]
     let id : Nat := 9
     let x : Nat := 8
     s.awake = true ∧ s.validator.running = some id ∧ s.heldObj id = false ∧ x ≠ id) ∧
    (let s : State := vs (fun v => { v with running := some 9 }) [(9, some (cobj 5))]
     let agent : Nat := 3
     let reserved : Nat := 0
     let v : Validator := s.validator
     s.coreUp agent = true ∧ reserved = 0 ∧ v.running ≠ none) ∧
    (let s : State := vs id [(9, some { cobj 5 with lost := true })]
     let agent : Nat := 3
     let reserved : Nat := 0
     let v : Validator := s.validator
     let id : Nat := BitVec.toNat v.arg
     let o : Obj := { cobj 5 with lost := true }
     s.coreUp agent = true ∧ reserved = 0 ∧ v.running = none ∧ s.obj id = some o ∧ o.lost = true) ∧
    (let s : State := vs (fun v => { v with running := some 9 }) [(9, some (cobj 5))]
     let read : ObjRead := []
     let id : Nat := 9
     let r : State × CheckResult := s.checkObj id read
     let code : Code := if s.validator.disturbed = true then eBondDigest else r.snd.code
     s.awake = true ∧ s.validator.running = some id ∧ s.heldObj id = false ∧ code ≠ sOk) ∧
    (let s : State := { vs (fun v => { v with running := some 9 }) [(9, some { cobj 5 with residence := .loam, map := [{ unit := 0, count := 1, first := 0 }] })] with units := [(0, { state := .inService, held := true })] }
     let id : Nat := 9
     s.awake = true ∧ s.validator.running = some id ∧ s.heldObj id = true) := by
  refine ⟨?_, ?_, ?_, ?_, ?_, ?_, ?_, ?_, ?_⟩ <;> first
    | decide +kernel
    | (repeat' apply And.intro) <;> first
      | decide +kernel


theorem witness_RegisterWritesByAccessCode :
    (let s : State := { bayS { plan := one, state := .ready } with relays := [(31, { state := 1 })] }
     let agent : Nat := 3
     let addr : Nat := 0x17E8
     let b : Nat := 63
     (s.coreUp agent = true ∨ s.awake = true ∧ agent = 32) ∧ agent < 32 ∧ b < 64 ∧ s.regAt addr ≠ none) ∧
    (let s : State := bayS { plan := one, state := .ready }
     let agent : Nat := 31
     let addr : Nat := 0x1100000
     (s.coreUp agent = true ∨ s.awake = true ∧ agent = 32) ∧ agent < 32 ∧ s.regAt addr ≠ none ∧ 131072 ≤ addr ∧
       (addr < 139460608 ∨ 139460864 ≤ addr) ∧ (addr < 156237824 ∨ 156238080 ≤ addr)) ∧
    (let s : State := bayS { plan := one, state := .ready }
     let agent : Nat := 31
     let addr : Nat := 0x8500050
     let v : Word := 1
     let k : Nat := 0
     (s.coreUp agent = true ∨ s.awake = true ∧ agent = 32) ∧ agent < 32 ∧ k < 2 ∧
       addr = 139460688 + 16777216 * k ∧ s.regAt addr ≠ none ∧ BitVec.toNat v % 4 = 1) ∧
    (let s : State := bayS { plan := one, state := .ready }
     let agent : Nat := 31
     let addr : Nat := 0x2018
     (s.coreUp agent = true ∨ s.awake = true ∧ agent = 32) ∧ agent < 32 ∧
       (addr = 8216 ∨ addr = 8204 ∨ addr = 28704 ∨ addr = 57376) ∧ s.regAt addr ≠ none) ∧
    (let s : State := bayS { plan := one, state := .ready }
     let agent : Nat := 31
     let addr : Nat := 0x2000
     let v : Word := 1
     (s.coreUp agent = true ∨ s.awake = true ∧ agent = 32) ∧ agent < 32 ∧ addr = 8192 ∧ BitVec.toNat v % 4 = 1) ∧
    (let s : State := bayS { plan := one, state := .ready }
     let agent : Nat := 31
     let addr : Nat := 0x7000
     let v : Word := 1
     (s.coreUp agent = true ∨ s.awake = true ∧ agent = 32) ∧ agent < 32 ∧ addr = 28672 ∧ BitVec.toNat v % 16 = 1) ∧
    (let s : State := bayS { plan := one, state := .ready }
     let agent : Nat := 31
     let addr : Nat := 0x57CC
     let c : Nat := 31
     (s.coreUp agent = true ∨ s.awake = true ∧ agent = 32) ∧ agent < 32 ∧ c < 32 ∧ addr = 20480 + 64 * c + 12 ∧
       ((fun c => (s.relay c).state = 0 ∨ (s.relay c).state = 3) c)) ∧
    (let s : State := bayS { plan := one, state := .ready }
     let agent : Nat := 31
     let addr : Nat := 0x17E4
     let v : Word := 1
     let b : Nat := 63
     (s.coreUp agent = true ∨ s.awake = true ∧ agent = 32) ∧ agent < 32 ∧ b < 64 ∧ addr = 4096 + 32 * b + 4 ∧
       BitVec.toNat v % 16 = 1) ∧
    (let s : State := bayS { plan := one, state := .ready }
     let agent : Nat := 31
     let addr : Nat := 0x57C0
     let v : Word := 1
     let c : Nat := 31
     (s.coreUp agent = true ∨ s.awake = true ∧ agent = 32) ∧ agent < 32 ∧ c < 32 ∧ addr = 20480 + 64 * c ∧
       BitVec.toNat v % 8 = 1) ∧
    (let s : State := bayS { plan := one, state := .ready }
     let agent : Nat := 31
     let addr : Nat := 0x8500054
     let k : Nat := 0
     (s.coreUp agent = true ∨ s.awake = true ∧ agent = 32) ∧ agent < 32 ∧ k < 2 ∧
       addr = 139460692 + 16777216 * k ∧ (k == 1) = s.boot.primaryS ∧ s.regAt addr ≠ none) ∧
    (let s : State := { bayS { plan := one, state := .ready } with relays := [(31, { state := 1 })] }
     let agent : Nat := 3
     let k : Nat := 1
     (s.coreUp agent = true ∨ s.awake = true ∧ agent = 32) ∧ agent < 32 ∧ k < 2) ∧
    (let s : State := { bayS { plan := one, state := .ready } with relays := [(31, { state := 1 })] }
     let agent : Nat := 3
     let c : Nat := 31
     (s.coreUp agent = true ∨ s.awake = true ∧ agent = 32) ∧ agent < 32 ∧ c < 32) ∧
    (let s : State := bayS { plan := one, state := .ready }
     let agent : Nat := 31
     let addr : Nat := 0x2004
     (s.coreUp agent = true ∨ s.awake = true ∧ agent = 32) ∧ agent < 32 ∧ addr = 8196) ∧
    (let s : State := bayS { plan := one, state := .ready }
     let agent : Nat := 31
     let addr : Nat := 0x2008
     (s.coreUp agent = true ∨ s.awake = true ∧ agent = 32) ∧ agent < 32 ∧ addr = 8200) ∧
    (let s : State := bayS { plan := one, state := .ready }
     let agent : Nat := 31
     let addr : Nat := 0xE028
     (s.coreUp agent = true ∨ s.awake = true ∧ agent = 32) ∧ agent < 32 ∧ addr = 57384) ∧
    (let s : State := bayS { plan := one, state := .ready }
     let agent : Nat := 31
     let addr : Nat := 0xF004
     (s.coreUp agent = true ∨ s.awake = true ∧ agent = 32) ∧ agent < 32 ∧ addr = 61444) ∧
    (let s : State := bayS { plan := one, state := .ready }
     let agent : Nat := 31
     let addr : Nat := 0x7024
     (s.coreUp agent = true ∨ s.awake = true ∧ agent = 32) ∧ agent < 32 ∧ addr = 28708) ∧
    (let s : State := bayS { plan := one, state := .ready }
     let agent : Nat := 31
     let addr : Nat := 0xC020
     (s.coreUp agent = true ∨ s.awake = true ∧ agent = 32) ∧ agent < 32 ∧ addr = 49184) ∧
    (let s : State := bayS { plan := one, state := .ready }
     let agent : Nat := 31
     let addr : Nat := 0x7000
     let v : Word := 2
     (s.coreUp agent = true ∨ s.awake = true ∧ agent = 32) ∧ agent < 32 ∧ addr = 28672 ∧ BitVec.toNat v % 16 = 2) ∧
    (let s : State := bayS { plan := one, state := .ready }
     let agent : Nat := 31
     let addr : Nat := 0x7000
     let v : Word := 3
     (s.coreUp agent = true ∨ s.awake = true ∧ agent = 32) ∧ agent < 32 ∧ addr = 28672 ∧ BitVec.toNat v % 16 = 3) ∧
    (let s : State := bayS { plan := one, state := .ready }
     let agent : Nat := 31
     let addr : Nat := 0x7000
     let v : Word := 4
     (s.coreUp agent = true ∨ s.awake = true ∧ agent = 32) ∧ agent < 32 ∧ addr = 28672 ∧ BitVec.toNat v % 16 = 4) ∧
    (let s : State := bayS { plan := one, state := .ready }
     let agent : Nat := 31
     let addr : Nat := 0x7000
     let v : Word := 5
     (s.coreUp agent = true ∨ s.awake = true ∧ agent = 32) ∧ agent < 32 ∧ addr = 28672 ∧ BitVec.toNat v % 16 = 5) ∧
    (let s : State := bayS { plan := one, state := .ready }
     let agent : Nat := 31
     let addr : Nat := 0x7000
     let v : Word := 6
     (s.coreUp agent = true ∨ s.awake = true ∧ agent = 32) ∧ agent < 32 ∧ addr = 28672 ∧ BitVec.toNat v % 16 = 6) ∧
    (let s : State := bayS { plan := one, state := .ready }
     let agent : Nat := 31
     let addr : Nat := 0x7000
     let v : Word := 7
     (s.coreUp agent = true ∨ s.awake = true ∧ agent = 32) ∧ agent < 32 ∧ addr = 28672 ∧ BitVec.toNat v % 16 = 7) ∧
    (let s : State := bayS { plan := one, state := .ready }
     let agent : Nat := 31
     let addr : Nat := 0x7000
     let v : Word := 8
     (s.coreUp agent = true ∨ s.awake = true ∧ agent = 32) ∧ agent < 32 ∧ addr = 28672 ∧ BitVec.toNat v % 16 = 8) ∧
    (let s : State := bayS { plan := one, state := .ready }
     let agent : Nat := 31
     let addr : Nat := 0x7000
     let v : Word := 9
     (s.coreUp agent = true ∨ s.awake = true ∧ agent = 32) ∧ agent < 32 ∧ addr = 28672 ∧ BitVec.toNat v % 16 = 9) ∧
    (let s : State := bayS { plan := one, state := .ready }
     let agent : Nat := 31
     let addr : Nat := 0x7014
     let i : Nat := 4
     (s.coreUp agent = true ∨ s.awake = true ∧ agent = 32) ∧ agent < 32 ∧ i < 5 ∧ addr = 28676 + 4 * i) ∧
    (let s : State := bayS { plan := one, state := .ready }
     let agent : Nat := 31
     let addr : Nat := 0x17E8
     let b : Nat := 63
     (s.coreUp agent = true ∨ s.awake = true ∧ agent = 32) ∧ agent < 32 ∧ b < 64 ∧ addr = 4096 + 32 * b + 8) ∧
    (let s : State := bayS { plan := one, state := .ready }
     let agent : Nat := 31
     let addr : Nat := 0x3FE8
     let b : Nat := 63
     (s.coreUp agent = true ∨ s.awake = true ∧ agent = 32) ∧ agent < 32 ∧ b < 64 ∧ addr = 14336 + 32 * b + 8) ∧
    (let s : State := bayS { plan := one, state := .ready }
     let agent : Nat := 31
     let addr : Nat := 0x3FEC
     let b : Nat := 63
     (s.coreUp agent = true ∨ s.awake = true ∧ agent = 32) ∧ agent < 32 ∧ b < 64 ∧ addr = 14336 + 32 * b + 12) ∧
    (let s : State := bayS { plan := one, state := .ready }
     let agent : Nat := 31
     let addr : Nat := 0x17E0
     let b : Nat := 63
     (s.coreUp agent = true ∨ s.awake = true ∧ agent = 32) ∧ agent < 32 ∧ b < 64 ∧ addr = 4096 + 32 * b) ∧
    (let s : State := bayS { plan := one, state := .ready }
     let agent : Nat := 31
     let addr : Nat := 0xA1FC
     let b : Nat := 63
     (s.coreUp agent = true ∨ s.awake = true ∧ agent = 32) ∧ agent < 32 ∧ b < 64 ∧ addr = 41216 + 4 * b) ∧
    (let s : State := bayS { plan := one, state := .ready }
     let agent : Nat := 31
     let addr : Nat := 0x17E4
     let v : Word := 2
     let b : Nat := 63
     (s.coreUp agent = true ∨ s.awake = true ∧ agent = 32) ∧ agent < 32 ∧ b < 64 ∧ addr = 4096 + 32 * b + 4 ∧
       BitVec.toNat v % 16 = 2) ∧
    (let s : State := bayS { plan := one, state := .ready }
     let agent : Nat := 31
     let addr : Nat := 0x17E4
     let v : Word := 3
     let b : Nat := 63
     (s.coreUp agent = true ∨ s.awake = true ∧ agent = 32) ∧ agent < 32 ∧ b < 64 ∧ addr = 4096 + 32 * b + 4 ∧
       BitVec.toNat v % 16 = 3) ∧
    (let s : State := bayS { plan := one, state := .ready }
     let agent : Nat := 31
     let addr : Nat := 0x17E4
     let v : Word := 4
     let b : Nat := 63
     (s.coreUp agent = true ∨ s.awake = true ∧ agent = 32) ∧ agent < 32 ∧ b < 64 ∧ addr = 4096 + 32 * b + 4 ∧
       BitVec.toNat v % 16 = 4) ∧
    (let s : State := bayS { plan := one, state := .ready }
     let agent : Nat := 31
     let addr : Nat := 0x17E4
     let v : Word := 5
     let b : Nat := 63
     (s.coreUp agent = true ∨ s.awake = true ∧ agent = 32) ∧ agent < 32 ∧ b < 64 ∧ addr = 4096 + 32 * b + 4 ∧
       BitVec.toNat v % 16 = 5) ∧
    (let s : State := bayS { plan := one, state := .ready }
     let agent : Nat := 31
     let addr : Nat := 0x17E4
     let v : Word := 6
     let b : Nat := 63
     (s.coreUp agent = true ∨ s.awake = true ∧ agent = 32) ∧ agent < 32 ∧ b < 64 ∧ addr = 4096 + 32 * b + 4 ∧
       BitVec.toNat v % 16 = 6) ∧
    (let s : State := bayS { plan := one, state := .ready }
     let agent : Nat := 31
     let addr : Nat := 0x17E4
     let v : Word := 7
     let b : Nat := 63
     (s.coreUp agent = true ∨ s.awake = true ∧ agent = 32) ∧ agent < 32 ∧ b < 64 ∧ addr = 4096 + 32 * b + 4 ∧
       BitVec.toNat v % 16 = 7) ∧
    (let s : State := bayS { plan := one, state := .ready }
     let agent : Nat := 31
     let addr : Nat := 0x57C0
     let v : Word := 2
     let c : Nat := 31
     (s.coreUp agent = true ∨ s.awake = true ∧ agent = 32) ∧ agent < 32 ∧ c < 32 ∧ addr = 20480 + 64 * c ∧
       BitVec.toNat v % 8 = 2) ∧
    (let s : State := bayS { plan := one, state := .ready }
     let agent : Nat := 31
     let addr : Nat := 0x57C0
     let v : Word := 3
     let c : Nat := 31
     (s.coreUp agent = true ∨ s.awake = true ∧ agent = 32) ∧ agent < 32 ∧ c < 32 ∧ addr = 20480 + 64 * c ∧
       BitVec.toNat v % 8 = 3) ∧
    (let s : State := bayS { plan := one, state := .ready }
     let agent : Nat := 31
     let addr : Nat := 0x57C0
     let v : Word := 4
     let c : Nat := 31
     (s.coreUp agent = true ∨ s.awake = true ∧ agent = 32) ∧ agent < 32 ∧ c < 32 ∧ addr = 20480 + 64 * c ∧
       BitVec.toNat v % 8 = 4) ∧
    (let s : State := bayS { plan := one, state := .ready }
     let agent : Nat := 31
     let addr : Nat := 0x9500054
     let k : Nat := 1
     (s.coreUp agent = true ∨ s.awake = true ∧ agent = 32) ∧ agent < 32 ∧ k < 2 ∧ addr = 139460692 + 16777216 * k) ∧
    (let s : State := bayS { plan := one, state := .ready }
     let agent : Nat := 31
     let addr : Nat := 0x8500050
     let v : Word := 2
     let k : Nat := 0
     (s.coreUp agent = true ∨ s.awake = true ∧ agent = 32) ∧ agent < 32 ∧ k < 2 ∧
       addr = 139460688 + 16777216 * k ∧ s.regAt addr ≠ none ∧ BitVec.toNat v % 4 = 2) ∧
    (let s : State := bayS { plan := one, state := .ready }
     let agent : Nat := 31
     let addr : Nat := 0x8500050
     let v : Word := 3
     let k : Nat := 0
     (s.coreUp agent = true ∨ s.awake = true ∧ agent = 32) ∧ agent < 32 ∧ k < 2 ∧
       addr = 139460688 + 16777216 * k ∧ s.regAt addr ≠ none ∧ BitVec.toNat v % 4 = 3) ∧
    (let s : State := { bayS { plan := one, state := .ready } with relays := [(31, { state := 1 })] }
     let agent : Nat := 3
     let i : Nat := 4
     (s.coreUp agent = true ∨ s.awake = true ∧ agent = 32) ∧ agent < 32 ∧ i < 5) ∧
    (let s : State := { bayS { plan := one, state := .ready } with relays := [(31, { state := 1 })] }
     let agent : Nat := 3
     let addr : Nat := 0x2018
     let width : Nat := 16
     (s.coreUp agent = true ∨ s.awake = true ∧ agent = 32) ∧
       (width ≠ 32 ∨ addr % 4 ≠ 0 ∨ s.regAt addr = none ∨ agent = 32)) ∧
    (let s : State := { bayS { plan := one, state := .ready } with relays := [(31, { state := 1 })] }
     let agent : Nat := 31
     let addr : Nat := 0x57CC
     let c : Nat := 31
     (s.coreUp agent = true ∨ s.awake = true ∧ agent = 32) ∧ agent < 32 ∧ c < 32 ∧ addr = 20480 + 64 * c + 12 ∧
       (¬(fun c => (s.relay c).state = 0 ∨ (s.relay c).state = 3) c)) := by
  refine ⟨?_, ?_, ?_, ?_, ?_, ?_, ?_, ?_, ?_, ?_, ?_, ?_, ?_, ?_, ?_, ?_, ?_, ?_, ?_, ?_, ?_, ?_, ?_, ?_, ?_, ?_, ?_, ?_, ?_, ?_, ?_, ?_, ?_, ?_, ?_, ?_, ?_, ?_, ?_, ?_, ?_, ?_, ?_, ?_, ?_, ?_, ?_⟩ <;> first
    | decide +kernel
    | (repeat' apply And.intro) <;> first
      | decide +kernel


theorem witness_AttentionRecords :
    (let s : State := pm (b2 wm ot [sw 1 (1 + 8) 4096 255] true) 4096
     let b : Nat := 63
     let n : Nat := 0
     let k : Brick := s.brick n
     let h : Word := 0
     let r : WorkRecord := workRecord (wm ++ zeros 221)
     let code : Code := recordCode k.conf r (s.headerOf b n r)
     let q : Word := 4096
     let p : Bytes := s.readBuffer b n q 0 (320 + 4 * r.dim * r.rows)
     let part : Nat := fieldLE p 8 1
     s.Running b n ∧ s.workOf b n = some (h, r) ∧ (¬(r.kind ≠ 2 ∧ r.kind ≠ 3)) ∧ (¬r.kind = 2) ∧ r.kind = 3 ∧
       k.outJobs = [] ∧ code = sOk ∧ State.partialsWhole k r = false ∧ s.matchingPartial b n r = some q ∧
       fieldLE p 9 1 + 1 = r.n ∧ fieldLE p 10 1 + 1 = r.rows ∧ fieldLE p 11 1 + 1 = r.k ∧ part < r.n ∧
       aget [] k.partials part = [] ∧ (∀ (y : Nat), y < r.n → y ≠ part → aget [] k.partials y ≠ [])) ∧
    (let s : State := b2 (wr 1 2 5) ot [] true
     let b : Nat := 63
     let n : Nat := 0
     let k : Brick := s.brick n
     let h : Word := 0
     let r : WorkRecord := workRecord (wr 1 2 5 ++ zeros 228)
     let code : Code := recordCode k.conf r (s.headerOf b n r)
     let ready : Prop := s.slotReady n r.out = true ∧ (r.stats = true → s.slotReady n r.statsOut = true ∧ r.statsOut ≠ r.out)
     s.Running b n ∧ s.workOf b n = some (h, r) ∧ (r.kind ≠ 2 ∧ r.kind ≠ 3) ∧ k.outJobs = [] ∧ code = sOk ∧
       ready ∧ k.refused = false ∧ (¬r.kind = 3)) ∧
    (let s : State := oj (b2 (wr 3 0 5) ot [] true)
     let b : Nat := 63
     let n : Nat := 0
     let k : Brick := s.brick n
     let h : Word := 0
     let r : WorkRecord := workRecord (wr 3 0 5 ++ zeros 228)
     let j : OutJob := { stream := 3, tiles := [], tag := 0 }
     let rest : List OutJob := []
     s.Running b n ∧ s.workOf b n = some (h, r) ∧ r.kind = 3 ∧ k.outJobs = j :: rest ∧
       s.slotReady n j.stream = true ∧ rest = []) ∧
    (let s : State := b2 (wr 2 0 5) ot [] true
     let b : Nat := 63
     let n : Nat := 0
     let k : Brick := s.brick n
     let h : Word := 0
     let r : WorkRecord := workRecord (wr 2 0 5 ++ zeros 228)
     let code : Code := recordCode k.conf r (s.headerOf b n r)
     let ready : Prop := s.slotReady n r.out = true ∧ (r.stats = true → s.slotReady n r.statsOut = true ∧ r.statsOut ≠ r.out)
     s.Running b n ∧ s.workOf b n = some (h, r) ∧ r.kind = 2 ∧ k.outJobs = [] ∧ code = sOk ∧ ready ∧
       k.refused = false) ∧
    (let s : State := kk (fun k => { k with partials := [(0, zeros 448)] }) (b2 (wr 3 0 5) ot [] true)
     let b : Nat := 63
     let n : Nat := 0
     let k : Brick := s.brick n
     let h : Word := 0
     let r : WorkRecord := workRecord (wr 3 0 5 ++ zeros 228)
     let code : Code := recordCode k.conf r (s.headerOf b n r)
     let ready : Prop := s.slotReady n r.out = true ∧ (r.stats = true → s.slotReady n r.statsOut = true ∧ r.statsOut ≠ r.out)
     s.Running b n ∧ s.workOf b n = some (h, r) ∧ r.kind = 3 ∧ k.outJobs = [] ∧ code = sOk ∧
       State.partialsWhole k r = true ∧ ready ∧ k.refused = false) ∧
    (let s : State := oj (b2 (wr 1 2 5) ot [] true)
     let b : Nat := 63
     let n : Nat := 0
     let k : Brick := s.brick n
     let h : Word := 0
     let r : WorkRecord := workRecord (wr 1 2 5 ++ zeros 228)
     let j : OutJob := { stream := 3, tiles := [], tag := 0 }
     let rest : List OutJob := []
     s.Running b n ∧ s.workOf b n = some (h, r) ∧ (r.kind ≠ 2 ∧ r.kind ≠ 3) ∧ k.outJobs = j :: rest ∧
       s.slotReady n j.stream = true ∧ rest = []) ∧
    (let s : State := oj (b2 (wr 2 0 5) ot [] true)
     let b : Nat := 63
     let n : Nat := 0
     let k : Brick := s.brick n
     let h : Word := 0
     let r : WorkRecord := workRecord (wr 2 0 5 ++ zeros 228)
     let j : OutJob := { stream := 3, tiles := [], tag := 0 }
     let rest : List OutJob := []
     s.Running b n ∧ s.workOf b n = some (h, r) ∧ r.kind = 2 ∧ k.outJobs = j :: rest ∧
       s.slotReady n j.stream = true ∧ rest = []) ∧
    (let s : State := b2 (wr 3 1 5) ot [] true
     let b : Nat := 63
     let n : Nat := 0
     let k : Brick := s.brick n
     let h : Word := 0
     let r : WorkRecord := workRecord (wr 3 1 5 ++ zeros 228)
     let code : Code := recordCode k.conf r (s.headerOf b n r)
     s.Running b n ∧ s.workOf b n = some (h, r) ∧ r.kind = 3 ∧ k.outJobs = [] ∧ code ≠ sOk) ∧
    (let s : State := oj (b2 (wr 3 0 5) id [] true)
     let b : Nat := 63
     let n : Nat := 0
     let k : Brick := s.brick n
     let h : Word := 0
     let r : WorkRecord := workRecord (wr 3 0 5 ++ zeros 228)
     let j : OutJob := { stream := 3, tiles := [], tag := 0 }
     let rest : List OutJob := []
     s.Running b n ∧ s.workOf b n = some (h, r) ∧ r.kind = 3 ∧ k.outJobs = j :: rest ∧
       s.slotReady n j.stream = false) ∧
    (let s : State := rn [mode 3]
     let b : Nat := 63
     let n : Nat := 0
     s.Running b n ∧ s.workOf b n = none) ∧
    (let s : State := b2 (wr 1 2 5) id [] true
     let b : Nat := 63
     let n : Nat := 0
     let k : Brick := s.brick n
     let h : Word := 0
     let r : WorkRecord := workRecord (wr 1 2 5 ++ zeros 228)
     let code : Code := recordCode k.conf r (s.headerOf b n r)
     s.Running b n ∧ s.workOf b n = some (h, r) ∧ (r.kind ≠ 2 ∧ r.kind ≠ 3) ∧ k.outJobs = [] ∧ code = sOk ∧
       s.slotReady n r.out = false) ∧
    (let s : State := b2 (wr 2 0 5) id [] true
     let b : Nat := 63
     let n : Nat := 0
     let k : Brick := s.brick n
     let h : Word := 0
     let r : WorkRecord := workRecord (wr 2 0 5 ++ zeros 228)
     let code : Code := recordCode k.conf r (s.headerOf b n r)
     s.Running b n ∧ s.workOf b n = some (h, r) ∧ r.kind = 2 ∧ k.outJobs = [] ∧ code = sOk ∧
       s.slotReady n r.out = false) ∧
    (let s : State := b2 (wr 3 0 5) id [] true
     let b : Nat := 63
     let n : Nat := 0
     let k : Brick := s.brick n
     let h : Word := 0
     let r : WorkRecord := workRecord (wr 3 0 5 ++ zeros 228)
     let code : Code := recordCode k.conf r (s.headerOf b n r)
     s.Running b n ∧ s.workOf b n = some (h, r) ∧ r.kind = 3 ∧ k.outJobs = [] ∧ code = sOk ∧
       State.partialsWhole k r = false ∧ s.matchingPartial b n r = none) ∧
    (let s : State := b2 (wr 2 1 5) ot [] true
     let b : Nat := 63
     let n : Nat := 0
     let k : Brick := s.brick n
     let h : Word := 0
     let r : WorkRecord := workRecord (wr 2 1 5 ++ zeros 228)
     let code : Code := recordCode k.conf r (s.headerOf b n r)
     s.Running b n ∧ s.workOf b n = some (h, r) ∧ r.kind = 2 ∧ k.outJobs = [] ∧ code ≠ sOk) ∧
    (let s : State := b2 (wr 0 0 5) ot [] true
     let b : Nat := 63
     let n : Nat := 0
     let k : Brick := s.brick n
     let h : Word := 0
     let r : WorkRecord := workRecord (wr 0 0 5 ++ zeros 228)
     let code : Code := recordCode k.conf r (s.headerOf b n r)
     s.Running b n ∧ s.workOf b n = some (h, r) ∧ (r.kind ≠ 2 ∧ r.kind ≠ 3) ∧ k.outJobs = [] ∧ code ≠ sOk) ∧
    (let s : State := oj (b2 (wr 1 2 5) id [] true)
     let b : Nat := 63
     let n : Nat := 0
     let k : Brick := s.brick n
     let h : Word := 0
     let r : WorkRecord := workRecord (wr 1 2 5 ++ zeros 228)
     let j : OutJob := { stream := 3, tiles := [], tag := 0 }
     let rest : List OutJob := []
     s.Running b n ∧ s.workOf b n = some (h, r) ∧ (r.kind ≠ 2 ∧ r.kind ≠ 3) ∧ k.outJobs = j :: rest ∧
       s.slotReady n j.stream = false) ∧
    (let s : State := oj (b2 (wr 2 0 5) id [] true)
     let b : Nat := 63
     let n : Nat := 0
     let k : Brick := s.brick n
     let h : Word := 0
     let r : WorkRecord := workRecord (wr 2 0 5 ++ zeros 228)
     let j : OutJob := { stream := 3, tiles := [], tag := 0 }
     let rest : List OutJob := []
     s.Running b n ∧ s.workOf b n = some (h, r) ∧ r.kind = 2 ∧ k.outJobs = j :: rest ∧
       s.slotReady n j.stream = false) ∧
    (let s : State := kk (fun k => { k with partials := [(0, zeros 448)] }) (b2 (wr 3 0 5) (fun e => { ot e with free := [] }) [] true)
     let b : Nat := 63
     let n : Nat := 0
     let k : Brick := s.brick n
     let h : Word := 0
     let r : WorkRecord := workRecord (wr 3 0 5 ++ zeros 228)
     let code : Code := recordCode k.conf r (s.headerOf b n r)
     s.Running b n ∧ s.workOf b n = some (h, r) ∧ r.kind = 3 ∧ k.outJobs = [] ∧ code = sOk ∧
       State.partialsWhole k r = true ∧ s.slotReady n r.out = false) := by
  refine ⟨?_, ?_, ?_, ?_, ?_, ?_, ?_, ?_, ?_, ?_, ?_, ?_, ?_, ?_, ?_, ?_, ?_, ?_⟩ <;> first
    | decide +kernel
    | (repeat' apply And.intro) <;> first
      | decide +kernel
      | (simp only [State.Running]; (repeat' apply And.intro) <;> decide +kernel)

theorem witness_OptimiserUpdatesTiles :
    (let x : (Nat → Instr) × Bool × Nat := (Instr.momentum, true, 1)
     let s : State := kk (fun k => { k with results := List.replicate 15 rt }) (os (ur 2 0) [0, 1, 2] 0)
     let b : Nat := 63
     let n : Nat := 0
     let k : Brick := s.brick n
     let bs : Bytes := ur 2 0
     let g : OperandTile := tl 0
     let w : OperandTile := tl 1
     let m : OperandTile := tl 2
     let v : OperandTile := tl 1
     s.Running b n ∧ s.heldRecord b n 64 = some bs ∧ functionOf k.conf = 4 ∧ k.results.length < 16 ∧
       decide ((updateRecord bs).kind = 2) = x.snd.fst ∧ tileFor k 0 = some g ∧ tileFor k 1 = some w ∧
       tileFor k 2 = some m ∧ tileFor k x.snd.snd = some v ∧ updateBad k.conf (updateRecord bs) = false ∧
       s.awake = true ∧ s.stepAborted = false ∧ ((s.bay b).plan.role ≠ 4 ∨ (s.bay b).state ≠ BayState.stopped)) ∧
    (let s : State := lb .stopped eStepAbort
     let b : Nat := 63
     s.awake = true ∧ s.stepAborted = true ∧ b < 64 ∧ (s.bay b).plan.role = 4 ∧ (s.bay b).state = BayState.stopped) ∧
    (let x : (Nat → Instr) × Bool × Nat := (Instr.momentum, true, 1)
     let s : State := os (ur 2 3) [0, 1, 2] 0
     let b : Nat := 63
     let n : Nat := 0
     let k : Brick := s.brick n
     let bs : Bytes := ur 2 3
     let g : OperandTile := tl 0
     let w : OperandTile := tl 1
     let m : OperandTile := tl 2
     let v : OperandTile := tl 1
     s.Running b n ∧ functionOf k.conf = 4 ∧ s.heldRecord b n 64 = some bs ∧ k.results.length < 16 ∧
       decide ((updateRecord bs).kind = 2) = x.snd.fst ∧ tileFor k 0 = some g ∧ tileFor k 1 = some w ∧
       tileFor k 2 = some m ∧ tileFor k x.snd.snd = some v ∧ updateBad k.conf (updateRecord bs) = true ∧
       k.updated = 0) ∧
    (let s : State := rn []
     let b : Nat := 63
     let n : Nat := 0
     let y : Nat := 1
     s.Running b n ∧ y ≠ n) ∧
    (let s : State := rn []
     let b : Nat := 63
     let n : Nat := 0
     let k : Brick := s.brick n
     s.Running b n ∧
       (functionOf k.conf ≠ 4 ∨ s.heldRecord b n 64 = none ∨ 16 ≤ k.results.length ∨ tileFor k 0 = none)) ∧
    (let w : Nat := 0x3F800000
     let m : Nat := 0xFF800000
     ((decodeFmt 1 m).isNan = true ∨ (decodeFmt 1 m).isInf = true ∨ (decodeFmt 1 w).isNan = true ∨ (decodeFmt 1 w).isInf = true)) ∧
    (let x : (Nat → Instr) × Bool × Nat := (Instr.adamw, false, 3)
     let s : State := os (ur 2 0) [0, 1, 2] 0
     let b : Nat := 63
     let n : Nat := 0
     let bs : Bytes := ur 2 0
     s.Running b n ∧ s.heldRecord b n 64 = some bs ∧ decide ((updateRecord bs).kind = 2) ≠ x.snd.fst) ∧
    (let x : (Nat → Instr) × Bool × Nat := (Instr.momentum, true, 1)
     let s : State := os (ur 2 3) [0, 1, 2] 1024
     let b : Nat := 63
     let n : Nat := 0
     let k : Brick := s.brick n
     let bs : Bytes := ur 2 3
     let g : OperandTile := tl 0
     let w : OperandTile := tl 1
     let m : OperandTile := tl 2
     let v : OperandTile := tl 1
     s.Running b n ∧ functionOf k.conf = 4 ∧ s.heldRecord b n 64 = some bs ∧ k.results.length < 16 ∧
       decide ((updateRecord bs).kind = 2) = x.snd.fst ∧ tileFor k 0 = some g ∧ tileFor k 1 = some w ∧
       tileFor k 2 = some m ∧ tileFor k x.snd.snd = some v ∧ updateBad k.conf (updateRecord bs) = true ∧
       k.updated ≠ 0) := by
  refine ⟨?_, ?_, ?_, ?_, ?_, ?_, ?_, ?_⟩ <;> first
    | decide +kernel
    | (repeat' apply And.intro) <;> first
      | decide +kernel
      | (simp only [State.Running]; (repeat' apply And.intro) <;> decide +kernel)

theorem witness_CheckpointsToTheBuddy :
    (let s : State := job { state := 3, sendTick := 90, sending := 4, awaiting := [1] } 1 0
     let k : Ckpt := s.ckpt
     let source : Nat := 1
     let low : Word := 4
     s.awake = true ∧ s.footing.train.enable = true ∧ s.ckptDests ≠ [] ∧ s.system.spare = false ∧
       s.writingSlot source = none ∧ s.fetchingFrom ≠ some source ∧ k.state = 3 ∧
       k.awaiting.contains source = true ∧ low = BitVec.ofNat 32 k.sending ∧ k.awaiting.erase source = [] ∧
       (k.state = 2 ∨ k.state = 3) ∧ k.sendTick + s.footing.train.ckptTimeout ≤ s.tb.up) ∧
    (let s : State := job { state := 1 } 1 100000
     let k : Ckpt := s.ckpt
     let objs : List Nat := []
     let reads : List (Nat × ObjRead) := []
     let r : State × Option (Bytes × Bytes) := s.ckptBody objs reads
     let body : Bytes × Bytes := ((job { state := 1 } 1 0).ckptBody [] []).2.getD ([], [])
     let img : Bytes × Bytes := r.fst.ckptImage body 1
     let d : Nat × Bool := (1, false)
     s.awake = true ∧ s.footing.train.enable = true ∧ s.ckptDests ≠ [] ∧ s.system.spare = false ∧
       k.sending < s.turn.step ∧ k.state < 2 ∧ objs.any s.heldObj = false ∧ r.snd = some body ∧
       r.fst.ckptTooBig img.snd = false ∧ s.ckptDests = [d] ∧
       (k.state < 2 ∨ s.tb.up < k.sendTick + s.footing.train.ckptTimeout)) ∧
    (let s : State := job { state := 1 } 1 2
     let source : Nat := 1
     let data : Bytes := hd 1 7
     let i : Nat := 1
     let j : Nat := 0
     s.awake = true ∧ s.fetchingFrom ≠ some source ∧ fieldLE data 0 4 = State.ckptMagic ∧
       s.slotFor source (fieldLE data 8 8) = some i ∧ List.length data / 64 ≤ s.slotSectors ∧ fieldLE data 6 1 = 1 ∧
       j ≠ i) ∧
    (let s : State := job { state := 1, slots := [(1, { state := 1, step := 7, source := 1 })] } 1 4
     let source : Nat := 1
     let offset : Nat := 1
     let data : Bytes := hd 1 7
     let i : Nat := 1
     s.awake = true ∧ s.writingSlot source = some i ∧ (offset ≠ 0 ∨ fieldLE data 0 4 ≠ State.ckptMagic) ∧
       (32 ≤ i ∨ offset + List.length data / 64 ≤ s.slotSectors)) ∧
    (let s : State := job {} 0 1000
     let k : Ckpt := s.ckpt
     let objs : List Nat := []
     s.awake = true ∧ s.footing.train.enable = true ∧
       (s.ckptDests = [] ∨ s.system.spare = true ∨ s.turn.step ≤ k.sending ∨ 2 ≤ k.state ∨ objs.any s.heldObj = true)) ∧
    (let s : State := job {} 0 1000
     let source : Nat := 1
     let offset : Nat := 1
     let data : Bytes := hd 1 7
     s.awake = true ∧ s.writingSlot source = none ∧ s.fetchingFrom ≠ some source ∧
       (offset ≠ 0 ∨ fieldLE data 0 4 ≠ State.ckptMagic)) ∧
    (let s : State := job {} 0 1000
     let k : Ckpt := s.ckpt
     let source : Nat := 1
     let low : Word := 4
     s.awake = true ∧ (k.state ≠ 3 ∨ k.awaiting.contains source = false ∨ low ≠ BitVec.ofNat 32 k.sending)) ∧
    (let s : State := job { state := 1 } 1 2
     let source : Nat := 1
     let data : Bytes := hd 2 7
     let i : Nat := 1
     s.awake = true ∧ s.fetchingFrom ≠ some source ∧ fieldLE data 0 4 = State.ckptMagic ∧
       s.slotFor source (fieldLE data 8 8) = some i ∧ List.length data / 64 ≤ s.slotSectors ∧ fieldLE data 6 1 = 2) ∧
    (let s : State := job { state := 3, sendTick := 91, sending := 4, awaiting := [1, 2] } 1 0
     let k : Ckpt := s.ckpt
     let source : Nat := 1
     let low : Word := 4
     s.awake = true ∧ k.state = 3 ∧ k.awaiting.contains source = true ∧ low = BitVec.ofNat 32 k.sending ∧
       k.awaiting.erase source ≠ []) ∧
    (let s : State := job { state := 1 } 1 2
     let k : Ckpt := s.ckpt
     let objs : List Nat := []
     let reads : List (Nat × ObjRead) := []
     let r : State × Option (Bytes × Bytes) := s.ckptBody objs reads
     let body : Bytes × Bytes := ((job { state := 1 } 1 0).ckptBody [] []).2.getD ([], [])
     let img : Bytes × Bytes := r.fst.ckptImage body 1
     s.awake = true ∧ s.footing.train.enable = true ∧ s.ckptDests ≠ [] ∧ s.system.spare = false ∧
       k.sending < s.turn.step ∧ k.state < 2 ∧ objs.any s.heldObj = false ∧ r.snd = some body ∧
       r.fst.ckptTooBig img.snd = true) ∧
    (let s : State := { job { state := 1 } 1 1000 with objs := [(9, some { cobj 2 with lost := false })] }
     let k : Ckpt := s.ckpt
     let objs : List Nat := [9]
     let reads : List (Nat × ObjRead) := [(9, [(0, [(0, .uncorrectable)])])]
     let r : State × Option (Bytes × Bytes) := s.ckptBody objs reads
     s.awake = true ∧ s.footing.train.enable = true ∧ s.ckptDests ≠ [] ∧ s.system.spare = false ∧
       k.sending < s.turn.step ∧ k.state < 2 ∧ objs.any s.heldObj = false ∧ r.snd = none) := by
  refine ⟨?_, ?_, ?_, ?_, ?_, ?_, ?_, ?_, ?_, ?_, ?_⟩ <;> first
    | decide +kernel
    | (repeat' apply And.intro) <;> first
      | decide +kernel


end EnginesW

/-! ### Witnesses: Sessions -/

namespace SessionsW

def sv (f : Footing → Footing) (g : Serving → Serving) : State := { fp (f { service := [(5, 64, 6), (7, 64, 8)], svcUdp := 77, idleTicks := 100, retainTicks := 50 }) with serving := g {}, tb := { tick := 2 ^ 21, up := 2 ^ 21 } }
def pay : Bytes := leBytes 1 1 ++ leBytes 1 1 ++ leBytes 2 116 ++ zeros 16 ++ leBytes 56 5 ++ zeros 40
def udpB (sum : Nat) (p : Bytes) : Bytes := beBytes 2 99 ++ beBytes 2 77 ++ beBytes 2 (8 + p.length) ++ beBytes 2 sum ++ p
def csum (src dst : Nat) (p : Bytes) : Nat := 65535 - (sum16 (beBytes 16 src ++ beBytes 16 dst ++ beBytes 4 (8 + p.length) ++ [0, 0, 0, 17] ++ udpB 0 p)) % 65535
def fr (src dst : Nat) (p : Bytes) : Bytes := zeros 12 ++ [0x86, 0xDD] ++ [0x60, 0, 0, 0] ++ beBytes 2 (8 + p.length) ++ [17, 64] ++ beBytes 16 src ++ beBytes 16 dst ++ udpB (csum src dst p) p
def nd : Bytes := zeros 12 ++ [0x86, 0xDD] ++ [0x60, 0, 0, 0] ++ beBytes 2 24 ++ [58, 64] ++ beBytes 16 3 ++ beBytes 16 5 ++ [135] ++ zeros 23
def ses (f : Session → Session) : Session := f { id := 11, port := 0, channel := 0, addr := 3, udp := 99, isOpen := true, h := [1], rxKey := List.replicate 32 7, txKey := List.replicate 32 8, rxIv := zeros 12, txIv := zeros 12, txSeq := 3, rxHigh := 5, rxSeen := [4, 3], lastFrame := 2 ^ 21 - 5, acceptTick := 0, tagFails := 0, inbox := [] }
def ss (f : Session → Session) (rq : List Request) : State := sv id (fun x => { x with sessions := [ses f], requests := rq })
def rcd (op : Nat) (req : Nat) (b : Bytes) : Bytes := sealedRecord op 0 req b
def rfr (seq : Nat) (r : Bytes) : Bytes :=
  let head := frameHead 0x10 (36 + r.length) 11 seq
  let c := gcmSeal (List.replicate 32 7) (recNonce (zeros 12) seq) head r
  head ++ c.1 ++ c.2
def hel : Bytes := leBytes 1 1 ++ leBytes 1 1 ++ leBytes 2 116 ++ zeros 16 ++ leBytes 56 5 ++ zeros 40
def ak (s : State) : State := { s with cs := { s.cs with akReady := true, entropyN := 1, entropyS := 1, akPriv := zeros 57 } }
def good1 : Session := { ses id with isOpen := true, inbox := [] }
def inb (op : Nat) (r : Bytes) (f : Session → Session) (rq : List Request) : State := ss (fun v => f { v with inbox := [r] }) rq
def nx (op : Nat) (s : State) : State := match s.takeOp 0 11 op with | some x => x.2.2 | none => {}
def nv (op : Nat) (s : State) : Session := match s.takeOp 0 11 op with | some x => x.1 | none => ses id

theorem witness_ServicePortFrames :
    (let s : State := sv id id
     let e : Nat := 1
     let source : Nat := 8
     let target : Nat := 5
     s.awake = true ∧ e < 2 ∧ s.footing.present = true ∧ target ≠ s.serviceAddr e ∧ source = s.serviceGateway e ∧
       (source ≠ s.serviceGateway e ∨ target ≠ s.serviceGateway e)) ∧
    (let s : State := sv id id
     let e : Nat := 1
     let frame : Bytes := nd
     let full : Bool := false
     s.awake = true ∧ e < 2 ∧ s.footing.present = true ∧ full = false ∧
       s.classify e frame = State.FrameClass.neighbour) ∧
    (let s : State := sv id id
     let e : Nat := 0
     let target : Nat := 5
     s.awake = true ∧ e < 2 ∧ s.footing.present = true ∧ target = s.serviceAddr e) ∧
    (let s : State := sv id id
     let e : Nat := 1
     let source : Nat := 8
     let target : Nat := 8
     s.awake = true ∧ e < 2 ∧ s.footing.present = true ∧ source = s.serviceGateway e ∧ target = s.serviceGateway e) ∧
    (let s : State := sv id id
     let e : Nat := 1
     let frame : Bytes := nd
     let full : Bool := true
     s.awake = true ∧ e < 2 ∧ s.footing.present = true ∧
       (full = true ∨ s.classify e frame = State.FrameClass.drop)) ∧
    (let s : State := sv id id
     let e : Nat := 0
     let frame : Bytes := fr 3 5 pay
     let full : Bool := false
     let addr : Nat := 3
     let udp : Nat := 99
     let payload : Bytes := pay
     s.awake = true ∧ e < 2 ∧ s.footing.present = true ∧ full = false ∧
       s.classify e frame = State.FrameClass.service addr udp payload) := by
  refine ⟨?_, ?_, ?_, ?_, ?_, ?_⟩ <;> first
    | decide +kernel
    | (repeat' apply And.intro) <;> first
      | decide +kernel


theorem witness_SessionsOpenAndTakeRecords :
    (let s : State := ak (sv id (fun x => { x with port1 := { hellos := [(3, 63)] } }))
     let e : Nat := 1
     let addr : Nat := 3
     let f : Bytes := hel
     let code : Code := s.helloCode e addr (List.drop 20 f) (List.take 56 (s.drawBytes 96))
     code = sOk →
       s.awake = true ∧ e < 2 ∧ s.footing.present = true ∧ frameType f = 1 ∧ frameOk f = true ∧
       List.length f = 116 ∧ aget 0 (s.svPort e).hellos addr < 64 ∧ s.cs.akReady = true ∧
       s.drbgServes (e == 1) = true) ∧
    (let s : State := ss id []
     let e : Nat := 0
     let f : Bytes := rfr 9 (rcd 3 1 [])
     let id : Nat := fieldLE f 4 8
     let seq : Nat := fieldLE f 12 8
     let v : Session := ses (fun x => x)
     s.awake = true ∧ e < 2 ∧ s.footing.present = true ∧ frameType f = 16 ∧ frameOk f = true ∧
       s.sess e id = some v ∧
       (gcmOpen v.rxKey (recNonce v.rxIv seq) (List.take 20 f) (slice f 20 (List.length f - 36)) (List.drop (List.length f - 16) f)).isSome = true ∧
       seq + 64 ≥ v.rxHigh ∧ (¬seq ∈ v.rxSeen) ∧ v.isOpen = true) ∧
    (let s : State := sv id id
     let e : Nat := 1
     let f : Bytes := rfr 9 (rcd 3 1 [])
     let id : Nat := fieldLE f 4 8
     s.awake = true ∧ e < 2 ∧ s.footing.present = true ∧ frameType f ≠ 1 ∧ frameType f = 16 ∧ frameOk f = true ∧
       s.sess e id = none) ∧
    (let s : State := ss id []
     let e : Nat := 0
     let f : Bytes := (rfr 9 (rcd 3 1 [])).set 25 0
     let id : Nat := fieldLE f 4 8
     let seq : Nat := fieldLE f 12 8
     let v : Session := ses (fun x => x)
     s.awake = true ∧ e < 2 ∧ s.footing.present = true ∧ frameType f = 16 ∧ frameOk f = true ∧
       s.sess e id = some v ∧
       (gcmOpen v.rxKey (recNonce v.rxIv seq) (List.take 20 f) (slice f 20 (List.length f - 36)) (List.drop (List.length f - 16) f)).isSome = false ∧
       v.tagFails ≠ 15) ∧
    (let s : State := inb 1 (rcd 1 0 [0xFF]) (fun v => { v with isOpen := false }) []
     let e : Nat := 0
     let id : Nat := 11
     let v : Session := nv 1 (inb 1 (rcd 1 0 [0xFF]) (fun v => { v with isOpen := false }) [])
     let r : Bytes := rcd 1 0 [0xFF]
     let u : State := nx 1 (inb 1 (rcd 1 0 [0xFF]) (fun v => { v with isOpen := false }) [])
     let good : Prop := if s.footing.clientAuth = true then ∃ k, k ∈ s.footing.clients ∧ List.find? (fun x => x.fst == fieldLE (List.drop 12 r) 0 1) s.footing.clients = some k ∧ (List.drop 12 r).length = 115 ∧ edVerify k.snd "Gnolis client" v.h (List.drop 1 (List.drop 12 r)) = true else List.drop 12 r = [255]
     s.awake = true ∧ e < 2 ∧ s.footing.present = true ∧ s.takeOp e id 1 = some (v, r, u) ∧ good) ∧
    (let s : State := sv id id
     let e : Nat := 1
     let f : Bytes := hel.take 115
     s.awake = true ∧ e < 2 ∧ s.footing.present = true ∧ frameType f = 1 ∧
       (frameOk f = false ∨ List.length f ≠ 116)) ∧
    (let s : State := ss id []
     let e : Nat := 0
     let f : Bytes := rfr 4 (rcd 3 1 [])
     let id : Nat := fieldLE f 4 8
     let seq : Nat := fieldLE f 12 8
     let v : Session := ses (fun x => x)
     s.awake = true ∧ e < 2 ∧ s.footing.present = true ∧ frameType f = 16 ∧ frameOk f = true ∧
       s.sess e id = some v ∧
       (gcmOpen v.rxKey (recNonce v.rxIv seq) (List.take 20 f) (slice f 20 (List.length f - 36)) (List.drop (List.length f - 16) f)).isSome = true ∧
       (v.rxHigh ≠ 0 ∧ seq + 64 < v.rxHigh ∨ seq ∈ v.rxSeen)) ∧
    (let s : State := sv id (fun x => { x with port0 := { hellos := [(3, 64)] } })
     let e : Nat := 0
     let addr : Nat := 3
     let f : Bytes := hel
     s.awake = true ∧ e < 2 ∧ s.footing.present = true ∧ frameType f = 1 ∧ frameOk f = true ∧
       List.length f = 116 ∧ 64 ≤ aget 0 (s.svPort e).hellos addr) ∧
    (let s : State := { ak (sv id id) with cs := { (ak (sv id id)).cs with entropyN := 2, entropyS := 2 } }
     let e : Nat := 1
     let addr : Nat := 3
     let f : Bytes := hel
     s.awake = true ∧ e < 2 ∧ s.footing.present = true ∧ frameType f = 1 ∧ frameOk f = true ∧
       List.length f = 116 ∧ aget 0 (s.svPort e).hellos addr < 64 ∧ s.cs.akReady = true ∧
       s.drbgServes (e == 1) = false) ∧
    (let s : State := ss (fun v => { v with tagFails := 15 }) []
     let e : Nat := 0
     let f : Bytes := (rfr 9 (rcd 3 1 [])).set 25 0
     let id : Nat := fieldLE f 4 8
     let seq : Nat := fieldLE f 12 8
     let v : Session := ses (fun v => { v with tagFails := 15 })
     s.awake = true ∧ e < 2 ∧ s.footing.present = true ∧ frameType f = 16 ∧ frameOk f = true ∧
       s.sess e id = some v ∧
       (gcmOpen v.rxKey (recNonce v.rxIv seq) (List.take 20 f) (slice f 20 (List.length f - 36)) (List.drop (List.length f - 16) f)).isSome = false ∧
       v.tagFails = 15) ∧
    (let s : State := ak (sv id (fun x => { x with port1 := { hellos := [(3, 63)] } }))
     let e : Nat := 1
     let addr : Nat := 3
     let f : Bytes := hel.set 108 3
     let code : Code := s.helloCode e addr (List.drop 20 f) (List.take 56 (s.drawBytes 96))
     s.awake = true ∧ e < 2 ∧ s.footing.present = true ∧ frameType f = 1 ∧ frameOk f = true ∧
       List.length f = 116 ∧ aget 0 (s.svPort e).hellos addr < 64 ∧ s.cs.akReady = true ∧
       s.drbgServes (e == 1) = true ∧ code ≠ sOk) ∧
    (let s : State := inb 1 (rcd 1 0 [0xFE]) (fun v => { v with isOpen := false }) []
     let e : Nat := 0
     let id : Nat := 11
     let v : Session := nv 1 (inb 1 (rcd 1 0 [0xFE]) (fun v => { v with isOpen := false }) [])
     let r : Bytes := rcd 1 0 [0xFE]
     let u : State := nx 1 (inb 1 (rcd 1 0 [0xFF]) (fun v => { v with isOpen := false }) [])
     let good : Prop := if s.footing.clientAuth = true then ∃ k, k ∈ s.footing.clients ∧ List.find? (fun x => x.fst == fieldLE (List.drop 12 r) 0 1) s.footing.clients = some k ∧ (List.drop 12 r).length = 115 ∧ edVerify k.snd "Gnolis client" v.h (List.drop 1 (List.drop 12 r)) = true else List.drop 12 r = [255]
     s.awake = true ∧ e < 2 ∧ s.footing.present = true ∧ s.takeOp e id 1 = some (v, r, u) ∧ (¬good)) := by
  refine ⟨fun _ => ?_, ?_, ?_, ?_, ?_, ?_, ?_, ?_, ?_, ?_, ?_, ?_⟩
  · first
      | decide +kernel
      | (repeat' apply And.intro) <;> first
        | decide +kernel

  · first
      | decide +kernel
      | (repeat' apply And.intro) <;> first
        | decide +kernel

  · first
      | decide +kernel
      | (repeat' apply And.intro) <;> first
        | decide +kernel

  · first
      | decide +kernel
      | (repeat' apply And.intro) <;> first
        | decide +kernel

  · first
      | decide +kernel
      | (repeat' apply And.intro) <;> first
        | decide +kernel

  · first
      | decide +kernel
      | (repeat' apply And.intro) <;> first
        | decide +kernel

  · first
      | decide +kernel
      | (repeat' apply And.intro) <;> first
        | decide +kernel

  · first
      | decide +kernel
      | (repeat' apply And.intro) <;> first
        | decide +kernel

  · first
      | decide +kernel
      | (repeat' apply And.intro) <;> first
        | decide +kernel

  · first
      | decide +kernel
      | (repeat' apply And.intro) <;> first
        | decide +kernel

  · first
      | decide +kernel
      | (repeat' apply And.intro) <;> first
        | decide +kernel

  · first
      | decide +kernel
      | (repeat' apply And.intro) <;> first
        | decide +kernel


end SessionsW

/-! ### Witnesses: Session records and serving steps -/

namespace RecordsW

def sv (f : Footing → Footing) (g : Serving → Serving) : State := { fp (f { service := [(5, 64, 6), (7, 64, 8)], svcUdp := 77, idleTicks := 100, retainTicks := 50 }) with serving := g {}, tb := { tick := 2 ^ 21, up := 2 ^ 21 } }
def pay : Bytes := leBytes 1 1 ++ leBytes 1 1 ++ leBytes 2 116 ++ zeros 16 ++ leBytes 56 5 ++ zeros 40
def udpB (sum : Nat) (p : Bytes) : Bytes := beBytes 2 99 ++ beBytes 2 77 ++ beBytes 2 (8 + p.length) ++ beBytes 2 sum ++ p
def csum (src dst : Nat) (p : Bytes) : Nat := 65535 - (sum16 (beBytes 16 src ++ beBytes 16 dst ++ beBytes 4 (8 + p.length) ++ [0, 0, 0, 17] ++ udpB 0 p)) % 65535
def fr (src dst : Nat) (p : Bytes) : Bytes := zeros 12 ++ [0x86, 0xDD] ++ [0x60, 0, 0, 0] ++ beBytes 2 (8 + p.length) ++ [17, 64] ++ beBytes 16 src ++ beBytes 16 dst ++ udpB (csum src dst p) p
def nd : Bytes := zeros 12 ++ [0x86, 0xDD] ++ [0x60, 0, 0, 0] ++ beBytes 2 24 ++ [58, 64] ++ beBytes 16 3 ++ beBytes 16 5 ++ [135] ++ zeros 23
def ses (f : Session → Session) : Session := f { id := 11, port := 0, channel := 0, addr := 3, udp := 99, isOpen := true, h := [1], rxKey := List.replicate 32 7, txKey := List.replicate 32 8, rxIv := zeros 12, txIv := zeros 12, txSeq := 2 ^ 32 - 3, rxHigh := 5, rxSeen := [4, 3], lastFrame := 2 ^ 21 - 5, acceptTick := 0, tagFails := 0, inbox := [] }
def ss (f : Session → Session) (rq : List Request) : State := sv id (fun x => { x with sessions := [ses f], requests := rq })
def rcd (op : Nat) (req : Nat) (b : Bytes) : Bytes := sealedRecord op 0 req b
def rfr (seq : Nat) (r : Bytes) : Bytes :=
  let head := frameHead 0x10 (36 + r.length) 11 seq
  let c := gcmSeal (List.replicate 32 7) (recNonce (zeros 12) seq) head r
  head ++ c.1 ++ c.2
def hel : Bytes := leBytes 1 1 ++ leBytes 1 1 ++ leBytes 2 116 ++ zeros 16 ++ leBytes 56 5 ++ zeros 40
def ak (s : State) : State := { s with cs := { s.cs with akReady := true, entropyN := 1, entropyS := 1, akPriv := zeros 57 } }
def good1 : Session := { ses id with isOpen := true, inbox := [] }
def inb (op : Nat) (r : Bytes) (f : Session → Session) (rq : List Request) : State := ss (fun v => f { v with inbox := [r] }) rq
def nx (op : Nat) (s : State) : State := match s.takeOp 0 11 op with | some x => x.2.2 | none => {}
def nv (op : Nat) (s : State) : Session := match s.takeOp 0 11 op with | some x => x.1 | none => ses id
def rq (id : Nat) (stage : ReqStage) : Request := { State.submitFields (ses fun x => x) id (zeros 96) with stage := stage, maxNew := 4, cls := 2, prompt := [1, 2], endUp := 2 ^ 21 - 50 }
def sub : Bytes := [0, 2, 0, 0] ++ leBytes 4 1 ++ leBytes 4 4 ++ leBytes 4 0x3F800000 ++ leBytes 4 0 ++ leBytes 4 0x3F800000 ++ zeros 72 ++ leBytes 4 0
def mdl (s : State) : State := { s with footing := { s.footing with models := [(0, { bays := 0x8000000000000001, vocab := 1, context := 1000, depths := List.replicate 8 4, weights := [9] })] } }
def S1 : State := mdl (inb 2 (rcd 2 7 sub) id [])
def S2 : State := inb 2 (rcd 2 7 (sub.set 1 9)) id []
def S3 : State := inb 3 (rcd 3 7 []) id [rq 7 .queued]
def S4 : State := inb 3 (rcd 3 7 []) id []
def S5 : State := inb 4 (rcd 4 7 (zeros 4)) id [rq 7 .queued]
def S6 : State := inb 4 (rcd 4 7 (zeros 4)) id [rq 7 .ended]
def S7 : State := inb 4 (rcd 4 7 (zeros 4)) id []
def S8 : State := inb 5 (rcd 5 7 []) id [rq 7 .ended]
def S9 : State := inb 5 (rcd 5 7 []) id [rq 7 .queued]
def S10 : State := ak (inb 6 (rcd 6 7 (zeros 32)) id [])
def S11 : State := inb 6 (rcd 6 7 (zeros 32)) id []
def S12 : State := inb 7 (rcd 7 7 []) id [rq 7 .queued, rq 8 .ended]
def lim (f : Session → Session) (l : List Request) : State := ss f l
def s4 : Session := ses (fun v => { v with txSeq := 2 ^ 32 - 4 })
def bd (q : Assoc (List (Nat × Nat × Nat))) (g : Group) (l : List Request) : State := { mdl (ss id l) with serving := { sessions := [s4], requests := l, queues := q, groups := [(0, g)] } }
def r2 : Request := { rq 7 (.decode 63) with promptDone := 2, flags := 4, weights := [9] }
def y1 : StepResult := { port := 0, session := 11, request := 7, prompt := 0, proposed := 0, aborted := false }
def xs : ModelSlot := (((bd [] {} []).modelOfBay 0).map (·.2)).getD {}
def slot1 : ModelSlot := (((bd [] {} []).modelSlot 0)).getD {}
def r1 : Request := { rq 7 .queued with cls := 2 }

theorem witness_SessionRecordsAct :
    (let s : State := S8
     let e : Nat := 0
     let id : Nat := 11
     let op : Nat := 5
     let v : Session := nv 5 S8
     let r : Bytes := rcd 5 7 []
     let u : State := nx 5 S8
     let req : Nat := fieldLE r 4 4
     let x : Request := rq 7 .ended
     s.awake = true ∧ s.takeOp e id op = some (v, r, u) ∧ v.isOpen = true ∧ v.txSeq + 2 < 2 ^ 32 ∧ op = 5 ∧
       s.request e id req = some x ∧ List.length r = 12 ∧ x.stage = ReqStage.ended) ∧
    (let s : State := S6
     let e : Nat := 0
     let id : Nat := 11
     let op : Nat := 4
     let v : Session := nv 4 S6
     let r : Bytes := rcd 4 7 (zeros 4)
     let u : State := nx 4 S6
     let req : Nat := fieldLE r 4 4
     let x : Request := rq 7 .ended
     s.awake = true ∧ s.takeOp e id op = some (v, r, u) ∧ v.isOpen = true ∧ v.txSeq + 2 < 2 ^ 32 ∧ op = 4 ∧
       s.request e id req = some x ∧ List.length r = 16 ∧ x.cuts = [] ∧ x.stage = ReqStage.ended) ∧
    (let s : State := S10
     let e : Nat := 0
     let id : Nat := 11
     let op : Nat := 6
     let v : Session := nv 6 S10
     let r : Bytes := rcd 6 7 (zeros 32)
     let u : State := nx 6 S10
     s.awake = true ∧ s.takeOp e id op = some (v, r, u) ∧ v.isOpen = true ∧ v.txSeq + 2 < 2 ^ 32 ∧ op = 6 ∧
       s.kindAllowed v.channel 2 = true ∧ List.length r = 44 ∧ s.reportRoom = true) ∧
    (let s : State := S3
     let e : Nat := 0
     let id : Nat := 11
     let op : Nat := 3
     let v : Session := nv 3 S3
     let r : Bytes := rcd 3 7 []
     let u : State := nx 3 S3
     let req : Nat := fieldLE r 4 4
     let x : Request := rq 7 .queued
     s.awake = true ∧ s.takeOp e id op = some (v, r, u) ∧ v.isOpen = true ∧ v.txSeq + 2 < 2 ^ 32 ∧ op = 3 ∧
       s.request e id req = some x ∧ List.length r = 12 ∧ x.stage ≠ ReqStage.ended) ∧
    (let s : State := S1
     let e : Nat := 0
     let id : Nat := 11
     let op : Nat := 2
     let v : Session := nv 2 S1
     let r : Bytes := rcd 2 7 sub
     let u : State := nx 2 S1
     let req : Nat := fieldLE r 4 4
     let q : Request := State.submitFields v req (List.drop 12 r)
     s.awake = true ∧ s.takeOp e id op = some (v, r, u) ∧ v.isOpen = true ∧ v.txSeq + 2 < 2 ^ 32 ∧ op = 2 ∧
       s.request e id req = none ∧ s.submitCode v (List.drop 12 r) q = sOk) ∧
    (let s : State := S12
     let e : Nat := 0
     let id : Nat := 11
     let op : Nat := 7
     let v : Session := nv 7 S12
     let r : Bytes := rcd 7 7 []
     let u : State := nx 7 S12
     let t : State := chkNext (exec (Instr.closeRecord e id) s)
     let x : Request := { rq 7 .queued with cancel := true }
     s.awake = true ∧ s.takeOp e id op = some (v, r, u) ∧ v.isOpen = true ∧ v.txSeq + 2 < 2 ^ 32 ∧ op = 7 ∧
       x ∈ t.serving.requests ∧ x.port = e ∧ x.session = id) ∧
    (let s : State := S11
     let e : Nat := 0
     let id : Nat := 11
     let op : Nat := 6
     let v : Session := nv 6 S11
     let r : Bytes := rcd 6 7 (zeros 32)
     let u : State := nx 6 S11
     s.awake = true ∧ s.takeOp e id op = some (v, r, u) ∧ v.isOpen = true ∧ v.txSeq + 2 < 2 ^ 32 ∧ op = 6 ∧
       (s.kindAllowed v.channel 2 = false ∨ List.length r ≠ 44 ∨ s.reportRoom = false)) ∧
    (let s : State := S4
     let e : Nat := 0
     let id : Nat := 11
     let op : Nat := 3
     let v : Session := nv 3 S4
     let r : Bytes := rcd 3 7 []
     let u : State := nx 3 S4
     let req : Nat := fieldLE r 4 4
     s.awake = true ∧ s.takeOp e id op = some (v, r, u) ∧ v.isOpen = true ∧ v.txSeq + 2 < 2 ^ 32 ∧ op = 3 ∧
       (s.request e id req = none ∨ List.length r ≠ 12)) ∧
    (let s : State := S7
     let e : Nat := 0
     let id : Nat := 11
     let op : Nat := 4
     let v : Session := nv 4 S7
     let r : Bytes := rcd 4 7 (zeros 4)
     let u : State := nx 4 S7
     let req : Nat := fieldLE r 4 4
     s.awake = true ∧ s.takeOp e id op = some (v, r, u) ∧ v.isOpen = true ∧ v.txSeq + 2 < 2 ^ 32 ∧ op = 4 ∧
       s.request e id req = none) ∧
    (let s : State := S9
     let e : Nat := 0
     let id : Nat := 11
     let op : Nat := 5
     let v : Session := nv 5 S9
     let r : Bytes := rcd 5 7 []
     let u : State := nx 5 S9
     let req : Nat := fieldLE r 4 4
     let x : Request := rq 7 .queued
     s.awake = true ∧ s.takeOp e id op = some (v, r, u) ∧ v.isOpen = true ∧ v.txSeq + 2 < 2 ^ 32 ∧ op = 5 ∧
       s.request e id req = some x ∧ List.length r = 12 ∧ x.stage ≠ ReqStage.ended) ∧
    (let s : State := S5
     let e : Nat := 0
     let id : Nat := 11
     let op : Nat := 4
     let v : Session := nv 4 S5
     let r : Bytes := rcd 4 7 (zeros 4)
     let u : State := nx 4 S5
     let req : Nat := fieldLE r 4 4
     let x : Request := rq 7 .queued
     s.awake = true ∧ s.takeOp e id op = some (v, r, u) ∧ v.isOpen = true ∧ v.txSeq + 2 < 2 ^ 32 ∧ op = 4 ∧
       s.request e id req = some x ∧ List.length r = 16 ∧ x.cuts = [] ∧ x.stage ≠ ReqStage.ended) ∧
    (let s : State := S2
     let e : Nat := 0
     let id : Nat := 11
     let op : Nat := 2
     let v : Session := nv 2 S2
     let r : Bytes := rcd 2 7 (sub.set 1 9)
     let u : State := nx 2 S2
     let req : Nat := fieldLE r 4 4
     let q : Request := State.submitFields v req (List.drop 12 r)
     s.awake = true ∧ s.takeOp e id op = some (v, r, u) ∧ v.isOpen = true ∧ v.txSeq + 2 < 2 ^ 32 ∧ op = 2 ∧
       s.request e id req = none ∧ s.submitCode v (List.drop 12 r) q ≠ sOk) := by
  refine ⟨?_, ?_, ?_, ?_, ?_, ?_, ?_, ?_, ?_, ?_, ?_, ?_⟩ <;> first
    | decide +kernel
    | (repeat' apply And.intro) <;> first
      | decide +kernel


theorem witness_ServingLimitsAndStepBoundaries :
    (let s : State := bd [] { prefill := [0], decode := [63] } [r2]
     let bay : Nat := 63
     let m : Nat := 0
     let x : ModelSlot := xs
     let y : StepResult := y1
     let r : Request := r2
     let slot : ModelSlot := slot1
     let v : Session := s4
     r.greedy = true ∧ s.awake = true ∧ bay < 64 ∧ s.modelOfBay bay = some (m, x) ∧ (s.group m).moving = none ∧
       (s.group m).prefill.contains bay = false ∧ s.request y.port y.session y.request = some r ∧ r.port = y.port ∧
       r.session = y.session ∧ r.id = y.request ∧
       (∀ (z : Request), z ∈ s.serving.requests → z.port = y.port → z.session = y.session → z.id = y.request → z = r) ∧
       r.stage = ReqStage.decode bay ∧ s.modelSlot r.model = some slot ∧ r.promptDone = r.prompt.length ∧
       r.deadline = 0 ∧ r.cancel = false ∧ y.aborted = false ∧ s.sess y.port y.session = some v ∧
       v.txSeq + 3 < 2 ^ 32) ∧
    (let s : State := bd [(2, [(0, 11, 7)])] { prefill := [0], decode := [63] } [r1]
     let bay : Nat := 0
     let batch : Nat := 1
     let toks : Nat := 1
     let m : Nat := 0
     let x : ModelSlot := xs
     let e : Nat := 0
     let id : Nat := 11
     let req : Nat := 7
     let r : Request := r1
     let c : Nat := 2
     s.awake = true ∧ bay < 64 ∧ s.modelOfBay bay = some (m, x) ∧ (s.group m).moving = none ∧
       (s.group m).prefill = [bay] ∧ (s.group m).decode.length ≤ 1 ∧
       (∀ (y : Request), y ∈ s.serving.requests → y.stage = ReqStage.queued) ∧ c < 8 ∧
       (∀ (d : Nat), d < 8 → s.queue m d = if d = c then [(e, id, req)] else []) ∧ s.request e id req = some r ∧
       r.deadline = 0 ∧ r.cancel = false ∧ 0 < batch ∧ (batch = 0 ∨ toks < r.prompt.length)) ∧
    (let s : State := lim (fun v => { v with lastFrame := 2 ^ 21 - 99 }) []
     let e : Nat := 0
     let id : Nat := 11
     let v : Session := ses (fun v => { v with lastFrame := 2 ^ 21 - 99 })
     s.awake = true ∧ s.sess e id = some v ∧ (v.isOpen = true ∨ s.tb.up < v.acceptTick + 2 ^ 20) ∧
       v.isOpen = true ∧ (v.isOpen = false ∨ s.tb.up < v.lastFrame + s.footing.idleTicks)) ∧
    (let key : List Word := [1, 2, 3, 4]
     let r : Request := r2
     let n : Nat := 0
     let c : Nat := 1
     let row : List SortPair := [{ value := 0x3F800000, index := 0 }, { value := 0x40000000, index := 1 }]
     let i : Nat := 1
     row.length ≤ 32 ∧ r.greedy = true ∧ (List.map (fun x => x.index) row = List.range row.length) ∧
       c < row.length ∧ chosenToken key r n row = c ∧ i < row.length) ∧
    (let s : State := lim id [rq 7 .ended]
     let e : Nat := 0
     let id : Nat := 11
     let req : Nat := 7
     let x : Request := rq 7 .ended
     s.awake = true ∧ s.request e id req = some x ∧ x.stage = ReqStage.ended ∧
       x.endUp + s.footing.retainTicks ≤ s.tb.up) ∧
    (let s : State := bd [] { prefill := [0], decode := [63] } [r2]
     let bay : Nat := 63
     let m : Nat := 0
     let x : ModelSlot := xs
     let e : Nat := 0
     let id : Nat := 11
     let req : Nat := 7
     let r : Request := r2
     s.awake = true ∧ bay < 64 ∧ s.modelOfBay bay = some (m, x) ∧ (s.group m).moving = none ∧
       (s.group m).prefill.contains bay = false ∧ s.request e id req = some r ∧ r.stage = ReqStage.decode bay ∧
       (∀ (y : Request), y ∈ s.serving.requests → y.port = e → y.session = id → y.id = req → y = r)) ∧
    (let row : List SortPair := [{ value := 0x3F800000, index := 0 }, { value := 0x40000000, index := 1 }]
     let m : Nat := 0x40000000
     row.length ≤ 32 ∧ ((rowStep 1 1 4286578688 0 (List.map (fun x => x.value) row)).x = m) ∧ row ≠ []) ∧
    (let s : State := lim (fun v => { v with isOpen := false, acceptTick := 2 ^ 20 }) []
     let e : Nat := 0
     let id : Nat := 11
     let v : Session := ses (fun v => { v with isOpen := false, acceptTick := 2 ^ 20 })
     s.awake = true ∧ s.sess e id = some v ∧ v.isOpen = false ∧ v.acceptTick + 2 ^ 20 ≤ s.tb.up) ∧
    (let s : State := lim id []
     let bay : Nat := 2
     s.awake = true ∧ bay < 64 ∧ s.modelOfBay bay = none) ∧
    (let s : State := lim id [rq 7 .queued]
     let e : Nat := 0
     let id : Nat := 11
     let req : Nat := 7
     let x : Request := rq 7 .queued
     s.awake = true ∧ s.request e id req = some x ∧
       (x.stage ≠ ReqStage.ended ∨ s.tb.up < x.endUp + s.footing.retainTicks)) ∧
    (let s : State := bd [(2, [(0, 11, 7)])] { prefill := [0], decode := [63] } [r1]
     let bay : Nat := 0
     let batch : Nat := 1
     let toks : Nat := 2
     let m : Nat := 0
     let x : ModelSlot := xs
     let e : Nat := 0
     let id : Nat := 11
     let req : Nat := 7
     let r : Request := r1
     let c : Nat := 2
     s.awake = true ∧ bay < 64 ∧ s.modelOfBay bay = some (m, x) ∧ (s.group m).moving = none ∧
       (s.group m).prefill = [bay] ∧ (s.group m).decode.length ≤ 1 ∧
       (∀ (y : Request), y ∈ s.serving.requests → y.stage = ReqStage.queued) ∧ c < 8 ∧
       (∀ (d : Nat), d < 8 → s.queue m d = if d = c then [(e, id, req)] else []) ∧ s.request e id req = some r ∧
       r.deadline = 0 ∧ r.cancel = false ∧ 0 < batch ∧ r.prompt.length ≤ toks) ∧
    (let s : State := lim (fun v => { v with lastFrame := 2 ^ 21 - 100 }) []
     let e : Nat := 0
     let id : Nat := 11
     let v : Session := ses (fun v => { v with lastFrame := 2 ^ 21 - 100 })
     s.awake = true ∧ s.sess e id = some v ∧ v.isOpen = true ∧ v.lastFrame + s.footing.idleTicks ≤ s.tb.up) ∧
    (let large : Nat → List Word → TokenRec := fun n _ => { id := BitVec.ofNat 32 n, lse := 0, logprob := 0 }
     let draft : Nat → List Word → TokenRec := fun n _ => { id := BitVec.ofNat 32 (n / 2), lse := 0, logprob := 0 }
     let drafts : Nat := 0
     let n : Nat := 0
     let before : List Word := []
     let ts : List TokenRec := stepTokens large draft drafts n before
     let i : Nat := 0
     i < ts.length) := by
  refine ⟨?_, ?_, ?_, ?_, ?_, ?_, ?_, ?_, ?_, ?_, ?_, ?_, ?_⟩ <;> first
    | decide +kernel
    | (repeat' apply And.intro) <;> first
      | decide +kernel


end RecordsW

/-! ### Witnesses: Links, votes and substitution -/

namespace LinksW

def pt (q : HxPort) (role : Nat) (tick : Nat) : State := { fp { ports := [(15, { role := role })], ex := 2 } with ports := [(15, q)], tb := { tick := tick, up := tick } }
def fl (h : FlitHdr) (pay : Bytes) : Bytes := flitBytes (flitHdrBytes h) pay (zeros 12)
def h0 (k : Nat) : FlitHdr := { kind := k, vc := 0, last := true, member := 0, length := 20, dest := 0, source := 1 }
def msg : Bytes := [0x10, 0, 0, 0] ++ leBytes 4 4 ++ zeros 8 ++ [1, 2, 3, 4]
def bad (f : Bytes) : Bytes := f.take 624 ++ leBytes 4 ((flitCrc f + 1) % 2 ^ 32) ++ f.drop 628
def lastH (s : State) (c : Instr) : FlitHdr := match (chkNext (exec c s)).out.getLast? with | some (.flit _ b) => flitHdr b | _ => h0 9
def bc (f : Footing → Footing) (q : HxPort) (tick : Nat) : State := { fp (f { ports := [(15, { role := 1 })], ex := 2, timeSource := 2, upstreams := [15, 3] }) with ports := [(15, q)], tb := { tick := tick, up := tick, state := .acquiring, loaded := true } }
def bpay (t : Nat) (st dep : Nat) : Bytes := leBytes 8 t ++ leBytes 4 0 ++ [BitVec.ofNat 8 st, BitVec.ofNat 8 dep] ++ zeros 30
def hsk (q : HxPort) (outer : Bool) (tick : Nat) : State := { fp { ports := [(15, { role := 1, outer := outer })], ex := 2 } with ports := [(15, q)], tb := { tick := tick, up := tick }, cs := { akReady := true, entropyN := 1, entropyS := 1, akPriv := zeros 57 } }
def vt (t : Turn) (dev : Nat) (f : Footing → Footing) (tick : Nat) : State := { fp (f { ex := 2, turn := { enable := true, genLimit := 50 } }) with system := { device := dev, x := dev }, turn := t, tb := { tick := tick, up := tick } }
def sy (f : System → System) (g : Footing → Footing) (tb : TimeBase) : State := { fp (g { ex := 4, ey := 4, cairns := true }) with system := f {}, tb := tb }

theorem fl_ok (h : FlitHdr) (pay : Bytes) : flitCrcOk (fl h pay) = true := flitCrcOk_flitBytes _ _ _ (by simp [flitHdrBytes])

theorem bad_no (h : FlitHdr) (pay : Bytes) : flitCrcOk (bad (fl h pay)) = false :=
  flitCrcOk_wrong _ (by simp [fl, flitBytes, flitHdrBytes])

theorem witness_PortsTrainAndGoDown :
    (let s : State := pt { state := .down, downSince := some 44 } 1 300
     let p : Nat := 15
     let q : HxPort := s.port p
     let d : Nat := 44
     s.awake = true ∧ p < 16 ∧ (q.state ≠ PortState.training ∨ q.retraining = true) ∧ q.state = PortState.down ∧
       (s.portRole p).role ≠ 0 ∧ s.footing.present = true ∧ q.retraining = false ∧ 1 ≤ (s.portRole p).role ∧
       (s.portRole p).role ≤ 6 ∧ q.suspectSent = false ∧ q.downSince = some d ∧ d + 256 ≤ s.tb.up ∧
       s.footing.cairns = false) ∧
    (let s : State := pt { state := .training, retrains := [3] } 1 100
     let p : Nat := 15
     let q : HxPort := s.port p
     let lanes : Nat := 4
     s.awake = true ∧ p < 16 ∧ q.state = PortState.training ∧ q.retraining = false ∧ lanes ≠ 8 ∧
       (lanes = 8 ∨ lanes = 4) ∧ lanes = 4 ∧
       (q.state ≠ PortState.down ∨ (s.portRole p).role = 0 ∨ s.tb.up < q.nextTry) ∧
       (q.state ≠ PortState.down ∨ q.suspectSent = true ∨ q.downSince = none)) ∧
    (let s : State := pt { state := .training, retraining := true } 1 300
     let p : Nat := 15
     let q : HxPort := s.port p
     let lanes : Nat := 0
     s.awake = true ∧ p < 16 ∧ q.retraining = true ∧ lanes ≠ 8 ∧ lanes ≠ 4 ∧
       (q.state = PortState.handshake ∨ q.state = PortState.up ∨ q.retraining = true)) ∧
    (let s : State := pt { state := .down, nextTry := 100 } 6 100
     let p : Nat := 15
     let q : HxPort := s.port p
     s.awake = true ∧ p < 16 ∧ q.state = PortState.down ∧ (s.portRole p).role ≠ 0 ∧ s.footing.present = true ∧
       q.nextTry ≤ s.tb.up) ∧
    (let s : State := pt { state := .training, retrains := [3] } 1 100
     let p : Nat := 15
     let q : HxPort := s.port p
     let lanes : Nat := 0
     s.awake = true ∧ p < 16 ∧ q.state = PortState.training ∧ q.retraining = false ∧ lanes ≠ 8 ∧ lanes ≠ 4) ∧
    (let s : State := pt { state := .training, retraining := true } 1 300
     let p : Nat := 15
     let q : HxPort := s.port p
     let lanes : Nat := 4
     s.awake = true ∧ p < 16 ∧ q.retraining = true ∧ (lanes = 8 ∨ lanes = 4)) := by
  refine ⟨?_, ?_, ?_, ?_, ?_, ?_⟩ <;> first
    | decide +kernel
    | (repeat' apply And.intro) <;> first
      | decide +kernel


theorem witness_FlitsInOrderAndRetried :
    (let s : State := pt { state := .up } 1 100
     let p : Nat := 15
     let f : Bytes := fl (h0 1) msg
     let q : HxPort := s.port p
     let h : FlitHdr := flitHdr f
     let bare : Prop := flitCrcOk f = true ∧ flitReservedZero f = true ∧ h.length ≤ 608 ∧ h.vc = 0 ∧ q.wait = []
     let x : Bytes × HxPort := ((State.openFlit { state := .up } (fl (h0 1) msg) false).getD ([], {}))
     let m : Bytes := (aget none q.asm (h.source * 8 + h.member)).getD [] ++ List.take h.length x.fst
     s.awake = true ∧ p < 16 ∧ s.trained p = true ∧ f ≠ [] ∧ bare ∧ h.kind = 1 ∧
       (h.fsn + 4096 - q.rxFsn) % 4096 = 0 ∧ State.openFlit q f h.keyPhase = some x ∧ h.ackValid = false ∧
       h.creditValid = false ∧ h.detour = false ∧ h.dest = s.system.device ∧ h.last = true ∧
       s.occupied p 0 + aget 0 q.owed 0 < 16 ∧ fieldLE m 0 1 = 16 ∧ 16 ≤ List.length m ∧
       fieldLE m 4 4 = List.length m - 16 ∧ h.kind ≠ 2 ∧ h.kind ≠ 3) ∧
    (let s : State := pt { state := .up, crcFails := List.replicate 1022 100 } 1 100
     let p : Nat := 15
     let f : Bytes := bad (fl (h0 2) [])
     let q : HxPort := s.port p
     let h : FlitHdr := flitHdr f
     s.awake = true ∧ p < 16 ∧ s.trained p = true ∧ q.crcFails.length < 1023 ∧ f ≠ [] ∧ flitCrcOk f = false ∧
       h.kind = 2) ∧
    (let s : State := pt { state := .up, retryRow := 14, retry := [⟨1, 0, zeros 640⟩, ⟨2, 0, zeros 640⟩] } 1 100
     let p : Nat := 15
     let f : Bytes := fl { h0 3 with ackValid := false } (leBytes 2 2)
     let q : HxPort := s.port p
     let h : FlitHdr := flitHdr f
     let bare : Prop := flitCrcOk f = true ∧ flitReservedZero f = true ∧ h.length ≤ 608 ∧ h.vc = 0 ∧ q.wait = []
     let i : Nat := 1
     s.awake = true ∧ p < 16 ∧ s.trained p = true ∧ h.kind = 3 ∧ bare ∧ h.ackValid = false ∧
       h.creditValid = false ∧ q.retryRow < 15 ∧
       (List.findIdx? (fun e => e.fsn == fieldLE f 16 2 % 4096) q.retry = some i)) ∧
    (let s : State := pt { state := .up, retry := [⟨1, 0, zeros 640⟩, ⟨2, 0, zeros 640⟩] } 1 100
     let p : Nat := 15
     let f : Bytes := fl { h0 2 with ackValid := true, ack := 1 } []
     let q : HxPort := s.port p
     let h : FlitHdr := flitHdr f
     let bare : Prop := flitCrcOk f = true ∧ flitReservedZero f = true ∧ h.length ≤ 608 ∧ h.vc = 0 ∧ q.wait = []
     let i : Nat := 0
     s.awake = true ∧ p < 16 ∧ s.trained p = true ∧ h.kind = 2 ∧ bare ∧ h.ackValid = true ∧
       h.creditValid = false ∧ (List.findIdx? (fun e => e.fsn == h.ack) q.retry = some i)) ∧
    (let s : State := pt { state := .up } 1 100
     let p : Nat := 15
     let f : Bytes := fl { h0 1 with fsn := 2047 } msg
     let q : HxPort := s.port p
     let h : FlitHdr := flitHdr f
     let bare : Prop := flitCrcOk f = true ∧ flitReservedZero f = true ∧ h.length ≤ 608 ∧ h.vc = 0 ∧ q.wait = []
     s.awake = true ∧ p < 16 ∧ s.trained p = true ∧ f ≠ [] ∧ bare ∧ h.kind = 1 ∧
       (h.fsn + 4096 - q.rxFsn) % 4096 ≠ 0 ∧ q.discarding = false ∧ (h.fsn + 4096 - q.rxFsn) % 4096 < 2048) ∧
    (let s : State := pt { state := .up, keyed := true, rx := some { key := zeros 32, iv := zeros 12, count := 0 } } 1 100
     let p : Nat := 15
     let f : Bytes := fl (h0 1) msg
     let q : HxPort := s.port p
     let h : FlitHdr := flitHdr f
     let bare : Prop := flitCrcOk f = true ∧ flitReservedZero f = true ∧ h.length ≤ 608 ∧ h.vc = 0 ∧ q.wait = []
     s.awake = true ∧ p < 16 ∧ s.trained p = true ∧ f ≠ [] ∧ bare ∧ h.kind = 1 ∧
       (h.fsn + 4096 - q.rxFsn) % 4096 = 0 ∧ State.openFlit q f h.keyPhase = none ∧
       BitVec.toNat (s.stat (hxAuthFail p)) < 15) ∧
    (let s : State := pt { state := .up } 1 100
     let p : Nat := 15
     let f : Bytes := fl { h0 1 with fsn := 2048 } msg
     let q : HxPort := s.port p
     let h : FlitHdr := flitHdr f
     let bare : Prop := flitCrcOk f = true ∧ flitReservedZero f = true ∧ h.length ≤ 608 ∧ h.vc = 0 ∧ q.wait = []
     s.awake = true ∧ p < 16 ∧ s.trained p = true ∧ f ≠ [] ∧ bare ∧ h.kind = 1 ∧
       (h.fsn + 4096 - q.rxFsn) % 4096 ≠ 0 ∧ q.discarding = false ∧ 2048 ≤ (h.fsn + 4096 - q.rxFsn) % 4096) := by
  refine ⟨?_, ?_, ?_, ?_, ?_, ?_, ?_⟩ <;> first
    | decide +kernel
    | (repeat' apply And.intro) <;> first
      | decide +kernel
      | (simp only [fl_ok, bad_no, true_or, or_true]; done)


theorem witness_BeaconsAndDelays :
    (let s : State := bc id { state := .up, delayTick := some 2 } (1 + 2 ^ 16)
     let p : Nat := 15
     let f : Bytes := fl { h0 4 with length := 44 } (bpay 2048 2 62)
     let q : HxPort := s.port p
     let h : FlitHdr := flitHdr f
     let b : Bytes := slice f 16 608
     let bare : Prop := flitCrcOk f = true ∧ flitReservedZero f = true ∧ h.length ≤ 608 ∧ h.vc = 0 ∧ h.ackValid = false ∧ h.creditValid = false ∧ q.wait = []
     let i : Nat := 0
     let d : Nat := 2
     s.awake = true ∧ p < 16 ∧ s.tb.tick % 1024 ≠ 0 ∧ (s.trained p = false ∨ s.tb.tick % 16384 ≠ 0) ∧
       s.trained p = true ∧ h.kind = 4 ∧ bare ∧ s.footing.timeSource = 2 ∧ s.footing.present = true ∧
       (fieldLE b 12 1 = 2 ∨ fieldLE b 12 1 = 3) ∧ fieldLE b 13 1 ≤ 62 ∧ q.delayTick = some d ∧
       s.tb.up < d + 2 ^ 16 ∧ s.upstreamPort p = some i) ∧
    (let s : State := bc id { state := .up, delayTick := some 2 } 16384
     let p : Nat := 15
     let f : Bytes := fl { h0 6 with length := 44 } (zeros 44)
     let sub : Nat := 0
     let q : HxPort := s.port p
     let h : FlitHdr := flitHdr f
     let b : Bytes := slice f 16 608
     let bare : Prop := flitCrcOk f = true ∧ flitReservedZero f = true ∧ h.length ≤ 608 ∧ h.vc = 0 ∧ h.ackValid = false ∧ h.creditValid = false ∧ q.wait = []
     s.awake = true ∧ p < 16 ∧ s.tb.tick % 1024 = 0 ∧ s.trained p = true ∧ s.tb.tick % 16384 = 0 ∧ h.kind = 6 ∧
       bare ∧ State.linkDelay b (s.tb.tick * 262144 + sub) = none) ∧
    (let s : State := bc id { state := .up } 2048
     let p : Nat := 15
     let f : Bytes := fl { h0 5 with length := 44 } (bpay 2048 2 3)
     let q : HxPort := s.port p
     let h : FlitHdr := flitHdr f
     let bare : Prop := flitCrcOk f = true ∧ flitReservedZero f = true ∧ h.length ≤ 608 ∧ h.vc = 0 ∧ h.ackValid = false ∧ h.creditValid = false ∧ q.wait = []
     s.awake = true ∧ p < 16 ∧ h.kind = 5 ∧ s.trained p = true ∧ bare) ∧
    (let s : State := bc id { state := .up } 2048
     let p : Nat := 15
     let q : Nat := 15
     s.awake = true ∧ p < 16 ∧ s.tb.tick % 1024 = 0 ∧ q < 16 ∧ s.trained q = true) ∧
    (let s : State := bc id { state := .down } 2048
     let p : Nat := 15
     let f : Bytes := fl { h0 5 with length := 44 } (bpay 2048 2 3)
     let h : FlitHdr := flitHdr f
     s.awake = true ∧ p < 16 ∧ h.kind = 5 ∧ s.trained p = false) ∧
    (let s : State := bc id { state := .up } 2048
     let p : Nat := 15
     let f : Bytes := bad (fl { h0 4 with length := 44 } (bpay 2048 2 3))
     let q : HxPort := s.port p
     let h : FlitHdr := flitHdr f
     let b : Bytes := slice f 16 608
     s.awake = true ∧ p < 16 ∧ h.kind = 4 ∧
       (s.trained p = false ∨ flitCrcOk f = false ∨ s.footing.timeSource ≠ 2 ∨ s.footing.present = false ∨ fieldLE b 12 1 ≠ 2 ∧ fieldLE b 12 1 ≠ 3 ∨ 62 < fieldLE b 13 1 ∨ q.delayTick = none ∨ s.upstreamPort p = none)) ∧
    (let s : State := bc id { state := .up } 2048
     let p : Nat := 15
     let f : Bytes := fl { h0 6 with length := 44 } (leBytes 8 2048 ++ zeros 36)
     let sub : Nat := 0
     let q : HxPort := s.port p
     let h : FlitHdr := flitHdr f
     let b : Bytes := slice f 16 608
     let bare : Prop := flitCrcOk f = true ∧ flitReservedZero f = true ∧ h.length ≤ 608 ∧ h.vc = 0 ∧ h.ackValid = false ∧ h.creditValid = false ∧ q.wait = []
     let ps : Nat := 0
     s.awake = true ∧ p < 16 ∧ h.kind = 6 ∧ s.trained p = true ∧ bare ∧
       State.linkDelay b (s.tb.tick * 262144 + sub) = some ps) := by
  refine ⟨?_, ?_, ?_, ?_, ?_, ?_, ?_⟩ <;> first
    | decide +kernel
    | (repeat' apply And.intro) <;> first
      | decide +kernel
      | (simp only [fl_ok, bad_no, true_or, or_true]; done)


theorem witness_HandshakesBringPortsUp :
    (let s : State := hsk { state := .up, peerHello := [1], keyTick := 5 } true (5 + 2 ^ 26)
     let p : Nat := 15
     let q : HxPort := s.port p
     s.awake = true ∧ p < 16 ∧ q.state = PortState.up ∧ (s.portRole p).outer = true ∧ q.peerHello ≠ [] ∧
       s.cs.akReady = true ∧
       (q.keyTick + 2 ^ 26 ≤ s.tb.up ∨ ∃ k, k ∈ q.tx.toList ++ q.rx.toList ∧ 2 ^ 36 ≤ k.count) ∧
       s.drbgServes (decide (8 ≤ p)) = true) ∧
    (let s : State := hsk { state := .handshake, ownHello := [1] } true 5
     let p : Nat := 15
     let b : Bytes := zeros 700
     let q : HxPort := s.port p
     let c : Code := eLinkAuth
     s.awake = true ∧ p < 16 ∧ q.state = PortState.handshake ∧ q.ownHello ≠ [] ∧ s.helloFault p b = some c ∧
       (q.state ≠ PortState.up ∨ (s.portRole p).outer = false ∨ q.peerHello = [] ∨ s.cs.akReady = false)) ∧
    (let s : State := hsk { state := .up, peerHello := [1], keyTick := 5 } true (4 + 2 ^ 26)
     let p : Nat := 15
     let q : HxPort := s.port p
     s.awake = true ∧ p < 16 ∧ s.tb.up < q.keyTick + 2 ^ 26 ∧
       (∀ (k : LinkKey), k ∈ q.tx.toList ++ q.rx.toList → k.count < 2 ^ 36)) ∧
    (let s : State := hsk { state := .down } true 5
     let p : Nat := 15
     let q : HxPort := s.port p
     s.awake = true ∧ p < 16 ∧ (q.state = PortState.down ∨ q.state = PortState.training)) ∧
    (let s : State := hsk { state := .handshake } true 5
     let p : Nat := 15
     let q : HxPort := s.port p
     s.awake = true ∧ p < 16 ∧ q.state = PortState.handshake ∧ q.ownHello = []) ∧
    (let s : State := hsk { state := .up, peerHello := [1], keyTick := 5 } false (5 + 2 ^ 26)
     let p : Nat := 15
     let q : HxPort := s.port p
     s.awake = true ∧ p < 16 ∧ q.state = PortState.up ∧ (s.portRole p).outer = false) ∧
    (let s : State := { hsk { state := .up, peerHello := [1], keyTick := 5 } true (5 + 2 ^ 26) with cs := { akReady := true, entropyN := 2, entropyS := 2, akPriv := zeros 57 } }
     let p : Nat := 15
     let q : HxPort := s.port p
     s.awake = true ∧ p < 16 ∧ q.state = PortState.up ∧ (s.portRole p).outer = true ∧ q.peerHello ≠ [] ∧
       s.cs.akReady = true ∧
       (q.keyTick + 2 ^ 26 ≤ s.tb.up ∨ ∃ k, k ∈ q.tx.toList ++ q.rx.toList ∧ 2 ^ 36 ≤ k.count) ∧
       s.drbgServes (decide (8 ≤ p)) = false) := by
  refine ⟨?_, ?_, ?_, ?_, ?_, ?_, ?_⟩ <;> first
    | decide +kernel
    | (repeat' apply And.intro) <;> first
      | decide +kernel


theorem witness_PhaseVotes :
    (let s : State := vt { phase := 2, votes := [{ source := 1, phase := 2, verdict := 1, step := 4 }] } 0 id 100
     let verdict : Nat := 2
     let v : Nat := if s.cannotRebuild = true then 2 else verdict
     (∀ (c : Nat), c ∈ s.children → ∃ x, x ∈ s.phaseVotes ∧ x.source = c) →
       s.awake = true ∧ verdict < 3 ∧ (v = 0 → s.ownPartOk = true) ∧ s.footing.turn.enable = true ∧
       s.turn.ownDone = none ∧ (s.turn.phase = 0 ∨ s.turn.phase = 1 ∨ s.turn.phase = 2 ∨ s.turn.phase = 4) ∧
       s.turn.voteSent = false ∧ s.isRoot = true ∧ s.turn.decided = false) ∧
    (let s : State := { vt { phase := 2, turn := 0 } 5 id 100 with system := { device := 5, voteRoot := 0 }, tb := { tick := 100, sched := List.replicate 255 ⟨1, 3, 0⟩ } }
     let phase : Nat := 2
     let tick : Nat := 102
     s.children = [] →
       s.awake = true ∧ s.footing.turn.enable = true ∧ s.isRoot = false ∧ phase = 2 ∧ s.tb.tick + 2 ≤ tick ∧
       tick ≤ s.tb.tick + 2 ^ 36 ∧ s.tb.sched.length < 256) ∧
    (let s : State := vt { phase := 3 } 0 id 100
     let source : Nat := 1
     let turn : Nat := 0
     let verdict : Nat := 1
     s.children.contains source = true →
       s.awake = true ∧
       (s.footing.turn.enable = false ∨ s.turn.ownDone ≠ none ∨ 3 ≤ verdict ∨ s.turn.phase = 3 ∨ s.turn.phase = 5) ∧
       s.footing.turn.enable = true ∧ turn = s.turn.turn ∧ s.isRoot = true ∧ verdict = 1 ∧ s.turn.decided = false) ∧
    (let s : State := { vt { phase := 4 } 1 id 100 with relays := [(3, { state := 1 })] }
     let verdict : Nat := 0
     s.awake = true ∧ verdict = 0 ∧ s.cannotRebuild = false ∧ s.ownPartOk = false) ∧
    (let s : State := vt { phase := 1 } 1 id 100
     let source : Nat := 2
     let turn : Nat := 0
     s.children.contains source = true →
       s.awake = true ∧ s.footing.turn.enable = true ∧ turn = s.turn.turn ∧ s.isRoot = false ∧ s.turn.ownDone = none) ∧
    (let s : State := vt { phase := 1, phaseStart := 50 } 0 id 100
     let l : Nat := 50
     s.awake = true ∧ s.isRoot = true ∧ s.footing.turn.enable = true ∧ s.turn.decided = false ∧
       s.phaseLimit = some l ∧ s.turn.phaseStart + l ≤ s.tb.tick) ∧
    (let s : State := { vt { phase := 2, turn := 0 } 5 id 100 with system := { device := 5, voteRoot := 0 } }
     let phase : Nat := 3
     let tick : Nat := 101
     s.children = [] →
       s.awake = true ∧ s.footing.turn.enable = true ∧ s.isRoot = false ∧ phase = 3 ∧ tick < s.tb.tick + 2) ∧
    (let s : State := vt { phase := 2 } 0 id 100
     let source : Nat := 1
     let turn : Nat := 1
     (s.footing.turn.enable = false ∨ turn ≠ s.turn.turn ∨ s.children.contains source = false) →
       s.awake = true) ∧
    (let s : State := vt { phase := 1 } 1 id 100
     let l : Nat := 50
     s.awake = true ∧
       (s.isRoot = false ∨ s.turn.decided = true ∨ s.phaseLimit = none ∨ s.phaseLimit = some l ∧ s.tb.tick < s.turn.phaseStart + l)) ∧
    (let s : State := vt { phase := 2 } 0 id 100
     let verdict : Nat := 2
     let v : Nat := if s.cannotRebuild = true then 2 else verdict
     (∃ c, c ∈ s.children ∧ ∀ (x : Vote), x ∈ s.phaseVotes → x.source ≠ c) →
       s.awake = true ∧ verdict < 3 ∧ (v = 0 → s.ownPartOk = true) ∧ s.footing.turn.enable = true ∧
       s.turn.ownDone = none ∧ (s.turn.phase = 0 ∨ s.turn.phase = 1 ∨ s.turn.phase = 2 ∨ s.turn.phase = 4)) ∧
    (let s : State := { vt { phase := 2, turn := 0 } 5 id 100 with system := { device := 5, voteRoot := 0 } }
     let phase : Nat := 2
     let tick : Nat := 101
     s.children = [] →
       s.awake = true ∧ s.footing.turn.enable = true ∧ s.isRoot = false ∧ phase = 2 ∧ tick < s.tb.tick + 2) ∧
    (let s : State := { vt { phase := 2, turn := 0 } 5 id 100 with system := { device := 5, voteRoot := 0 } }
     let verdict : Nat := 2
     let v : Nat := if s.cannotRebuild = true then 2 else verdict
     (∀ (c : Nat), c ∈ s.children → ∃ x, x ∈ s.phaseVotes ∧ x.source = c) →
       s.awake = true ∧ verdict < 3 ∧ (v = 0 → s.ownPartOk = true) ∧ s.footing.turn.enable = true ∧
       s.turn.ownDone = none ∧ (s.turn.phase = 0 ∨ s.turn.phase = 1 ∨ s.turn.phase = 2 ∨ s.turn.phase = 4) ∧
       s.turn.voteSent = false ∧ s.isRoot = false) := by
  refine ⟨fun _ => ?_, fun _ => ?_, fun _ => ?_, ?_, fun _ => ?_, ?_, fun _ => ?_, fun _ => ?_, ?_, fun _ => ?_, fun _ => ?_, fun _ => ?_⟩
  · first
      | decide +kernel
      | (repeat' apply And.intro) <;> first
        | decide +kernel

  · first
      | decide +kernel
      | (repeat' apply And.intro) <;> first
        | decide +kernel

  · first
      | decide +kernel
      | (repeat' apply And.intro) <;> first
        | decide +kernel

  · first
      | decide +kernel
      | (repeat' apply And.intro) <;> first
        | decide +kernel

  · first
      | decide +kernel
      | (repeat' apply And.intro) <;> first
        | decide +kernel

  · first
      | decide +kernel
      | (repeat' apply And.intro) <;> first
        | decide +kernel

  · first
      | decide +kernel
      | (repeat' apply And.intro) <;> first
        | decide +kernel

  · first
      | decide +kernel
      | (repeat' apply And.intro) <;> first
        | decide +kernel

  · first
      | decide +kernel
      | (repeat' apply And.intro) <;> first
        | decide +kernel

  · first
      | decide +kernel
      | (repeat' apply And.intro) <;> first
        | decide +kernel

  · first
      | decide +kernel
      | (repeat' apply And.intro) <;> first
        | decide +kernel

  · first
      | decide +kernel
      | (repeat' apply And.intro) <;> first
        | decide +kernel


theorem witness_SubstitutionAndRemapping :
    (let s : State := sy (fun x => { x with device := 1, voteRoot := 3 }) (fun f => { f with train := { enable := true, ex := 4, ey := 1, ez := 1 } }) { tick := 50 }
     let f : Nat := 3
     let placement : Nat := 3
     let lost : Prop := placement = 3 ∧ s.jobIndexOf f ≠ none
     s.awake = true ∧ s.system.spare = false ∧ s.system.substituting = false ∧
       (∀ (x : Nat × Nat), x ∈ s.system.suspects → x.fst ≠ f) ∧ s.footing.cairns = true ∧ s.isDevice f = true ∧
       (∀ (x : Nat × Nat), x ∈ s.system.subst → x.fst ≠ f) ∧ s.isRoot = false ∧ placement < 4 ∧ lost ∧
       f = s.system.voteRoot ∧ placement ≠ 0) ∧
    (let s : State := sy id id { state := .locked, tick := 50 }
     let removed : List Nat := []
     let hosts : List (Nat × Nat) := List.replicate 64 (3, 4)
     s.awake = true ∧ removed.length + hosts.length ≤ 64 ∧ s.tb.state ≠ TbState.unset ∧
       (∀ (x : Nat × Nat), x ∈ hosts → x.fst ≠ s.system.device) ∧ (¬s.system.device ∈ removed)) ∧
    (let s : State := sy (fun x => { x with spare := true, device := 16321, suspects := [(3, 7), (3, 19)] }) (fun f => { f with ez := 2 }) { tick := 50 }
     let source : Nat := 2
     let f : Nat := 3
     s.awake = true ∧ (¬(f, source) ∈ s.system.suspects) ∧ s.system.spare = true ∧ s.isDevice f = true ∧
       16320 + s.cairnNum (s.coordsOf f) = s.system.device ∧
       (∀ (g : Nat), g ∈ s.cairnNeighbours f → g = source ∨ (f, g) ∈ s.system.suspects)) ∧
    (let s : State := sy id id { state := .locked, tick := 50 }
     let source : Nat := 1
     let f : Nat := 99
     s.awake = true ∧ (¬(f, source) ∈ s.system.suspects) ∧ s.system.spare = false ∧
       s.system.substituting = false ∧
       (s.footing.cairns = false ∨ s.isDevice f = false ∨ ∃ x, x ∈ s.system.subst ∧ x.fst = f)) ∧
    (let s : State := { sy id id { tick := 50 } with ckpt := { slots := [(0, { state := 2, step := 7, source := 0 })], shares := [0], slotSize := 100 } }
     let job : Nat := 0
     let k : Nat := 0
     let x : CkptSlot := s.slot k
     s.awake = true ∧ k < 2 ∧ x.state = 2 ∧
       (x.source = s.placeOfJob job ∨ x.source = s.hostOf (s.placeOfJob job)) ∧ x.step = s.heldStep (some x.source)) ∧
    (let s : State := sy id id { state := .locked, tick := 50 }
     let k : Nat := 1
     s.awake = true ∧ (2 ≤ k ∨ (s.slot k).state ≠ 2) ∧ k < 2) ∧
    (let s : State := sy (fun x => { x with device := 2 }) id { state := .locked, tick := 50 }
     let f : Nat := 3
     let placement : Nat := 3
     let lost : Prop := placement = 3 ∧ s.jobIndexOf f ≠ none
     s.awake = true ∧ s.isRoot = false ∧ placement < 4 ∧ (¬lost) ∧ f ≠ s.system.voteRoot) ∧
    (let s : State := sy id id { state := .locked, tick := 50 }
     let placement : Nat := 0
     s.awake = true ∧ (s.isRoot = true ∨ 4 ≤ placement)) ∧
    (let s : State := sy id id { state := .locked, tick := 50 }
     let host : Nat := 4
     s.awake = true ∧ (¬host ∈ s.system.hostReady)) ∧
    (let s : State := sy id (fun f => { f with cairns := false }) {}
     let removed : List Nat := []
     let hosts : List (Nat × Nat) := []
     s.awake = true ∧ (64 < removed.length + hosts.length ∨ s.tb.state = TbState.unset)) ∧
    (let s : State := sy id id { state := .locked, tick := 50 }
     let removed : List Nat := [2]
     let hosts : List (Nat × Nat) := [(0, 1)]
     s.awake = true ∧ removed.length + hosts.length ≤ 64 ∧ s.tb.state ≠ TbState.unset ∧
       (∃ x, x ∈ hosts ∧ x.fst = s.system.device)) ∧
    (let s : State := sy (fun x => { x with suspects := [(3, 2)] }) id { tick := 50 }
     let source : Nat := 1
     let f : Nat := 3
     s.awake = true ∧ (¬(f, source) ∈ s.system.suspects) ∧ s.system.spare = false ∧
       s.system.substituting = false ∧ (∃ x, x ∈ s.system.suspects ∧ x.fst = f)) ∧
    (let s : State := sy (fun x => { x with device := 2 }) id { state := .locked, tick := 50 }
     let removed : List Nat := [2]
     let hosts : List (Nat × Nat) := [(0, 1)]
     s.awake = true ∧ removed.length + hosts.length ≤ 64 ∧ s.tb.state ≠ TbState.unset ∧
       (∀ (x : Nat × Nat), x ∈ hosts → x.fst ≠ s.system.device) ∧ s.system.device ∈ removed) ∧
    (let s : State := sy (fun x => { x with device := 1, subst := [(3, 9)], hostReady := [4] }) id { tick := 50 }
     let host : Nat := 4
     s.awake = true ∧ host ∈ s.system.hostReady) := by
  refine ⟨?_, ?_, ?_, ?_, ?_, ?_, ?_, ?_, ?_, ?_, ?_, ?_, ?_, ?_⟩ <;> first
    | decide +kernel
    | (repeat' apply And.intro) <;> first
      | decide +kernel


end LinksW

/-! ### Witnesses: Images, entropy and watchdogs -/

namespace CornerW

def bobj (n : Nat) : Obj := { bytesKind := true, fmt := 0, tiles := (n + 4095) / 4096, size := n, residence := .clay, creating := false, place := some { host := 0, first := 0, ranks := 1, offset := 0, order := 0, base := 0, bricks := [0], granules := 4 }, charged := 0 }
def ws (f : Cornerstone → Cornerstone) (os : Assoc (Option Obj)) : State := { rn [] with cs := f { wopenArg := 9 }, objs := os }
def wimg (n : Nat) (d : Bytes) : Bytes := zeros 24 ++ leBytes 4 n ++ zeros 4 ++ d ++ zeros 128 ++ (if n = 0 then [] else leBytes 4 8 ++ zeros 4 ++ leBytes 4 1 ++ zeros 4)
def wsi (cmd n : Nat) (d : Bytes) (os : Assoc (Option Obj)) : State := kk (fun k => { k with clay := awrite 0 [] 0 (wimg n d) }) (ws (fun c => { c with wopen := some (cmd, 9) }) ((9, some (bobj 208)) :: os))
def d0 : Bytes := digest []
def tob : Obj := { bobj 512 with bytesKind := false, fmt := 7, residence := .loam, place := none, map := [{ unit := 0, count := 1, first := 0 }] }
def hold1 (s : State) : State := { s with units := [(0, { state := .inService, held := true })] }
def zt (s : State) : State := s.writeSectors 0 0 (sieveEncode false 7 8 (zeros 512))
def es (f : Cornerstone → Cornerstone) (t : Nat) : State := { fp {} with cs := f {}, tb := { tick := t, up := t }, boot := { mortar := true } }
def rr (w : ReportFor) : ReportReq := { nonce := [1], who := w, body := [2] }

theorem witness_WeightImageCommands :
    (let s : State := wsi 1 0 d0 []
     let reads : List (Nat × ObjRead) := []
     let cmd : Nat := 1
     let id : Nat := 9
     let o : Obj := bobj 208
     let img : Bytes := s.wholeObj id o
     let dig : Bytes := slice img 32 32
     let free : State := State.pinImage { s with cs := { s.cs with wopen := none, wopenCode := sOk } } id img false
     let r : State × Option (List Bytes) := free.readTensors id img reads
     let held : Prop := ∃ x, x ∈ State.tensorObjs id img ∧ s.heldObj x = true
     let tiles : List Bytes := []
     let plain : List Bytes := State.openTiles id img ((unwrapKey img).getD []) tiles
     let w : State × Code := r.fst.writeTensors id img plain
     s.awake = true ∧ s.cs.wopen = some (cmd, id) ∧ s.obj id = some o ∧ cmd ≠ 2 ∧ (¬held) ∧ cmd = 1 ∧
       r.snd = some tiles ∧ w.snd = sOk ∧ State.plainDigest img plain = dig) ∧
    (let x : (Nat → Nat → Nat → Instr) × Nat := (Instr.openImage, 1)
     let s : State := ws id []
     let agent : Nat := 3
     let k : Nat := 0
     let reserved : Nat := 0
     s.coreUp agent = true ∧ k < 2 ∧ (k == 1) = s.boot.primaryS ∧ reserved = 0 ∧ s.cs.wopen = none ∧
       s.wopenCode x.snd reserved ≠ sOk ∧ s.awake = true) ∧
    (let s : State := wsi 3 0 d0 []
     let reads : List (Nat × ObjRead) := []
     let cmd : Nat := 3
     let id : Nat := 9
     let o : Obj := bobj 208
     let img : Bytes := s.wholeObj id o
     let dig : Bytes := slice img 32 32
     let free : State := State.pinImage { s with cs := { s.cs with wopen := none, wopenCode := sOk } } id img false
     let r : State × Option (List Bytes) := free.readTensors id img reads
     let held : Prop := ∃ x, x ∈ State.tensorObjs id img ∧ s.heldObj x = true
     let tiles : List Bytes := []
     s.awake = true ∧ s.cs.wopen = some (cmd, id) ∧ s.obj id = some o ∧ cmd ≠ 2 ∧ (¬held) ∧ cmd = 3 ∧
       r.snd = some tiles ∧ State.plainDigest img tiles = dig ∧
       (∀ (e : WeightEntry), e ∈ s.cs.weights → e.digest ≠ dig)) ∧
    (let s : State := ws id []
     let agent : Nat := 3
     let k : Nat := 1
     s.coreUp agent = true ∧ k < 2 ∧ (k == 1) ≠ s.boot.primaryS) ∧
    (let s : State := ws id []
     let agent : Nat := 3
     let k : Nat := 0
     let reserved : Nat := 1
     s.coreUp agent = true ∧ k < 2 ∧ (k == 1) = s.boot.primaryS ∧ reserved ≠ 0) ∧
    (let s : State := wsi 1 0 d0 []
     let agent : Nat := 3
     let k : Nat := 0
     let reserved : Nat := 0
     s.coreUp agent = true ∧ k < 2 ∧ (k == 1) = s.boot.primaryS ∧ reserved = 0 ∧ s.cs.wopen ≠ none) ∧
    (let s : State := ws id []
     let agent : Nat := 3
     let k : Nat := 0
     let reserved : Nat := 0
     let id : Nat := BitVec.toNat s.cs.wopenArg
     s.coreUp agent = true ∧ k < 2 ∧ (k == 1) = s.boot.primaryS ∧ reserved = 0 ∧ s.cs.wopen = none ∧
       s.obj id = none) ∧
    (let s : State := ws (fun c => { c with wopen := some (2, 9), wopenPeer := 77 }) [(9, some (bobj 200))]
     let cmd : Nat := 2
     let id : Nat := 9
     let o : Obj := bobj 200
     s.awake = true ∧ s.cs.wopen = some (cmd, id) ∧ s.obj id = some o ∧ cmd = 2) ∧
    (let s : State := hold1 (wsi 1 1 d0 [(8, some tob)])
     let cmd : Nat := 1
     let id : Nat := 9
     let o : Obj := bobj 208
     let img : Bytes := s.wholeObj id o
     let held : Prop := ∃ x, x ∈ State.tensorObjs id img ∧ s.heldObj x = true
     s.awake = true ∧ s.cs.wopen = some (cmd, id) ∧ s.obj id = some o ∧ cmd ≠ 2 ∧ held) ∧
    (let s : State := wsi 1 1 d0 []
     let reads : List (Nat × ObjRead) := []
     let cmd : Nat := 1
     let id : Nat := 9
     let o : Obj := bobj 208
     let img : Bytes := s.wholeObj id o
     let free : State := State.pinImage { s with cs := { s.cs with wopen := none, wopenCode := sOk } } id img false
     let r : State × Option (List Bytes) := free.readTensors id img reads
     let held : Prop := ∃ x, x ∈ State.tensorObjs id img ∧ s.heldObj x = true
     s.awake = true ∧ s.cs.wopen = some (cmd, id) ∧ s.obj id = some o ∧ cmd ≠ 2 ∧ (¬held) ∧ r.snd = none) ∧
    (let s : State := zt (wsi 1 1 d0 [(8, some tob)])
     let reads : List (Nat × ObjRead) := []
     let cmd : Nat := 1
     let id : Nat := 9
     let o : Obj := bobj 208
     let img : Bytes := s.wholeObj id o
     let free : State := State.pinImage { s with cs := { s.cs with wopen := none, wopenCode := sOk } } id img false
     let r : State × Option (List Bytes) := free.readTensors id img reads
     let held : Prop := ∃ x, x ∈ State.tensorObjs id img ∧ s.heldObj x = true
     let tiles : List Bytes := [zeros 512]
     let plain : List Bytes := State.openTiles id img ((unwrapKey img).getD []) tiles
     let w : State × Code := r.fst.writeTensors id img plain
     r.snd = some tiles → w.snd ≠ sOk →
       s.awake = true ∧ s.cs.wopen = some (cmd, id) ∧ s.obj id = some o ∧ cmd ≠ 2 ∧ (¬held) ∧ cmd = 1) ∧
    (let s : State := { wsi 3 0 d0 [] with cs := { (wsi 3 0 d0 []).cs with weights := [{ digest := d0, binding := [], claimed := true, device := 77, tick := 0 }] } }
     let reads : List (Nat × ObjRead) := []
     let cmd : Nat := 3
     let id : Nat := 9
     let o : Obj := bobj 208
     let img : Bytes := s.wholeObj id o
     let dig : Bytes := slice img 32 32
     let free : State := State.pinImage { s with cs := { s.cs with wopen := none, wopenCode := sOk } } id img false
     let r : State × Option (List Bytes) := free.readTensors id img reads
     let held : Prop := ∃ x, x ∈ State.tensorObjs id img ∧ s.heldObj x = true
     let tiles : List Bytes := []
     s.awake = true ∧ s.cs.wopen = some (cmd, id) ∧ s.obj id = some o ∧ cmd ≠ 2 ∧ (¬held) ∧ cmd = 3 ∧
       r.snd = some tiles ∧ State.plainDigest img tiles = dig ∧ (∃ e, e ∈ s.cs.weights ∧ e.digest = dig)) ∧
    (let s : State := ws (fun c => { c with wopen := some (1, 9) }) [(9, some (bobj 200))]
     let reads : List (Nat × ObjRead) := []
     let cmd : Nat := 1
     let id : Nat := 9
     let o : Obj := bobj 200
     let img : Bytes := s.wholeObj id o
     let dig : Bytes := slice img 32 32
     let free : State := State.pinImage { s with cs := { s.cs with wopen := none, wopenCode := sOk } } id img false
     let r : State × Option (List Bytes) := free.readTensors id img reads
     let held : Prop := ∃ x, x ∈ State.tensorObjs id img ∧ s.heldObj x = true
     let tiles : List Bytes := []
     let plain : List Bytes := State.openTiles id img ((unwrapKey img).getD []) tiles
     let w : State × Code := r.fst.writeTensors id img plain
     s.awake = true ∧ s.cs.wopen = some (cmd, id) ∧ s.obj id = some o ∧ cmd ≠ 2 ∧ (¬held) ∧ cmd = 1 ∧
       r.snd = some tiles ∧ w.snd = sOk ∧ State.plainDigest img plain ≠ dig) := by
  refine ⟨?_, ?_, ?_, ?_, ?_, ?_, ?_, ?_, ?_, ?_, fun _ _ => ?_, ?_, ?_⟩
  · first
      | decide +kernel
      | (repeat' apply And.intro) <;> first
        | decide +kernel

  · first
      | decide +kernel
      | (repeat' apply And.intro) <;> first
        | decide +kernel

  · first
      | decide +kernel
      | (repeat' apply And.intro) <;> first
        | decide +kernel

  · first
      | decide +kernel
      | (repeat' apply And.intro) <;> first
        | decide +kernel

  · first
      | decide +kernel
      | (repeat' apply And.intro) <;> first
        | decide +kernel

  · first
      | decide +kernel
      | (repeat' apply And.intro) <;> first
        | decide +kernel

  · first
      | decide +kernel
      | (repeat' apply And.intro) <;> first
        | decide +kernel

  · first
      | decide +kernel
      | (repeat' apply And.intro) <;> first
        | decide +kernel

  · first
      | decide +kernel
      | (repeat' apply And.intro) <;> first
        | decide +kernel

  · first
      | decide +kernel
      | (repeat' apply And.intro) <;> first
        | decide +kernel

  · first
      | decide +kernel
      | (repeat' apply And.intro) <;> first
        | decide +kernel

  · first
      | decide +kernel
      | (repeat' apply And.intro) <;> first
        | decide +kernel

  · first
      | decide +kernel
      | (repeat' apply And.intro) <;> first
        | decide +kernel


theorem witness_EntropyReportsAndWatchdogs :
    (let s : State := es (fun c => { c with entropyN := 2, entropyS := 2, lastFailN := some 5, lastFailS := some 5 }) (4 + 2 ^ 20)
     let k : Nat := 1
     let last : Option Nat := if k = 1 then s.cs.lastFailS else s.cs.lastFailN
     let a : Nat := 5
     s.awake = true ∧ k < 2 ∧ s.entropyOf (k == 1) ≠ 1 ∧ s.entropyOf (k == 1) = 2 ∧ s.cs.akReady = false ∧
       (s.svPort k).waiting = [] ∧ last = some a ∧ s.tb.up < a + 2 ^ 20 ∧ s.cs.reports = [] ∧ s.mgmt.waiting = [] ∧
       s.rel.audit = none) ∧
    (let s : State := es (fun c => { c with reports := [rr (.session 0 11)] }) 3
     let r : ReportReq := rr (.session 0 11)
     let e : Nat := 0
     let id : Nat := 11
     s.awake = true ∧ s.cs.reports = [r] ∧ r.who = ReportFor.session e id ∧ s.mgmt.waiting = [] ∧
       List.length (s.signReport r.body) < 8128) ∧
    (let s : State := es (fun c => { c with entropyN := 1, entropyS := 1, lastFailN := some 5, lastFailS := some 5 }) (5 + 2 ^ 20)
     let k : Nat := 1
     let last : Option Nat := if k = 1 then s.cs.lastFailS else s.cs.lastFailN
     let a : Nat := 5
     s.awake = true ∧ k < 2 ∧ s.entropyOf (k == 1) = 1 ∧ (∀ (a : Nat), last = some a → a + 2 ^ 20 ≤ s.tb.up) ∧
       last = some a ∧ s.entropyOf (k == 1) ≠ 2) ∧
    (let s : State := { es id 3 with rel := { audit := some none } }
     let agent : Nat := 0
     let v : Word := 1
     let c : Nat := 31
     s.awake = true ∧ s.coreUp agent = true ∧ BitVec.getLsbD v 0 = true ∧ c ≠ agent ∧ s.rel.audit = some none) ∧
    (let s : State := { es id 65540 with rel := { kicks := [(0, 4), (31, 5)] } }
     let core : Nat := 31
     s.awake = true ∧ core < 32 ∧ s.boot.mortar = true ∧ s.tb.up < aget 0 s.rel.kicks core + 2 ^ 16) ∧
    (let s : State := { es (fun c => { c with reports := [rr (.mgmt 4 5)] }) 3 with mgmt := { conns := [⟨4, 0, 0, 0⟩] } }
     let r : ReportReq := rr (.mgmt 4 5)
     let conn : Nat := 4
     let tag : Word := 5
     s.awake = true ∧ s.cs.reports = [r] ∧ r.who = ReportFor.mgmt conn tag ∧ s.mgmt.waiting = [] ∧
       (∃ c, c ∈ s.mgmt.conns ∧ c.id = conn)) ∧
    (let s : State := { es id 3 with rel := { audit := some none } }
     let agent : Nat := 0
     let v : Word := 0
     s.awake = true ∧ s.coreUp agent = true ∧ BitVec.getLsbD v 0 = false) ∧
    (let s : State := { es id 65540 with rel := { kicks := [(0, 4), (31, 5)] } }
     let core : Nat := 0
     s.awake = true ∧ core < 32 ∧ s.boot.mortar = true ∧ aget 0 s.rel.kicks core + 2 ^ 16 ≤ s.tb.up) ∧
    (let s : State := { es id 3 with rel := { audit := some (some (4, 5)) } }
     let x : Nat × Nat := (4, 5)
     s.awake = true ∧ s.rel.audit = some (some x)) ∧
    (let s : State := es (fun c => { c with entropyN := 1, entropyS := 1, lastFailN := some 5, lastFailS := some 5 }) (4 + 2 ^ 20)
     let k : Nat := 1
     let last : Option Nat := if k = 1 then s.cs.lastFailS else s.cs.lastFailN
     let a : Nat := 5
     s.awake = true ∧ k < 2 ∧ s.entropyOf (k == 1) = 1 ∧ last = some a ∧ s.tb.up < a + 2 ^ 20) := by
  refine ⟨?_, ?_, ?_, ?_, ?_, ?_, ?_, ?_, ?_, ?_⟩ <;> first
    | decide +kernel
    | (repeat' apply And.intro) <;> first
      | decide +kernel


end CornerW

/-! ### Witnesses: Boot -/

namespace BootW

def ft (h : Bool) (l : Bool) : ReleaseFacts := { bootsel := h, mgmtSel := l, testMode := false, railsOk := h }
def stg (x : BootStage) (f : Boot → Boot) : State := { up with boot := f { stage := x } }

theorem witness_BootStages :
    (let s : State := { stg .time (fun b => { b with mortar := true, ddrDone := true }) with cs := { scrubbed := true, akReady := true }, tb := { state := .locked }, footing := { seedDevice := 5 } }
     s.awake = true ∧ s.boot.stage ≠ BootStage.rom ∧
       (s.boot.fwVerified = false ∨ (s.entropyOf !s.boot.primaryS) ≠ 0) ∧
       (s.boot.stage ≠ BootStage.firmware ∨ s.boot.fwVerified = true) ∧ s.boot.stage ≠ BootStage.footing ∧
       (s.boot.mortar = false ∨ s.cs.scrubbed = true ∨ s.unitsSettled = false ∨ s.keysReady = false) ∧
       s.boot.mortar = true ∧ (s.boot.stage = BootStage.bringUp ∨ s.boot.stage = BootStage.time) ∧
       s.cs.scrubbed = true ∧ s.unitsSettled = true ∧ s.tb.state = TbState.locked ∧ s.cs.akReady = true ∧
       s.footing.bundle = [] ∧ s.system.device ≠ s.footing.seedDevice ∧
       (∀ (u : Nat), u ∈ allUnits → (s.unit u).state ≠ UnitState.mappedOut)) ∧
    (let s : State := stg .firmware id
     let readable : Bool := true
     let mib : Nat := 128
     s.awake = true ∧ s.boot.stage = BootStage.firmware ∧ s.boot.fwVerified = false ∧ readable = true ∧
       (mib = 128 ∨ mib = 256 ∨ mib = 512) ∧ (firmwareCheck s.flash false).fst ≠ sOk ∧
       (firmwareCheck s.flash true).fst ≠ sOk ∧
       (s.boot.stage ≠ BootStage.bringUp ∧ s.boot.stage ≠ BootStage.time ∨ s.cs.scrubbed = false ∨ s.unitsSettled = false)) ∧
    (let s : State := stg .selfTest id
     let f : SelfTestFacts := { d2d := true, ashlarOk := 0xF, clayOk := 0xFFFF, ksN := true, ksS := true, faulty := [] }
     s.awake = true ∧ s.boot.stage = BootStage.selfTest ∧ f.d2d = true ∧ f.ashlarOk = 15 ∧ f.clayOk = 65535 ∧
       f.ksN = true ∧ f.ksS = true) ∧
    (let s : State := stg .rom id
     let n : Bool := true
     let k : Bool := true
     let own : Bool := if s.boot.primaryS = true then k else n
     s.awake = true ∧ s.boot.stage = BootStage.rom ∧ own = true ∧ ownIdentityOk (aread 255 s.flash 0 280) = false) ∧
    (let s : State := {}
     let f : ReleaseFacts := ft true false
     s.inReset = true ∧ s.stopped = false ∧ f.testMode = false ∧ f.railsOk = true) ∧
    (let s : State := up
     let n : Bool := true
     let k : Bool := true
     let other : Bool := if s.boot.primaryS = true then n else k
     s.awake = true ∧ s.boot.stage ≠ BootStage.rom ∧ s.boot.fwVerified = true ∧
       (s.entropyOf !s.boot.primaryS) = 0 ∧ other = true ∧ s.boot.mortar = true ∧ s.cs.scrubbed = false) ∧
    (let s : State := { stg .footing (fun b => { b with flashMib := 128 }) with out := [] }
     let a : Code × Footing := footingCheck s.flash s.boot.flashMib false s.marlFound
     let b : Code × Footing := footingCheck s.flash s.boot.flashMib true s.marlFound
     s.awake = true ∧ s.boot.stage = BootStage.footing ∧ a.fst ≠ sOk ∧ b.fst ≠ sOk) ∧
    (let s : State := { stg .bringUp (fun b => { b with mortar := true, ddrDone := true }) with sectors := [(3, 4)] }
     s.awake = true ∧ s.boot.mortar = true ∧ s.cs.scrubbed = false ∧ s.unitsSettled = true ∧ s.keysReady = true ∧
       s.footing.confidential = false) ∧
    (let s : State := {}
     let f : ReleaseFacts := ft false true
     s.inReset = true ∧ s.stopped = false ∧ f.railsOk = false) ∧
    (let s : State := stg .firmware id
     let readable : Bool := true
     let mib : Nat := 0
     s.awake = true ∧ s.boot.stage = BootStage.firmware ∧ s.boot.fwVerified = false ∧
       (readable = false ∨ mib ≠ 128 ∧ mib ≠ 256 ∧ mib ≠ 512)) ∧
    (let s : State := {}
     let f : ReleaseFacts := { ft true true with testMode := true }
     s.inReset = true ∧ s.stopped = false ∧ f.testMode = true) ∧
    (let s : State := up
     let n : Bool := true
     let k : Bool := false
     let other : Bool := if s.boot.primaryS = true then n else k
     s.awake = true ∧ s.boot.stage ≠ BootStage.rom ∧ s.boot.fwVerified = true ∧
       (s.entropyOf !s.boot.primaryS) = 0 ∧ other = false) ∧
    (let s : State := stg .rom id
     let n : Bool := false
     let k : Bool := true
     let own : Bool := if s.boot.primaryS = true then k else n
     s.awake = true ∧ s.boot.stage = BootStage.rom ∧ own = false) ∧
    (let s : State := { stg .bringUp (fun b => { b with mortar := true, ddrDone := true }) with cs := { scrubbed := true } }
     s.awake = true ∧ (s.boot.stage = BootStage.bringUp ∨ s.boot.stage = BootStage.time) ∧ s.cs.scrubbed = true ∧
       s.unitsSettled = true ∧ (s.tb.state ≠ TbState.locked ∨ s.cs.akReady = false)) ∧
    (let s : State := stg .selfTest id
     let f : SelfTestFacts := { d2d := true, ashlarOk := 0xF, clayOk := 0xFFFF, ksN := true, ksS := false, faulty := [] }
     s.awake = true ∧ s.boot.stage = BootStage.selfTest ∧ f.d2d = true ∧ f.ksS = false) ∧
    (let s : State := stg .selfTest id
     let f : SelfTestFacts := { d2d := false, ashlarOk := 0xF, clayOk := 0xFFFF, ksN := true, ksS := true, faulty := [] }
     s.awake = true ∧ s.boot.stage = BootStage.selfTest ∧ f.d2d = false) ∧
    (let s : State := { stg .bringUp (fun b => { b with mortar := true, ddrDone := true }) with sectors := [(3, 4)], footing := { confidential := true }, cs := { entropyN := 1, entropyS := 1 } }
     s.awake = true ∧ s.boot.mortar = true ∧ s.cs.scrubbed = false ∧ s.unitsSettled = true ∧ s.keysReady = true ∧
       s.footing.confidential = true) := by
  refine ⟨?_, ?_, ?_, ?_, ?_, ?_, ?_, ?_, ?_, ?_, ?_, ?_, ?_, ?_, ?_, ?_, ?_⟩ <;> first
    | decide +kernel
    | (repeat' apply And.intro) <;> first
      | decide +kernel


end BootW

/-! ### Witnesses: Fetches, power and pins -/

namespace PinsW

def fd (op : Nat) (off len : Nat) (n : Nat) : Bytes := leBytes 4 0x48435447 ++ leBytes 1 op ++ zeros 3 ++ zeros 32 ++ leBytes 8 off ++ leBytes 4 len ++ List.replicate n 7
def g0 : Get := { offset := 0, length := 4, tries := 0 }
def ff (gs : List Get) (next total : Nat) : Fetch := { digest := zeros 32, next := next, total := total, gets := gs, data := [], owner := 0 }
def fs (f : Option Fetch) : State := { fp { storageAddr := 5, storageUdp := 6, hasStorage := true } with fetch := f }
def ps (p : Power) : State := { up with power := p }
def pf (mw : Nat) (oc : Bool) (t : Int) : PowerFacts := { milliwatts := mw, failures := 0, unread := [], overCurrent := oc, ashlar := [t, t, t, t], clay := [t, t, t, t], ksN := 0, ksS := 0 }
def cf (s : State) : State := { s with footing := { s.footing with present := true, confidential := true }, cs := { s.cs with akReady := true, akPriv := [1], unitKeys := [(0, [1])] } }

theorem witness_ImageFetch :
    (let s : State := fs (some (ff [g0, { g0 with offset := 4 }] 8 8))
     let port : Nat := 1
     let d : Bytes := fd 2 0 4 4
     let f : Fetch := ff [g0, { g0 with offset := 4 }] 8 8
     let g : Get := g0
     let h : Get := { g0 with offset := 4 }
     let off : Nat := 0
     let len : Nat := 4
     s.awake = true ∧ port < 2 ∧ s.fetch = some f ∧ fetchFields d = some (2, f.digest, off, len) ∧
       List.length d = 52 + len ∧ f.gets = [g, h] ∧ g.offset = off ∧ g.length = len ∧ h.offset ≠ off ∧
       f.total ≤ f.next) ∧
    (let s : State := fs none
     let port : Nat := 1
     let d : Bytes := []
     s.awake = true ∧ port < 2 ∧ (s.fetch = none ∨ fetchFields d = none) ∧ s.fetch = none) ∧
    (let s : State := fs (some (ff [{ g0 with tries := 8 }] 4 8))
     let off : Nat := 0
     let f : Fetch := ff [{ g0 with tries := 8 }] 4 8
     let g : Get := { g0 with tries := 8 }
     s.awake = true ∧ s.fetch = some f ∧ f.gets = [g] ∧ g.offset = off ∧ 8 ≤ g.tries) ∧
    (let s : State := fs (some (ff [g0] 4 8))
     let port : Nat := 1
     let d : Bytes := fd 3 0 0 0
     let f : Fetch := ff [g0] 4 8
     let off : Nat := 0
     s.awake = true ∧ port < 2 ∧ s.fetch = some f ∧ fetchFields d = some (3, f.digest, off, 0) ∧
       List.length d = 52) ∧
    (let s : State := fs (some (ff [g0] 4 8))
     let port : Nat := 1
     let d : Bytes := fd 1 0 4 4
     let f : Fetch := ff [g0] 4 8
     let op : Nat := 1
     let dig : Bytes := zeros 32
     let off : Nat := 0
     let len : Nat := 4
     s.awake = true ∧ port < 2 ∧ s.fetch = some f ∧ fetchFields d = some (op, dig, off, len) ∧
       (op ≠ 2 ∨ dig ≠ f.digest)) ∧
    (let s : State := fs (some (ff [{ g0 with tries := 7 }] 4 8))
     let off : Nat := 0
     let f : Fetch := ff [{ g0 with tries := 7 }] 4 8
     let g : Get := { g0 with tries := 7 }
     s.awake = true ∧ s.fetch = some f ∧ f.gets = [g] ∧ g.offset = off ∧ g.tries < 8) := by
  refine ⟨?_, ?_, ?_, ?_, ?_, ?_⟩ <;> first
    | decide +kernel
    | (repeat' apply And.intro) <;> first
      | decide +kernel


theorem witness_PowerGatesResetAndPins :
    (let s : State := cf { ps {} with pins := { pwrOk := true } }
     let ir : Byte := 0
     s.powered = true ∧ s.stopped = false ∧ s.pins.pwrOk = true ∧ s.footing.present = true ∧
       s.footing.confidential = true ∧ State.drivesPins ir = true ∧ s.rel.fatal = false) ∧
    (let s : State := { ps {} with pins := { pwrOk := true }, flash := [(3, 4)] }
     let ir : Byte := 0x80
     s.pins.pwrOk = true ∧ s.stopped = false ∧ s.footing.confidential = false ∧
       s.boot.stage ≠ BootStage.firmware ∧ 128 ≤ BitVec.toNat ir ∧ s.cs.debugLocked = true) ∧
    (let s : State := { ps { tapIr := 3 } with stopped := true, pins := { pwrOk := true } }
     s.stopped = true ∧ (s.pins.pwrOk = false ∨ s.stopped = true)) ∧
    (let s : State := ps {}
     let a : Nat := 3
     s.powered = true ∧ a < 4) ∧
    (let s : State := ps {}
     let oc : Bool := true
     s.powered = true ∧ oc = true) ∧
    (let s : State := ps {}
     let oc : Bool := false
     s.powered = true ∧ oc = false) ∧
    (let s : State := { ps {} with pins := { pwrOk := true }, flash := [(3, 4)] }
     let ir : Byte := 0
     s.pins.pwrOk = true ∧ s.stopped = false ∧ s.footing.confidential = false ∧
       s.boot.stage ≠ BootStage.firmware ∧ (ir = 1 ∨ ir = 2 ∨ ir = 255 ∨ State.drivesPins ir = true)) := by
  refine ⟨?_, ?_, ?_, ?_, ?_, ?_, ?_⟩ <;> first
    | decide +kernel
    | (repeat' apply And.intro) <;> first
      | decide +kernel


end PinsW

/-! ### Witnesses: Management connections and reads -/

namespace MgmtW

def c4 : MgmtConn := ⟨4, 2, 9, 0⟩
def ms (f : Mgmt → Mgmt) (g : Footing → Footing) (b : Boot → Boot) : State := { fp (g { operators := [(2, [1, 2]), (0, [3])], leadLog2 := 4, ex := 4 }) with mgmt := f { conns := [c4] }, boot := b { mgmtOpen := true, stage := .ready, mortar := true }, tb := { tick := 2 ^ 28, up := 2 ^ 28 } }
def mf (ok : Bool) (k : Bytes) : MgmtFacts := { conn := 7, source := 9, tlsOk := ok, clientKey := k }
def mm (b : Bytes) : Cirid := { conn := 4, tag := 5, body := b }
def rd (a n : Nat) : Bytes := leBytes 8 a ++ leBytes 4 n
def cobj (tiles : Nat) : Obj := { bytesKind := true, fmt := 0, tiles := tiles, size := 4096 * tiles, residence := .clay, creating := false, place := some { host := 0, first := 0, ranks := 1, offset := 0, order := 0, base := 0, bricks := [0], granules := 4 }, charged := 0 }
def ke : KeptEntry := { entry := { seq := 3, tick := 0, slot := 2, code := 0, cmdDigest := zeros 32, prev := zeros 32, accepted := 5, op := 0x107, body := [1] }, head := [], fired := true, outcome := 0, outcomeCycle := 9, cancelled := false }
def mo (s : State) : State := { s with objs := [(9, some (cobj 2)), (10, some { cobj 2 with lost := true })], cs := { s.cs with akReady := true }, journal := { seq := 3, entries := [ke] } }

theorem witness_ManagementConnections :
    (let x : (Cirid → Instr) × Nat := (Instr.job, 263)
     let s : State := ms id id (fun b => { b with stage := .recovery })
     let m : Cirid := mm (zeros 8)
     let op : Nat := opOf x.snd m
     s.powered = true ∧ s.boot.mgmtOpen = true ∧ (∃ c, c ∈ s.mgmt.conns ∧ c.id = m.conn) ∧
       List.length m.body ≤ 1048576 ∧ s.mustWait op m = false ∧
       (∀ (y : Nat × Cirid), y ∈ s.mgmt.waiting → y.snd.conn ≠ m.conn) ∧ s.rel.fatal = false ∧
       s.boot.stage = BootStage.recovery ∧ (¬op % 65536 ∈ [1, 513, 514])) ∧
    (let s : State := ms (fun m => { m with conns := List.replicate 3 c4, tlsFails := [(9, 15)] }) id id
     let f : MgmtFacts := mf true [7]
     let key : Option Nat := if s.boot.stage = BootStage.recovery then if f.clientKey = Config.ownerKey then some 0 else none else Option.map (fun x => x.fst) (List.find? (fun x => x.snd == f.clientKey) s.footing.operators)
     s.powered = true ∧ s.boot.mgmtOpen = true ∧ (∀ (c : MgmtConn), c ∈ s.mgmt.conns → c.id ≠ f.conn) ∧
       s.mgmt.conns.length < 4 ∧ aget 0 s.mgmt.tlsFails f.source < 16 ∧ f.tlsOk = true ∧
       (f.tlsOk = false ∨ key = none)) ∧
    (let x : (Cirid → Instr) × Nat := (Instr.job, 263)
     let s : State := { ms id id id with rel := { fatal := true } }
     let m : Cirid := mm (zeros 8)
     let op : Nat := opOf x.snd m
     s.powered = true ∧ s.boot.mgmtOpen = true ∧ (∃ c, c ∈ s.mgmt.conns ∧ c.id = m.conn) ∧
       List.length m.body ≤ 1048576 ∧ s.mustWait op m = false ∧
       (∀ (y : Nat × Cirid), y ∈ s.mgmt.waiting → y.snd.conn ≠ m.conn) ∧ s.rel.fatal = true ∧
       servedFatal op s.footing.confidential = false) ∧
    (let s : State := ms id id id
     let conn : Nat := 4
     s.powered = true ∧ (∃ c, c ∈ s.mgmt.conns ∧ c.id = conn ∧ c.lastTick + 2 ^ 28 ≤ s.tb.up)) ∧
    (let s : State := ms id id id
     let conn : Nat := 5
     s.powered = true ∧ (∀ (c : MgmtConn), c ∈ s.mgmt.conns → c.id = conn → s.tb.up < c.lastTick + 2 ^ 28)) ∧
    (let s : State := ms id id id
     let m : Cirid := { mm [] with conn := 5 }
     (s.powered = false ∨ s.boot.mgmtOpen = false ∨ ∀ (c : MgmtConn), c ∈ s.mgmt.conns → c.id ≠ m.conn)) ∧
    (let x : (Cirid → Instr) × Nat := (Instr.job, 263)
     let s : State := ms id id id
     let m : Cirid := mm (zeros 8)
     let op : Nat := opOf x.snd m
     s.powered = true ∧ s.boot.mgmtOpen = true ∧ (∃ c, c ∈ s.mgmt.conns ∧ c.id = m.conn) ∧
       List.length m.body ≤ 1048576 ∧ s.mustWait op m = false ∧
       (∀ (y : Nat × Cirid), y ∈ s.mgmt.waiting → y.snd.conn ≠ m.conn) ∧ s.rel.fatal = false ∧
       s.boot.stage ≠ BootStage.recovery) ∧
    (let s : State := ms (fun m => { m with tlsFails := [(9, 16)] }) id id
     let f : MgmtFacts := mf true [7]
     s.powered = true ∧ s.boot.mgmtOpen = true ∧ (∀ (c : MgmtConn), c ∈ s.mgmt.conns → c.id ≠ f.conn) ∧
       (4 ≤ s.mgmt.conns.length ∨ 16 ≤ aget 0 s.mgmt.tlsFails f.source)) ∧
    (let x : (Cirid → Instr) × Nat := (Instr.job, 263)
     let s : State := ms id id id
     let m : Cirid := { mm [] with reservedOp := some 0x300 }
     let op : Nat := opOf x.snd m
     s.powered = true ∧ s.boot.mgmtOpen = true ∧ (∃ c, c ∈ s.mgmt.conns ∧ c.id = m.conn) ∧
       List.length m.body ≤ 1048576 ∧ s.mustWait op m = false ∧
       (∀ (y : Nat × Cirid), y ∈ s.mgmt.waiting → y.snd.conn ≠ m.conn) ∧ s.rel.fatal = false ∧
       s.boot.stage ≠ BootStage.recovery ∧ (¬op % 65536 ∈ tableOps)) ∧
    (let x : (Cirid → Instr) × Nat := (Instr.job, 263)
     let s : State := ms (fun m => { m with flashOp := some (0, mm []) }) id id
     let m : Cirid := mm (zeros 8)
     let op : Nat := opOf x.snd m
     s.powered = true ∧ s.boot.mgmtOpen = true ∧ (∃ c, c ∈ s.mgmt.conns ∧ c.id = m.conn) ∧
       List.length m.body ≤ 1048576 ∧ (s.mustWait op m = true ∨ ∃ y, y ∈ s.mgmt.waiting ∧ y.snd.conn = m.conn)) ∧
    (let s : State := ms (fun m => { m with conns := List.replicate 3 c4, tlsFails := [(9, 15)] }) id id
     let f : MgmtFacts := mf true [1, 2]
     let key : Option Nat := if s.boot.stage = BootStage.recovery then if f.clientKey = Config.ownerKey then some 0 else none else Option.map (fun x => x.fst) (List.find? (fun x => x.snd == f.clientKey) s.footing.operators)
     let slot : Nat := 2
     s.powered = true ∧ s.boot.mgmtOpen = true ∧ (∀ (c : MgmtConn), c ∈ s.mgmt.conns → c.id ≠ f.conn) ∧
       s.mgmt.conns.length < 4 ∧ aget 0 s.mgmt.tlsFails f.source < 16 ∧ f.tlsOk = true ∧ key = some slot) := by
  refine ⟨?_, ?_, ?_, ?_, ?_, ?_, ?_, ?_, ?_, ?_, ?_⟩ <;> first
    | decide +kernel
    | (repeat' apply And.intro) <;> first
      | decide +kernel


theorem witness_ManagementReads :
    (let s : State := ms id id id
     let slot : Nat := 2
     let m : Cirid := mm (rd 0x2004 1)
     let u : State := s.noted m
     let b : Bytes := m.body
     let n : Nat := fieldLE b 8 4
     let a : Nat := fieldLE b 0 8
     let w : Word := 0
     plainHeader m ∧ s.Serves 1 slot m ∧ b ≠ [] ∧ s.Serves 7 slot m ∧ s.Serves 2 slot m ∧ List.length b = 12 ∧
       1 ≤ n ∧ n ≤ 256 ∧ s.footing.confidential = false ∧
       (∀ (i : Nat), i < n → u.regAt (a + 4 * i) ≠ none ∧ pairLow (a + 4 * i) = false ∧ (a + 4 * i < 4 ∨ pairLow (a + 4 * i - 4) = false)) ∧
       n = 1 ∧ u.regAt a = some w ∧ pairLow a = false ∧ 4 ≤ a ∧ s.Serves 3 slot m ∧
       (∃ i, i < n ∧ ((a + 4 * i) % 4 ≠ 0 ∨ isStat (a + 4 * i) = false)) ∧ s.Serves 4 slot m ∧ List.length b ≠ 32 ∧
       s.Serves 5 slot m ∧ n ≤ 1024 ∧ s.Serves 6 slot m) ∧
    (let s : State := mo (ms id id id)
     let slot : Nat := 2
     let m : Cirid := mm (leBytes 4 9 ++ leBytes 4 1 ++ leBytes 4 1)
     let u : State := s.noted m
     let b : Bytes := m.body
     let n : Nat := fieldLE b 8 4
     let id : Nat := fieldLE b 0 4
     let first : Nat := fieldLE b 4 4
     let o : Obj := cobj 2
     let r : State × Option (List Bytes) := u.fetchTiles id o m.read first n
     plainHeader m ∧ s.Serves 6 slot m ∧ List.length b = 12 ∧ 1 ≤ n ∧ n ≤ 256 ∧ s.footing.confidential = false ∧
       s.readable id = some o ∧ first + n ≤ o.tiles ∧ o.lost = false ∧ (∃ ts : List Bytes, r.snd = some ts)) ∧
    (let s : State := ms id id id
     let slot : Nat := 2
     let m : Cirid := mm (rd 0x2000 0)
     let b : Bytes := m.body
     let n : Nat := fieldLE b 8 4
     plainHeader m ∧ s.Serves 2 slot m ∧ List.length b = 12 ∧ (n = 0 ∨ 256 < n) ∧ s.Serves 3 slot m ∧
       s.Serves 5 slot m ∧ (n = 0 ∨ 1024 < n) ∧ s.Serves 6 slot m) ∧
    (let s : State := ms id id id
     let slot : Nat := 2
     let m : Cirid := mm (zeros 32)
     let b : Bytes := m.body
     plainHeader m ∧ s.Serves 4 slot m ∧ List.length b = 32 ∧ s.reportRoom = false) ∧
    (let s : State := mo (ms id (fun f => { f with confidential := true }) id)
     let slot : Nat := 2
     let m : Cirid := mm (rd 0x2040 1)
     let b : Bytes := m.body
     let n : Nat := fieldLE b 8 4
     let a : Nat := fieldLE b 0 8
     plainHeader m ∧ s.Serves 2 slot m ∧ List.length b = 12 ∧ 1 ≤ n ∧ n ≤ 256 ∧ s.footing.confidential = true ∧
       s.Serves 3 slot m ∧ (∀ (i : Nat), i < n → (a + 4 * i) % 4 = 0 ∧ isStat (a + 4 * i) = true) ∧
       s.Serves 6 slot m) ∧
    (let s : State := ms id id id
     let slot : Nat := 2
     let m : Cirid := mm []
     let b : Bytes := m.body
     plainHeader m ∧ s.Serves 1 slot m ∧ b = [] ∧ s.Serves 7 slot m) ∧
    (let s : State := mo (ms id id id)
     let slot : Nat := 2
     let m : Cirid := mm (zeros 32)
     let b : Bytes := m.body
     plainHeader m ∧ s.Serves 4 slot m ∧ List.length b = 32 ∧ s.reportRoom = true) ∧
    (let s : State := ms id id id
     let slot : Nat := 2
     let m : Cirid := mm (rd 3 1)
     let b : Bytes := m.body
     let n : Nat := fieldLE b 8 4
     let id : Nat := fieldLE b 0 4
     plainHeader m ∧ s.Serves 6 slot m ∧ List.length b = 12 ∧ 1 ≤ n ∧ n ≤ 256 ∧ s.footing.confidential = false ∧
       s.readable id = none) ∧
    (let s : State := ms id id id
     let slot : Nat := 2
     let m : Cirid := mm (rd 3 1)
     let u : State := s.noted m
     let b : Bytes := m.body
     let n : Nat := fieldLE b 8 4
     let a : Nat := fieldLE b 0 8
     plainHeader m ∧ s.Serves 2 slot m ∧ List.length b = 12 ∧ 1 ≤ n ∧ n ≤ 256 ∧ s.footing.confidential = false ∧
       (∃ i, i < n ∧ u.regAt (a + 4 * i) = none)) ∧
    (let s : State := ms id id id
     let slot : Nat := 2
     let m : Cirid := mm (rd 0x2010 1)
     let u : State := s.noted m
     let b : Bytes := m.body
     let n : Nat := fieldLE b 8 4
     let a : Nat := fieldLE b 0 8
     let w : Word := 0
     plainHeader m ∧ s.Serves 2 slot m ∧ List.length b = 12 ∧ n = 1 ∧ s.footing.confidential = false ∧
       u.regAt a = some w ∧ pairLow a = true) ∧
    (let s : State := ms id id id
     let slot : Nat := 2
     let m : Cirid := mm (rd 0x2014 1)
     let u : State := s.noted m
     let b : Bytes := m.body
     let n : Nat := fieldLE b 8 4
     let a : Nat := fieldLE b 0 8
     let w : Word := 0
     plainHeader m ∧ s.Serves 2 slot m ∧ List.length b = 12 ∧ n = 1 ∧ s.footing.confidential = false ∧
       u.regAt a = some w ∧ pairLow a = false ∧ 4 ≤ a ∧ pairLow (a - 4) = true) ∧
    (let s : State := mo (ms id id id)
     let slot : Nat := 2
     let m : Cirid := mm (leBytes 4 9 ++ leBytes 4 2 ++ leBytes 4 1)
     let b : Bytes := m.body
     let n : Nat := fieldLE b 8 4
     let id : Nat := fieldLE b 0 4
     let first : Nat := fieldLE b 4 4
     let o : Obj := cobj 2
     plainHeader m ∧ s.Serves 6 slot m ∧ List.length b = 12 ∧ 1 ≤ n ∧ n ≤ 256 ∧ s.footing.confidential = false ∧
       s.readable id = some o ∧ o.tiles < first + n) ∧
    (let s : State := mo (ms id id id)
     let slot : Nat := 2
     let m : Cirid := mm (leBytes 4 10 ++ leBytes 4 1 ++ leBytes 4 1)
     let b : Bytes := m.body
     let n : Nat := fieldLE b 8 4
     let id : Nat := fieldLE b 0 4
     let first : Nat := fieldLE b 4 4
     let o : Obj := { cobj 2 with lost := true }
     plainHeader m ∧ s.Serves 6 slot m ∧ List.length b = 12 ∧ 1 ≤ n ∧ n ≤ 256 ∧ s.footing.confidential = false ∧
       s.readable id = some o ∧ first + n ≤ o.tiles ∧ o.lost = true) ∧
    (let s : State := mo (ms id id id)
     let slot : Nat := 2
     let m : Cirid := { mm (leBytes 4 9 ++ leBytes 4 1 ++ leBytes 4 1) with read := [(1, [(0, .uncorrectable)])] }
     let u : State := s.noted m
     let b : Bytes := m.body
     let n : Nat := fieldLE b 8 4
     let id : Nat := fieldLE b 0 4
     let first : Nat := fieldLE b 4 4
     let o : Obj := cobj 2
     let r : State × Option (List Bytes) := u.fetchTiles id o m.read first n
     plainHeader m ∧ s.Serves 6 slot m ∧ List.length b = 12 ∧ 1 ≤ n ∧ n ≤ 256 ∧ s.footing.confidential = false ∧
       s.readable id = some o ∧ first + n ≤ o.tiles ∧ o.lost = false ∧ r.snd = none) := by
  refine ⟨?_, ?_, ?_, ?_, ?_, ?_, ?_, ?_, ?_, ?_, ?_, ?_, ?_, ?_⟩ <;> first
    | decide +kernel
    | (repeat' apply And.intro) <;> first
      | decide +kernel
      | exact Option.isSome_iff_exists.mp (by decide +kernel)
      | (simp only [State.Serves, plainHeader]; (repeat' apply And.intro) <;> decide +kernel)

end MgmtW

/-! ### Witnesses: Management changes -/

namespace ChangesW

def c4 : MgmtConn := ⟨4, 2, 9, 0⟩
def ms (f : State → State) (g : Footing → Footing) (b : Boot → Boot) : State := f { fp (g { operators := [(2, [1, 2]), (0, [3])], leadLog2 := 4, ex := 4, ey := 4, cairns := true }) with mgmt := { conns := [c4] }, boot := b { mgmtOpen := true, stage := .ready, mortar := true }, tb := { tick := 2 ^ 28, up := 2 ^ 28 }, bays := [(0, { plan := one, state := .ready })] }
def mm (b : Bytes) : Cirid := { conn := 4, tag := 5, body := b }
def at0 (b : Bytes) : Cirid := mm (zeros 8 ++ b)
def atT (t : Nat) (b : Bytes) : Cirid := mm (leBytes 8 t ++ b)
def sf8 : Bytes := leBytes 2 0x0803 ++ leBytes 4 4096 ++ leBytes 4 11 ++ leBytes 4 12 ++ leBytes 4 13 ++ leBytes 4 14
def sf7 : Bytes := leBytes 2 0x0701 ++ [1, 2, 0, 0] ++ leBytes 4 11 ++ leBytes 4 12 ++ leBytes 4 20 ++ leBytes 4 14 ++ leBytes 4 9
def planB (base : Nat) : Bytes := [1, 1, 1, 0] ++ leBytes 2 0 ++ leBytes 2 5 ++ zeros 24 ++ leBytes 4 0 ++ zeros 12 ++ [0, 3, 3, 0]
def planO : Bytes := [1, 1, 1, 0] ++ leBytes 2 0 ++ leBytes 2 5 ++ zeros 24 ++ leBytes 4 0 ++ zeros 12 ++ [0, 0, 0, 0]
def mds : List (Nat × ModelSlot) := [(0, { bays := 1, draft := 1 }), (1, { bays := 2 })]
def tc : Bytes := leBytes 4 2 ++ leBytes 4 9 ++ zeros 16
def rw (k : Nat) : Bytes := [BitVec.ofNat 8 k, 0, 0, 0] ++ zeros 32 ++ zeros 32
def ke : KeptEntry := { entry := { seq := 7, tick := 2 ^ 28 + 99, slot := 2, code := 0, cmdDigest := zeros 32, prev := zeros 32, accepted := 5, op := 0x107, body := [1] }, head := [], fired := false, outcome := 0, outcomeCycle := 0, cancelled := false }
def jn (s : State) : State := { s with journal := { seq := 7, entries := [ke] }, tb := { s.tb with sched := [{ tick := 2 ^ 28 + 99, cls := 0, arg := 7 }, { tick := 3, cls := 3, arg := 7 }] } }
def fo (sub : Nat) (m : Cirid) (s : State) : State := { s with mgmt := { s.mgmt with flashOp := some (sub, m) }, flash := [(64 * 2 ^ 20 + 2, 5), (96 * 2 ^ 20, 0x0F), (96 * 2 ^ 20 + 9, 0)] }
def er : Cirid := mm [0, 1, 0, 0, 0, 0, 0, 0]
def wrm : Cirid := mm ([1, 1, 0, 0] ++ leBytes 4 0 ++ [0xFF, 0xF1, 3])
def vf : Cirid := mm [2, 1, 0, 0, 0, 0, 0, 0]
def e1 (s : State) : JournalEntry := { seq := 1, tick := 0, slot := 2, code := 0, cmdDigest := zeros 32, prev := State.journalStart s.footing.systemDigest, accepted := 5, op := 0x107, body := [1] }
def e4 : JournalEntry := { seq := 4, tick := 0, slot := 2, code := 0, cmdDigest := zeros 32, prev := List.replicate 32 5, accepted := 5, op := 0x107, body := [1] }
def bst : State := ms id id (fun b => { b with flashMib := 128, ftSlot := false })

theorem witness_ManagementChanges :
    (let s : State := ms id (fun f => { f with models := [(0, { bays := 1 })] }) id
     let slot : Nat := 2
     let m : Cirid := at0 (rw 0)
     let b : List Byte := List.drop 8 m.body
     let chk : Code × Nat := changeCheck 261 m
     let x : Nat × ModelSlot := (0, { bays := 1 })
     let dig : Bytes := slice b 4 32
     let draft : Bytes := slice b 36 32
     let other : Option (Nat × ModelSlot) := List.find? (fun y => y.fst == x.snd.draft) s.footing.models
     s.journalFull = false ∧ s.Serves 257 slot m ∧ s.Serves 258 slot m ∧ s.Serves 259 slot m ∧
       s.Serves 260 slot m ∧ s.Serves 261 slot m ∧ chk.fst = sOk ∧ fieldLE m.body 0 8 = 0 ∧
       (List.find? (fun x => x.fst == fieldLE b 0 1) s.footing.models = some x) ∧
       (aget { : Group } s.serving.groups (fieldLE b 0 1)).replace = none ∧
       (x.snd.draft = 255 ∨ s.shapeChanges x.snd.header dig = false) ∧
       ((fun d => ∀ (img : Bytes), s.headerImage d = some img → (unwrapKey img).isSome = true) dig) ∧
       ((fun d => ∀ (img : Bytes), s.headerImage d = some img → (unwrapKey img).isSome = true) draft ∨ allZero draft = true) ∧
       (other = none ∨ allZero draft = true) ∧ other = none ∧ x.snd.bays ≠ 0 ∧ s.headerImage dig = none ∧
       s.Serves 262 slot m ∧ s.Serves 263 slot m) ∧
    (let s : State := ms id id id
     let slot : Nat := 2
     let m : Cirid := at0 [0, 1]
     let b : List Byte := List.drop 8 m.body
     let chk : Code × Nat := changeCheck 259 m
     s.journalFull = false ∧ s.Serves 259 slot m ∧ chk.fst = sOk ∧ fieldLE m.body 0 8 = 0 ∧ fieldLE b 1 1 = 1 ∧
       (s.bay (fieldLE b 0 1)).state = BayState.ready ∧ (s.bay (fieldLE b 0 1)).shutdown = none ∧
       s.namesVacant (fieldLE b 0 1) = false) ∧
    (let s : State := ms id id id
     let slot : Nat := 2
     let m : Cirid := at0 sf8
     let b : List Byte := List.drop 8 m.body
     let chk : Code × Nat := changeCheck 257 m
     s.journalFull = false ∧ s.Serves 257 slot m ∧ chk.fst = sOk ∧ fieldLE m.body 0 8 = 0 ∧ fieldLE b 0 2 = 2051) ∧
    (let s : State := ms id id id
     let slot : Nat := 2
     let m : Cirid := at0 (leBytes 8 7)
     let b : List Byte := List.drop 8 m.body
     let chk : Code × Nat := changeCheck 262 m
     s.journalFull = false ∧ s.Serves 262 slot m ∧ chk.fst = sOk ∧ fieldLE m.body 0 8 = 0 ∧
       (∀ (k : KeptEntry), k ∈ s.journal.entries → k.entry.seq = fieldLE b 0 8 → k.isWaiting = false)) ∧
    (let s : State := ms id id id
     let slot : Nat := 2
     let m : Cirid := atT (2 ^ 28 + 16) tc
     let seq : Nat := s.journal.seq + 1
     let chk : Code × Nat := changeCheck 260 m
     s.journalFull = false ∧ s.Serves 260 slot m ∧ chk.fst = sOk ∧ fieldLE m.body 0 8 ≠ 0 ∧
       s.schedCode true (fieldLE m.body 0 8) 0 (BitVec.ofNat 32 seq) = sOk) ∧
    (let s : State := ms id id id
     let slot : Nat := 2
     let m : Cirid := atT (2 ^ 28 + 16) [1]
     let seq : Nat := s.journal.seq + 1
     let chk : Code × Nat := changeCheck 263 m
     s.journalFull = false ∧ s.Serves 263 slot m ∧ chk.fst = sOk ∧ fieldLE m.body 0 8 ≠ 0 ∧
       s.schedCode true (fieldLE m.body 0 8) 0 (BitVec.ofNat 32 seq) = sOk) ∧
    (let s : State := ms id id id
     let slot : Nat := 2
     let m : Cirid := at0 planO
     let b : List Byte := List.drop 8 m.body
     let chk : Code × Nat := changeCheck 258 m
     let x : Nat × BayPlan := bayOfRecord b
     s.journalFull = false ∧ s.Serves 258 slot m ∧ chk.fst = sOk ∧ fieldLE m.body 0 8 = 0 ∧
       s.planCode x.fst x.snd ≠ sOk) ∧
    (let s : State := ms id id id
     let slot : Nat := 2
     let m : Cirid := atT (2 ^ 28 + 16) sf8
     let seq : Nat := s.journal.seq + 1
     let chk : Code × Nat := changeCheck 257 m
     s.journalFull = false ∧ s.Serves 257 slot m ∧ chk.fst = sOk ∧ fieldLE m.body 0 8 ≠ 0 ∧
       s.schedCode true (fieldLE m.body 0 8) 0 (BitVec.ofNat 32 seq) = sOk) ∧
    (let s : State := ms id id id
     let slot : Nat := 2
     let m : Cirid := atT (2 ^ 28 + 16) [0, 1]
     let seq : Nat := s.journal.seq + 1
     let chk : Code × Nat := changeCheck 259 m
     s.journalFull = false ∧ s.Serves 259 slot m ∧ chk.fst = sOk ∧ fieldLE m.body 0 8 ≠ 0 ∧
       s.schedCode true (fieldLE m.body 0 8) 0 (BitVec.ofNat 32 seq) = sOk) ∧
    (let s : State := ms id id id
     let slot : Nat := 2
     let m : Cirid := atT (2 ^ 28 + 16) (rw 0)
     let seq : Nat := s.journal.seq + 1
     let chk : Code × Nat := changeCheck 261 m
     s.journalFull = false ∧ s.Serves 261 slot m ∧ chk.fst = sOk ∧ fieldLE m.body 0 8 ≠ 0 ∧
       s.schedCode true (fieldLE m.body 0 8) 0 (BitVec.ofNat 32 seq) = sOk) ∧
    (let s : State := ms id id id
     let slot : Nat := 2
     let m : Cirid := atT (2 ^ 28 + 16) (planB 0)
     let seq : Nat := s.journal.seq + 1
     let chk : Code × Nat := changeCheck 258 m
     s.journalFull = false ∧ s.Serves 258 slot m ∧ chk.fst = sOk ∧ fieldLE m.body 0 8 ≠ 0 ∧
       s.schedCode true (fieldLE m.body 0 8) 0 (BitVec.ofNat 32 seq) = sOk) ∧
    (let s : State := ms id id id
     let slot : Nat := 2
     let m : Cirid := atT (2 ^ 28 + 16) (leBytes 8 7)
     let seq : Nat := s.journal.seq + 1
     let chk : Code × Nat := changeCheck 262 m
     s.journalFull = false ∧ s.Serves 262 slot m ∧ chk.fst = sOk ∧ fieldLE m.body 0 8 ≠ 0 ∧
       s.schedCode true (fieldLE m.body 0 8) 0 (BitVec.ofNat 32 seq) = sOk) ∧
    (let s : State := ms id (fun f => { f with models := mds }) id
     let slot : Nat := 2
     let m : Cirid := at0 ((rw 0).take 36 ++ List.replicate 32 1)
     let b : List Byte := List.drop 8 m.body
     let chk : Code × Nat := changeCheck 261 m
     let x : Nat × ModelSlot := (0, { bays := 1, draft := 1 })
     let dig : Bytes := slice b 4 32
     let draft : Bytes := slice b 36 32
     let other : Option (Nat × ModelSlot) := List.find? (fun y => y.fst == x.snd.draft) s.footing.models
     let y : Nat × ModelSlot := (1, { bays := 2 })
     s.journalFull = false ∧ s.Serves 261 slot m ∧ chk.fst = sOk ∧ fieldLE m.body 0 8 = 0 ∧
       (List.find? (fun x => x.fst == fieldLE b 0 1) s.footing.models = some x) ∧
       (aget { : Group } s.serving.groups (fieldLE b 0 1)).replace = none ∧
       (x.snd.draft = 255 ∨ s.shapeChanges x.snd.header dig = false) ∧
       ((fun d => ∀ (img : Bytes), s.headerImage d = some img → (unwrapKey img).isSome = true) dig) ∧
       ((fun d => ∀ (img : Bytes), s.headerImage d = some img → (unwrapKey img).isSome = true) draft ∨ allZero draft = true) ∧
       other = some y ∧ allZero draft = false) ∧
    (let s : State := ms id id id
     let slot : Nat := 2
     let m : Cirid := at0 []
     let chk : Code × Nat := changeCheck 257 m
     s.journalFull = false ∧ s.Serves 257 slot m ∧ chk.fst ≠ sOk) ∧
    (let s : State := ms id id id
     let slot : Nat := 2
     let m : Cirid := at0 []
     let chk : Code × Nat := changeCheck 258 m
     s.journalFull = false ∧ s.Serves 258 slot m ∧ chk.fst ≠ sOk) ∧
    (let s : State := ms id id id
     let slot : Nat := 2
     let m : Cirid := at0 []
     let chk : Code × Nat := changeCheck 259 m
     s.journalFull = false ∧ s.Serves 259 slot m ∧ chk.fst ≠ sOk) ∧
    (let s : State := ms id id id
     let slot : Nat := 2
     let m : Cirid := at0 []
     let chk : Code × Nat := changeCheck 260 m
     s.journalFull = false ∧ s.Serves 260 slot m ∧ chk.fst ≠ sOk) ∧
    (let s : State := ms id id id
     let slot : Nat := 2
     let m : Cirid := at0 []
     let chk : Code × Nat := changeCheck 261 m
     s.journalFull = false ∧ s.Serves 261 slot m ∧ chk.fst ≠ sOk) ∧
    (let s : State := ms id id id
     let slot : Nat := 2
     let m : Cirid := at0 []
     let chk : Code × Nat := changeCheck 262 m
     s.journalFull = false ∧ s.Serves 262 slot m ∧ chk.fst ≠ sOk) ∧
    (let s : State := ms id id id
     let slot : Nat := 2
     let m : Cirid := at0 []
     let chk : Code × Nat := changeCheck 263 m
     s.journalFull = false ∧ s.Serves 263 slot m ∧ chk.fst ≠ sOk) ∧
    (let s : State := ms id id id
     let slot : Nat := 2
     let m : Cirid := at0 tc
     let chk : Code × Nat := changeCheck 260 m
     s.journalFull = false ∧ s.Serves 260 slot m ∧ chk.fst = sOk ∧ fieldLE m.body 0 8 = 0) ∧
    (let s : State := ms id id id
     let slot : Nat := 2
     let m : Cirid := at0 [1]
     let chk : Code × Nat := changeCheck 263 m
     s.journalFull = false ∧ s.Serves 263 slot m ∧ chk.fst = sOk ∧ fieldLE m.body 0 8 = 0) ∧
    (let s : State := ms id id id
     let slot : Nat := 2
     let m : Cirid := at0 sf7
     let b : List Byte := List.drop 8 m.body
     let chk : Code × Nat := changeCheck 257 m
     s.journalFull = false ∧ s.Serves 257 slot m ∧ chk.fst = sOk ∧ fieldLE m.body 0 8 = 0 ∧ fieldLE b 0 2 = 1793) ∧
    (let s : State := ms id id id
     let slot : Nat := 2
     let m : Cirid := at0 (rw 0)
     let b : List Byte := List.drop 8 m.body
     let chk : Code × Nat := changeCheck 261 m
     s.journalFull = false ∧ s.Serves 261 slot m ∧ chk.fst = sOk ∧ fieldLE m.body 0 8 = 0 ∧
       (List.find? (fun x => x.fst == fieldLE b 0 1) s.footing.models = none)) ∧
    (let s : State := ms jn id id
     let slot : Nat := 2
     let m : Cirid := at0 (leBytes 8 7)
     let b : List Byte := List.drop 8 m.body
     let chk : Code × Nat := changeCheck 262 m
     s.journalFull = false ∧ s.Serves 262 slot m ∧ chk.fst = sOk ∧ fieldLE m.body 0 8 = 0 ∧
       (∃ k, k ∈ s.journal.entries ∧ k.entry.seq = fieldLE b 0 8 ∧ k.isWaiting = true)) ∧
    (let s : State := ms id id id
     let slot : Nat := 2
     let m : Cirid := at0 (planB 0)
     let b : List Byte := List.drop 8 m.body
     let chk : Code × Nat := changeCheck 258 m
     let x : Nat × BayPlan := bayOfRecord b
     s.journalFull = false ∧ s.Serves 258 slot m ∧ chk.fst = sOk ∧ fieldLE m.body 0 8 = 0 ∧
       s.planCode x.fst x.snd = sOk) ∧
    (let s : State := ms id id id
     let slot : Nat := 2
     let m : Cirid := at0 (leBytes 2 0x0702 ++ [0] ++ zeros 16)
     let b : List Byte := List.drop 8 m.body
     let chk : Code × Nat := changeCheck 257 m
     s.journalFull = false ∧ s.Serves 257 slot m ∧ chk.fst = sOk ∧ fieldLE m.body 0 8 = 0 ∧ fieldLE b 0 2 = 1794) ∧
    (let s : State := ms (fun s => { s with serving := { groups := [(0, { replace := some ⟨[], [], [], false, []⟩ })] } }) (fun f => { f with models := [(0, { bays := 1 })] }) id
     let slot : Nat := 2
     let m : Cirid := at0 (rw 0)
     let b : List Byte := List.drop 8 m.body
     let chk : Code × Nat := changeCheck 261 m
     s.journalFull = false ∧ s.Serves 261 slot m ∧ chk.fst = sOk ∧ fieldLE m.body 0 8 = 0 ∧
       (aget { : Group } s.serving.groups (fieldLE b 0 1)).replace ≠ none) := by
  refine ⟨?_, ?_, ?_, ?_, ?_, ?_, ?_, ?_, ?_, ?_, ?_, ?_, ?_, ?_, ?_, ?_, ?_, ?_, ?_, ?_, ?_, ?_, ?_, ?_, ?_, ?_, ?_, ?_⟩ <;> first
    | decide +kernel
    | (repeat' apply And.intro) <;> first
      | decide +kernel
      | (simp only [State.Serves]; (repeat' apply And.intro) <;> decide +kernel)

theorem witness_FootingWritesAndActions :
    (let x : (Cirid → Instr) × Nat := (Instr.verify, 2)
     let s : State := bst
     let slot : Nat := 2
     let m : Cirid := mm [2, 0, 0, 0, 0, 0, 0, 0]
     let chk : Code × Nat := s.footingOpCheck x.snd m
     s.Serves (513 + 65536 * x.snd) slot m ∧ plainHeader m ∧ s.footing.present = true ∧ s.boot.ftSlot = false ∧
       8 ≤ List.length m.body ∧ fieldLE m.body 0 1 = x.snd ∧ fieldLE m.body 1 1 = 0 ∧ fieldLE m.body 2 2 = 0 ∧
       (x.snd ≠ 1 → List.length m.body = 8) ∧ (x.snd = 1 → 9 ≤ List.length m.body) ∧ List.length m.body ≤ 1048568 ∧
       chk.fst ≠ sOk ∧ s.powered = true ∧ s.Serves 514 slot m ∧ List.length m.body = 8 ∧ fieldLE m.body 0 8 ≠ 0 ∧
       s.schedCode true (fieldLE m.body 0 8) 3 0 ≠ sOk ∧ s.Serves 515 slot m ∧ s.awake = true ∧ s.boot.mortar = true) ∧
    (let s : State := { bst with system := { substituting := true } }
     let slot : Nat := 2
     let m : Cirid := mm (leBytes 2 1)
     s.Serves 515 slot m ∧ plainHeader m ∧ List.length m.body = 2 ∧ s.isDevice (fieldLE m.body 0 2) = true ∧
       s.system.spare = false ∧ s.system.substituting = true ∧ fieldLE m.body 0 2 ≠ s.system.device ∧
       State.sameCairn (s.coordsOf (fieldLE m.body 0 2)) s.selfCoords = true) ∧
    (let s : State := bst
     let base : Nat := 0
     let head : Bytes := State.journalStart bst.footing.systemDigest
     let es : List JournalEntry := []
     let hs : List Bytes := []
     s.awake = true ∧ s.boot.mortar = true ∧ State.chainHeads base head es = some hs ∧ base = 0 ∧
       head = State.journalStart s.footing.systemDigest ∧ (∀ (e : JournalEntry), e ∈ es → e.tick ≤ s.tb.tick)) ∧
    (let s : State := fo 1 wrm bst
     let sub : Nat := 1
     let m : Cirid := wrm
     let i : Nat := 2
     s.powered = true ∧ s.mgmt.flashOp = some (sub, m) ∧ s.mgmt.waiting = [] ∧
       (∃ c, c ∈ s.mgmt.conns ∧ c.id = m.conn) ∧ sub = 1 ∧ i < List.length m.body - 8) ∧
    (let s : State := { bst with system := { device := 16320, spare := true } }
     let slot : Nat := 2
     let m : Cirid := mm (leBytes 2 1)
     s.Serves 515 slot m ∧ plainHeader m ∧ List.length m.body = 2 ∧ s.isDevice (fieldLE m.body 0 2) = true ∧
       s.system.spare = true ∧ 16320 + s.cairnNum (s.coordsOf (fieldLE m.body 0 2)) = s.system.device) ∧
    (let s : State := bst
     let base : Nat := 3
     let head : Bytes := zeros 32
     let es : List JournalEntry := []
     let n : Nat := 0
     let other : Bytes := []
     let hs : List Bytes := []
     s.awake = true ∧ s.boot.mortar = true ∧ State.chainHeads base head es = some hs ∧ base ≠ 0 ∧
       (base = 0 ∧ head ≠ State.journalStart s.footing.systemDigest ∨ base ≠ 0 ∧ State.baseOk base hs head n other = false)) ∧
    (let s : State := fo 0 er bst
     let sub : Nat := 0
     let m : Cirid := er
     s.powered = true ∧ s.mgmt.flashOp = some (sub, m) ∧ s.mgmt.waiting = [] ∧
       (∃ c, c ∈ s.mgmt.conns ∧ c.id = m.conn) ∧ sub = 0) ∧
    (let s : State := fo 2 vf bst
     let sub : Nat := 2
     let m : Cirid := vf
     s.powered = true ∧ s.mgmt.flashOp = some (sub, m) ∧ s.mgmt.waiting = [] ∧
       (∃ c, c ∈ s.mgmt.conns ∧ c.id = m.conn) ∧ sub = 2) ∧
    (let s : State := bst
     let slot : Nat := 2
     let m : Cirid := mm (zeros 8)
     s.Serves 514 slot m ∧ plainHeader m ∧ List.length m.body = 8 ∧ fieldLE m.body 0 8 = 0) ∧
    (let s : State := bst
     let base : Nat := 0
     let head : Bytes := zeros 32
     let es : List JournalEntry := [e4]
     s.awake = true ∧ s.boot.mortar = true ∧ State.chainHeads base head es = none) ∧
    (let s : State := bst
     let slot : Nat := 2
     let m : Cirid := mm (leBytes 2 1)
     s.Serves 515 slot m ∧ plainHeader m ∧ List.length m.body = 2 ∧ s.isDevice (fieldLE m.body 0 2) = true ∧
       s.system.spare = false ∧ s.system.substituting = false) ∧
    (let s : State := bst
     let slot : Nat := 2
     let m : Cirid := mm (leBytes 2 99)
     s.Serves 515 slot m ∧ plainHeader m ∧ List.length m.body = 2 ∧ s.isDevice (fieldLE m.body 0 2) = false) ∧
    (let s : State := bst
     let slot : Nat := 2
     let m : Cirid := mm (leBytes 8 (2 ^ 28 + 16))
     s.Serves 514 slot m ∧ plainHeader m ∧ List.length m.body = 8 ∧ fieldLE m.body 0 8 ≠ 0 ∧
       s.schedCode true (fieldLE m.body 0 8) 3 0 = sOk) ∧
    (let x : (Cirid → Instr) × Nat := (Instr.erase, 0)
     let s : State := bst
     let slot : Nat := 2
     let m : Cirid := er
     let chk : Code × Nat := s.footingOpCheck x.snd m
     s.Serves (513 + 65536 * x.snd) slot m ∧ chk.fst = sOk) ∧
    (let s : State := bst
     let base : Nat := 3
     let head : Bytes := List.replicate 32 5
     let es : List JournalEntry := []
     let n : Nat := 3
     let other : Bytes := List.replicate 32 5
     let hs : List Bytes := []
     s.awake = true ∧ s.boot.mortar = true ∧ State.chainHeads base head es = some hs ∧ base ≠ 0 ∧
       State.baseOk base hs head n other = true) ∧
    (let s : State := { bst with system := { device := 16320, spare := true } }
     let slot : Nat := 2
     let m : Cirid := mm (leBytes 2 3)
     s.Serves 515 slot m ∧ plainHeader m ∧ List.length m.body = 2 ∧ s.isDevice (fieldLE m.body 0 2) = true ∧
       s.system.spare = true ∧ 16320 + s.cairnNum (s.coordsOf (fieldLE m.body 0 2)) ≠ s.system.device) ∧
    (let s : State := fo 1 wrm bst
     let sub : Nat := 1
     let m : Cirid := wrm
     let half : Bool := fieldLE m.body 1 1 == 1
     let lo : Nat := footingBase s.boot.flashMib half
     let a : Nat := 100663305
     s.powered = true ∧ s.mgmt.flashOp = some (sub, m) ∧ s.mgmt.waiting = [] ∧
       (∃ c, c ∈ s.mgmt.conns ∧ c.id = m.conn) ∧ sub = 1 ∧
       (a < lo + fieldLE m.body 4 4 ∨ lo + fieldLE m.body 4 4 + (List.length m.body - 8) ≤ a)) := by
  refine ⟨?_, ?_, ?_, ?_, ?_, ?_, ?_, ?_, ?_, ?_, ?_, ?_, ?_, ?_, ?_, ?_, ?_⟩ <;> first
    | decide +kernel
    | (repeat' apply And.intro) <;> first
      | decide +kernel
      | (simp only [State.Serves, plainHeader]; (repeat' apply And.intro) <;> decide +kernel)

end ChangesW

/-! ### Witnesses over queue, reset and invariant -/

theorem witness_StepKeepsInvariant : State.Inv State.reset ∧ step State.reset = .next State.reset := by
  refine ⟨?_, rfl⟩
  simp only [State.Inv, State.memoryCanonical, State.scheduleBounded, State.connectionsBounded, State.gatesBounded]
  (repeat' apply And.intro) <;> decide +kernel

theorem witness_ResetAndFatalStateStopTheBlock :
    State.reset.inReset = true ∧ ({ up with rel := { fatal := true } } : State).rel.fatal = true := by decide +kernel

/-! ### Witnesses under an open value of Config

Some clauses ask for what an open value of Config decides: the signature of an image or a certificate under a key the
spec does not state, the image key unwrapped under it, the entropy a handshake draws, the children the box's tree gives a device. The theorems below take that one
fact as their premise and show that every other hypothesis of the clause holds at the state. -/

theorem witness_own_identity (_ : ownIdentityOk (aread 0xFF (BootW.stg .rom id).flash 0 280) = true) :
    (BootW.stg .rom id).awake = true ∧ (BootW.stg .rom id).boot.stage = .rom := by decide +kernel

theorem witness_firmware (_ : (firmwareCheck (BootW.stg .firmware id).flash false).1 = sOk) :
    (BootW.stg .firmware id).awake = true ∧ (BootW.stg .firmware id).boot.stage = .firmware
      ∧ (BootW.stg .firmware id).boot.fwVerified = false ∧ State.drivesPins (BootW.stg .firmware id).power.tapIr = false := by
  decide +kernel

def ftState : State := BootW.stg .footing fun b => { b with flashMib := 128, svnA := some 0 }

theorem witness_footing (_ : (footingCheck ftState.flash ftState.boot.flashMib false ftState.marlFound).1 = sOk)
    (_ : (footingCheck ftState.flash ftState.boot.flashMib true ftState.marlFound).1 ≠ sOk)
    (_ : (footingCheck ftState.flash ftState.boot.flashMib false ftState.marlFound).2.minSvn ≤ ftState.boot.svnA.getD 0) :
    ftState.awake = true ∧ ftState.boot.stage = .footing ∧ ftState.boot.svnA ≠ none ∧ ftState.boot.svnB = none := by
  decide +kernel

def woState : State := CornerW.ws id [(9, some (CornerW.bobj 200))]

theorem witness_image_command (x : Nat) (_ : woState.wopenCode x 0 = sOk) :
    woState.awake = true ∧ (0 : Nat) < 2 ∧ ((0 : Nat) == 1) = woState.boot.primaryS ∧ woState.cs.wopen = none := by
  decide +kernel

def vaState : State := EnginesW.vs (fun v => { v with running := some 9 }) [(9, some (EnginesW.cobj 5))]

theorem witness_validated (_ : (vaState.checkObj 9 []).2.code = sOk) :
    vaState.awake = true ∧ vaState.validator.running = some 9 ∧ vaState.validator.disturbed = false
      ∧ vaState.obj 9 = some (EnginesW.cobj 5) := by decide +kernel

def hsState : State := LinksW.hsk { state := .handshake, ownHello := [1] } true 5

theorem witness_hello_taken (_ : hsState.helloFault 15 (zeros 700) = none) :
    hsState.awake = true ∧ (hsState.port 15).state = .handshake ∧ (hsState.port 15).ownHello ≠ []
      ∧ (hsState.portRole 15).outer = true := by decide +kernel

def huState : State := LinksW.hsk { state := .up, ownHello := [1] } true 5

theorem witness_hello_on_a_running_port (_ : huState.helloFault 15 (zeros 700) = none) :
    huState.awake = true ∧ (huState.port 15).state = .up ∧ (huState.port 15).ownHello ≠ [] ∧ (huState.port 15).peerHello = []
      ∧ (huState.portRole 15).outer = true := by decide +kernel

/-! ### Witnesses over keys and long bodies -/

def rkState : State :=
  LinksW.hsk { state := .up, peerHello := [1], keyTick := 5, tx := some ⟨[], [], 2 ^ 36 - 1⟩, rx := none } true (4 + 2 ^ 26)

/-- One tick before the re-key, and one flit before the key's last. -/
theorem witness_rekey_not_due : rkState.awake = true ∧ rkState.tb.up < (rkState.port 15).keyTick + 2 ^ 26
    ∧ ∀ k ∈ (rkState.port 15).tx.toList ++ (rkState.port 15).rx.toList, k.count < 2 ^ 36 := by decide +kernel

/-- A record of a session under its own key, the one after the highest seen. -/
theorem witness_record_taken :
    let s := SessionsW.ss id []
    let f := SessionsW.rfr 9 (SessionsW.rcd 3 1 [])
    let v := SessionsW.ses fun x => x
    let r := SessionsW.rcd 3 1 []
    s.awake = true ∧ s.footing.present = true ∧ frameType f = 0x10 ∧ frameOk f = true ∧ s.sess 0 (fieldLE f 4 8) = some v
      ∧ gcmOpen v.rxKey (recNonce v.rxIv (fieldLE f 12 8)) (f.take 20) (slice f 20 (f.length - 36)) (f.drop (f.length - 16)) = some r
      ∧ v.isOpen = true ∧ State.recordFault r = none ∧ 2 ≤ fieldLE r 0 1 ∧ fieldLE r 0 1 < 8
      ∧ max v.rxHigh (fieldLE f 12 8 + 1) < 2 ^ 32 := by
  (repeat' apply And.intro) <;> decide +kernel

theorem mm_body_length (n : Nat) : (MgmtW.mm (List.replicate n 0)).body.length = n := List.length_replicate

/-- A management command one byte too long. -/
theorem witness_body_too_long : ∃ n : Nat,
    (MgmtW.ms id id id).powered = true ∧ (MgmtW.ms id id id).boot.mgmtOpen = true
      ∧ (∃ c ∈ (MgmtW.ms id id id).mgmt.conns, c.id = (MgmtW.mm (List.replicate n 0)).conn)
      ∧ 1048576 < (MgmtW.mm (List.replicate n 0)).body.length := by
  refine ⟨1048577, by decide +kernel, by decide +kernel, by decide +kernel, ?_⟩
  rw [mm_body_length]
  decide

/-! ### Well-formed commands: an ill-formed term for each check, and one in range -/

theorem test_wf_agent : WellFormed.ok (.registerWrite 33 0 0 0) = false ∧ WellFormed.ok (.registerWrite 32 0 0 0) = true := by decide
theorem test_wf_brick : WellFormed.ok (.arrayPass 4096) = false ∧ WellFormed.ok (.arrayPass 4095) = true := by decide
theorem test_wf_bay : WellFormed.ok (.swapSequence 64) = false ∧ WellFormed.ok (.swapSequence 63) = true := by decide
theorem test_wf_port : WellFormed.ok (.rekey 16) = false ∧ WellFormed.ok (.rekey 15) = true := by decide
theorem test_wf_service : WellFormed.ok (.submit 2 0) = false ∧ WellFormed.ok (.submit 1 0) = true := by decide
theorem test_wf_relay : WellFormed.ok (.laggardTimeout 32) = false ∧ WellFormed.ok (.laggardTimeout 31) = true := by decide
theorem test_wf_device : WellFormed.ok (.remapReady 16384) = false ∧ WellFormed.ok (.remapReady 16383) = true := by decide
theorem test_wf_ddr : WellFormed.ok (.ddrRetrainDone 20 true) = false ∧ WellFormed.ok (.ddrRetrainDone 19 true) = true := by decide
theorem test_wf_cxl : WellFormed.ok (.cxlLinkDown 31) = false ∧ WellFormed.ok (.cxlLinkDown 36) = false
    ∧ WellFormed.ok (.cxlLinkDown 35) = true := by decide
theorem test_wf_keystone : WellFormed.ok (.entropyHealthFail 2) = false ∧ WellFormed.ok (.entropyHealthFail 1) = true := by decide
theorem test_wf_word : WellFormed.ok (.addOp 0 8) = false ∧ WellFormed.ok (.addOp 0 7) = true := by decide
theorem test_wf_prog : WellFormed.ok (.endWord 0 4) = false ∧ WellFormed.ok (.endWord 0 3) = true := by decide
theorem test_wf_link : WellFormed.ok (.lineFlit 32768 []) = false ∧ WellFormed.ok (.lineFlit 32767 []) = true := by decide
theorem test_wf_flit : WellFormed.ok (.ctrlFlit 0 [1, 2]) = false := by decide
theorem test_wf_d2d : WellFormed.ok (.d2dFlitRetry 6 0 true) = false ∧ WellFormed.ok (.d2dFlitRetry 5 0 true) = true := by decide
theorem test_wf_site : WellFormed.ok (.siteFailure 0 33 0) = false ∧ WellFormed.ok (.siteFailure 3 32 31) = true := by decide
theorem test_wf_vc : WellFormed.ok (.creditReturn 0 4) = false ∧ WellFormed.ok (.creditReturn 0 3) = true := by decide
theorem test_wf_modules : WellFormed.ok (.ddrTrainingDone []) = false := by decide
theorem test_wf_core : WellFormed.ok (.watchdogExpiry 32) = false ∧ WellFormed.ok (.watchdogExpiry 31) = true := by decide

/-! ### Worked examples of the spec and of the published standards -/

/-- 01_package_and_dies.md, "placing brick 2,777". -/
theorem test_brick_2777 : brickDie 2777 = 2 ∧ brickRow 2777 = 22 ∧ brickCol 2777 = 25 ∧ brickId 2 22 25 = 2777 := by decide

def twoFaults : State := { up with dies := { faultRow := [(39, 9)], faulty := [((1 * 33 + 9) * 32 + 7, true), ((1 * 33 + 20) * 32 + 7, true)] } }

/-- 03_brick_fabric.md, "a die with two faults in one column". -/
theorem test_two_faults_in_one_column : twoFaults.rowOfSite 1 20 7 = some 19 ∧ twoFaults.vacant 1639 = true
    ∧ twoFaults.vacant 1640 = false := by decide +kernel

def secondEdge : State := fp { timeSource := 0 }

/-- 02_course_clock.md, "from a reference second to the next census". -/
theorem test_reference_second_loads_the_tick :
    (chkNext (exec (.ppsEdge 0) { secondEdge with tb := { tod := some 1750000000 } })).tb.tick = 1708984375000000 := by
  decide +kernel

def diagonal : State :=
  { up with bays := [(9, { plan := { role := 1, rects := [⟨0, 8, 0, 8, 32⟩, ⟨3, 0, 0, 8, 32⟩] } })] }

/-- 04_brick_configuration.md, "resolving a route across a diagonal": rank 37 is brick 293, rank 300 brick 3,116. -/
theorem test_route_across_a_diagonal :
    diagonal.resolveRoute 293 3116 { dest := 300, network := 1, perpendFirst := false, destStream := 2, valid := true }
      = some 0x005927C1 ∧ (diagonal.bricksOf 9).getD 37 0 = 293 ∧ (diagonal.bricksOf 9).getD 300 0 = 3116 := by decide +kernel

/-- 05_number_formats.md, "storing binary32 results as G8". -/
theorem test_store_as_g8 : [500, 490, 1 / 10, 3 / 1000, -7 / 4].map (fun x => convertTo 4 .nearestEven (.fin x))
    = [⟨0x7F, flSaturate + flInexact⟩, ⟨0x7F, flInexact⟩, ⟨0x1D, flInexact⟩, ⟨0x02, flUnderflow + flInexact⟩, ⟨0xBE, 0⟩]
    ∧ convertTo 4 .nearestEven .negZero = ⟨0, 0⟩ := by decide +kernel

/-- 05_number_formats.md, "quantising a group to G4", on the element scale 2^-5. -/
theorem test_quantise_to_g4 : groupShift 120 (-8) [.fin (-31 / 10), .fin 1, .fin (1 / 5)] = 3
    ∧ [-31 / 10, 1, 1 / 5, -47 / 100, 0].map (fun y => (roundG4 .nearestEven (y * 32)).code) = [0x8, 0x4, 0x1, 0xA, 0x0] := by
  decide +kernel

/-- 06_arithmetic.md, "the order of chunks fixes the bits", reduction 1. -/
theorem test_order_of_chunks : toB32 .nearestEven (.fin (16777216 + 1)) = ⟨0x4B800000, flInexact⟩ := by decide +kernel

/-- 07_random_numbers.md, "one Gumbel draw": the 24 bits a uniform takes. -/
theorem test_upper_bits_of_a_draw : upper24 0xB4000000#32 = 0xB40000 := by decide

/-- 09_streams.md, "a slow consumer behind a four-slot ring". -/
theorem test_handle_of_slot_two : mkHandle 9 0 0x420 0 2 0 = 0x24042002#32 := by decide

/-- 10_memory_tiers.md, "compressing an I8 tile": the bits of block 0 and of a zero block, and block 0's first bytes. -/
theorem test_compress_an_i8_tile : (packBlock (0, 0) (0 :: 0xF9 :: 6 :: List.replicate 29 3)).1 = 140
    ∧ (packBlock (0, 0) (0 :: 0xF9 :: 6 :: List.replicate 29 3)).2 % 2 ^ 16 = 0x7F94
    ∧ (packBlock (0, 0) (List.replicate 32 0)).1 = 12 ∧ sectorsFor 432 = 7 ∧ sectorsFor 1024 = 17 := by decide +kernel

/-- 20_electrical.md, "capping to 3,600 W": the gate after each of windows 1 to 4, and Ashlar 1's at 100.25 degrees. -/
theorem test_capping_to_3600_watts :
    [(3810, 4), (3690, 8), (3585, 12), (3560, 12)].map (fun x => (chkNext (exec (.powerWindow
      { milliwatts := x.1 * 1000, failures := 0, unread := [], overCurrent := false, ashlar := [0, 0, 0, 0], clay := [0, 0, 0, 0], ksN := 0, ksS := 0 })
      { up with power := { gp := x.2, limit := 3600 } })).power.gp) = [8, 12, 12, 12] := by decide +kernel

/-- The check values the standards give for the nine digits: CRC-32 of IEEE 802.3, CRC-32C, CRC-8 of polynomial 0x07. -/
theorem test_crc_check_values :
    crc32 [0x31, 0x32, 0x33, 0x34, 0x35, 0x36, 0x37, 0x38, 0x39] = 0xCBF43926
    ∧ crc32c [0x31, 0x32, 0x33, 0x34, 0x35, 0x36, 0x37, 0x38, 0x39] = 0xE3069283
    ∧ crc8 [0x31, 0x32, 0x33, 0x34, 0x35, 0x36, 0x37, 0x38, 0x39] = 0xF4 := by decide +kernel

/-- The first bytes of AES-256 on FIPS 197's example, appendix C.3. -/
theorem test_aes_256 : (aesBlock (aesExpand ((List.range 32).map (BitVec.ofNat 8))) ((List.range 16).map fun i => BitVec.ofNat 8 (17 * i))).take 4
    = [0x8E, 0xA2, 0xB7, 0xCA] := by decide +kernel

/-- The first bytes of the 256-bit digest of the empty string: SHAKE256 of FIPS 202. -/
theorem test_shake256_of_nothing : (digest []).take 4 = [0x46, 0xB9, 0xDD, 0x2B] := by decide +kernel

end Sys2Proof.Tests
end

section
/-!
PROOF. No command touches the queue of waiting commands (R6): one frame lemma for each operation of the model that makes a
state, in the order of the model's files, and from them the statement about every command.
-/
namespace Sys2Proof.Machine.State

/-! ### Branches and folds -/

@[simp] theorem pending_ite (c : Prop) [Decidable c] (s t : State) :
    (if c then s else t).pending = if c then s.pending else t.pending := apply_ite State.pending c s t

/-- A fold keeps what each of its steps keeps. -/
theorem foldl_keeps {α β γ : Type} (g : β → γ) (f : β → α → β) (h : ∀ b a, g (f b a) = g b) (l : List α) (b : β) :
    g (l.foldl f b) = g b := by
  induction l generalizing b with
  | nil => rfl
  | cons a l ih => rw [List.foldl_cons, ih, h]

@[simp] theorem pending_foldl {α : Type} (f : State → α → State) (h : ∀ t x, (f t x).pending = t.pending) (l : List α)
    (s : State) : (l.foldl f s).pending = s.pending := foldl_keeps _ f h l s

@[simp] theorem pending_foldl_setBrick {α : Type} (i : α → Nat) (k : State → α → Brick) (l : List α) (s : State) :
    (l.foldl (fun t x => t.setBrick (i x) (k t x)) s).pending = s.pending := pending_foldl _ (by intros; rfl) l s

/-! ### Machine/Ops.lean -/

@[simp] theorem error_pending (s : State) (cls source : Nat) (code : Code) (arg : Word) :
    (s.error cls source code arg).pending = s.pending := by simp [error]
@[simp] theorem corrected_pending (s : State) (counter n : Nat) :
    (s.corrected counter n).pending = s.pending := by simp [corrected]
@[simp] theorem partner_pending (s : State) (counter source : Nat) (code : Code) (arg : Word) :
    (s.partner counter source code arg).pending = s.pending := by simp [partner]
@[simp] theorem notice_pending (s : State) : s.notice.pending = s.pending := rfl
@[simp] theorem alarm_pending (s : State) (bit : Nat) (code : Code) (arg : Word) :
    (s.alarm bit code arg).pending = s.pending := by simp [alarm]
@[simp] theorem degrade_pending (s : State) (flag source : Nat) (code : Code) (arg : Nat) :
    (s.degrade flag source code arg).pending = s.pending := by simp [degrade]
@[simp] theorem clearKeys_pending (s : State) : s.clearKeys.pending = s.pending := rfl
@[simp] theorem fatalError_pending (s : State) (code : Code) (source : Nat) (arg : Word) :
    (s.fatalError code source arg).pending = s.pending := by simp [fatalError]
@[simp] theorem internalError_pending (s : State) (source : Nat) (arg : Word) :
    (s.internalError source arg).pending = s.pending := by simp [internalError]

/-! ### Machine/Bricks.lean -/

@[simp] theorem countLoading_pending (s : State) (b cycle : Nat) :
    (s.countLoading b cycle).pending = s.pending := by simp [countLoading]
@[simp] theorem recordErr_pending (s : State) (source place : Nat) (patrol : Bool) (addr : Nat) (obj : Option Nat) :
    (s.recordErr source place patrol addr obj).pending = s.pending := by rw [recordErr]
@[simp] theorem noteGranule_pending (s : State) (n granule : Nat) :
    (s.noteGranule n granule).pending = s.pending := by simp [noteGranule]
@[simp] theorem countFenced_pending (s : State) : s.countFenced.pending = s.pending := by simp [countFenced]
@[simp] theorem countLoads_pending (s : State) : s.countLoads.pending = s.pending := by simp [countLoads]
@[simp] theorem latch_pending (s0 : State) (turn census : Bool) :
    (s0.latch turn census).pending = s0.pending := by simp [latch]

/-! ### Machine/Objects.lean -/

@[simp] theorem writeSectors_pending (s : State) (u first : Nat) (data : Bytes) :
    (s.writeSectors u first data).pending = s.pending := by rw [writeSectors]
@[simp] theorem putTile_pending (s : State) (tile : Bytes) (targets : List (Nat × Nat × Nat × Nat)) :
    (s.putTile tile targets).pending = s.pending := pending_foldl_setBrick ..
@[simp] theorem touchObjects_pending (s : State) (n unit count : Nat) :
    (s.touchObjects n unit count).pending = s.pending := rfl
@[simp] theorem chargeClay_pending (s : State) (b n : Nat) :
    (s.chargeClay b n).pending = s.pending := by simp [chargeClay]
@[simp] theorem releaseClay_pending (s : State) (b n : Nat) :
    (s.releaseClay b n).pending = s.pending := by simp [releaseClay]
@[simp] theorem chargeSectors_pending (s : State) (t : Tier) (b n : Nat) :
    (s.chargeSectors t b n).pending = s.pending := by
  unfold chargeSectors
  split <;> simp
@[simp] theorem releaseSectors_pending (s : State) (t : Tier) (b n : Nat) :
    (s.releaseSectors t b n).pending = s.pending := by
  unfold releaseSectors
  split <;> simp
@[simp] theorem pinObj_pending (s : State) (id : Nat) : (s.pinObj id).pending = s.pending := by
  unfold pinObj
  split <;> simp
@[simp] theorem unpinObj_pending (s : State) (id : Nat) : (s.unpinObj id).pending = s.pending := by
  unfold unpinObj
  split <;> simp

/-! ### Machine/Tiers.lean -/

@[simp] theorem setTierCmd_pending (s : State) (c : TierCmd) : (s.setTierCmd c).pending = s.pending := rfl
@[simp] theorem countDone_pending (s : State) (c : TierCmd) (o : Option Obj) (code : Code) :
    (s.countDone c o code).pending = s.pending := by simp [countDone]
@[simp] theorem endCmd_pending (s : State) (c : TierCmd) (was : Option Obj) (code : Code) :
    (s.endCmd c was code).pending = s.pending := by
  unfold endCmd
  dsimp only
  (repeat' split) <;> simp
@[simp] theorem abortCmd_pending (s : State) (c : TierCmd) (code : Code) :
    (s.abortCmd c code).pending = s.pending := by simp [abortCmd]
@[simp] theorem loseOnUnit_pending (s : State) (u : Nat) : (s.loseOnUnit u).pending = s.pending := rfl
@[simp] theorem mapOut_pending (s : State) (u cause : Nat) :
    (s.mapOut u cause).pending = s.pending := by simp [mapOut]
@[simp] theorem badSector_pending (s : State) (u : Nat) (parity : Bool) :
    (s.badSector u parity).pending = s.pending := by simp [badSector]
@[simp] theorem badTile_pending (s : State) (id u sector : Nat) :
    (s.badTile id u sector).pending = s.pending := by simp [badTile]
@[simp] theorem badWord_pending (s : State) (n unit : Nat) (patrol : Bool) (obj : Option Nat) :
    (s.badWord n unit patrol obj).pending = s.pending := by simp [badWord]
@[simp] theorem fetchClay_pending (s : State) (id : Nat) (o : Obj) (k : Nat) (r : TileRead) :
    (s.fetchClay id o k r).1.pending = s.pending := by simp [fetchClay]
@[simp] theorem fetchSectors_pending (s : State) (id : Nat) (o : Obj) (k : Nat) (r : TileRead) :
    (s.fetchSectors id o k r).1.pending = s.pending := by
  unfold fetchSectors
  dsimp only
  (repeat' split) <;> simp
@[simp] theorem fetchTile_pending (s : State) (id : Nat) (o : Obj) (k : Nat) (r : TileRead) :
    (s.fetchTile id o k r).1.pending = s.pending := by
  unfold fetchTile
  split <;> simp
@[simp] theorem fetchTiles_pending (s : State) (id : Nat) (o : Obj) (r : ObjRead) (k n : Nat) :
    (s.fetchTiles id o r k n).1.pending = s.pending := by
  induction n generalizing s k with
  | zero => rfl
  | succ n ih =>
    unfold fetchTiles
    dsimp only
    split
    · simp
    · simp [ih]
@[simp] theorem fillInfo_pending (s : State) (id : Nat) (o : Obj) :
    (s.fillInfo id o).pending = s.pending := by rw [fillInfo]
@[simp] theorem queueTier_pending (s : State) (op id : Nat) (a1 a2 a3 a4 : Word) :
    (s.queueTier op id a1 a2 a3 a4).pending = s.pending := by simp [queueTier]
@[simp] theorem tierCtrl_pending (s : State) (op reserved : Nat) : (s.tierCtrl op reserved).pending = s.pending := by
  unfold tierCtrl
  dsimp only
  (repeat' split) <;> simp
@[simp] theorem deleteObj_pending (s : State) (id : Nat) (o : Obj) :
    (s.deleteObj id o).pending = s.pending := by simp [deleteObj]
@[simp] theorem startClay_pending (s : State) (c : TierCmd) (o : Obj) :
    (s.startClay c o).pending = s.pending := by simp [startClay]
@[simp] theorem startSectors_pending (s : State) (c : TierCmd) (o : Obj) :
    (s.startSectors c o).pending = s.pending := by
  unfold startSectors
  dsimp only
  (repeat' split) <;> simp
@[simp] theorem startCmd_pending (s : State) (c : TierCmd) : (s.startCmd c).pending = s.pending := by
  unfold startCmd
  split <;> simp
@[simp] theorem finishMove_pending (s : State) (c : TierCmd) (o : Obj) :
    (s.finishMove c o).pending = s.pending := by simp [finishMove]
@[simp] theorem writeMapEntry_pending (s : State) (map : List TileLoc) (loc : TileLoc) :
    (s.writeMapEntry map loc).pending = s.pending := by simp [writeMapEntry]
@[simp] theorem layLoam_pending (id : Nat) (data : Bytes) (acc : State × Obj × Code) :
    (layLoam id data acc).1.pending = acc.1.pending := by
  unfold layLoam
  dsimp only
  (repeat' split) <;> simp
@[simp] theorem makeLoam_pending (s : State) (id : Nat) (o : Obj) (sectors : Nat → Bytes) :
    (s.makeLoam id o sectors).1.pending = s.pending := by
  unfold makeLoam
  dsimp only
  have hfold (l : List Nat) (a : State × Obj × Code) :
      (l.foldl (fun acc k => layLoam id (sectors k) acc) a).1.pending = a.1.pending :=
    foldl_keeps (fun a => a.1.pending) _ (fun a k => layLoam_pending id (sectors k) a) l a
  (repeat' split) <;> simp [hfold]
@[simp] theorem storeTile_pending (s : State) (c : TierCmd) (o : Obj) (data : Bytes) :
    (s.storeTile c o data).pending = s.pending := by
  unfold storeTile
  dsimp only
  (repeat' split) <;> simp
@[simp] theorem layTile_pending (s : State) (c : TierCmd) (o : Obj) (p : Placement) (tile : Bytes) :
    (s.layTile c o p tile).pending = s.pending := by simp [layTile]
@[simp] theorem putMoved_pending (s : State) (c : TierCmd) (o : Obj) (tile : Bytes) :
    (s.putMoved c o tile).pending = s.pending := by
  unfold putMoved
  split <;> simp
@[simp] theorem loseMove_pending (s : State) (c : TierCmd) (o : Obj) :
    (s.loseMove c o).pending = s.pending := by simp [loseMove]
@[simp] theorem withMove_pending (s : State) (seq : Nat) (f : State → TierCmd → Obj → State) (hf : ∀ t x y, (f t x y).pending = t.pending) :
    (s.withMove seq f).pending = s.pending := by
  unfold withMove
  split
  · rfl
  · split <;> simp [hf]
@[simp] theorem moveTile_pending (s : State) (seq : Nat) (first second : TileRead) :
    (s.moveTile seq first second).pending = s.pending := by
  refine withMove_pending s seq _ fun t c o => ?_
  split
  · simp
  · split
    · rfl
    · dsimp only
      split
      · simp
      · split <;> simp
@[simp] theorem writeToObj_pending (s : State) (id : Nat) : (s.writeToObj id).pending = s.pending := by
  unfold writeToObj
  dsimp only
  (repeat' split) <;> simp
@[simp] theorem rewriteTile_pending (s0 : State) (id k : Nat) (tile : Bytes) :
    (s0.rewriteTile id k tile).1.pending = s0.pending := by
  unfold rewriteTile
  dsimp only
  (repeat' split) <;> simp

/-! ### Machine/Bonds.lean -/

@[simp] theorem checkObj_pending (s : State) (id : Nat) (read : ObjRead) :
    (s.checkObj id read).1.pending = s.pending := by
  unfold checkObj
  dsimp only
  (repeat' split) <;> simp
@[simp] theorem recordCheck_pending (s : State) (id : Nat) (r : CheckResult) :
    (s.recordCheck id r).pending = s.pending := by
  unfold recordCheck
  dsimp only
  (repeat' split) <;> simp
@[simp] theorem validateCtrl_pending (s : State) (cmd reserved : Nat) :
    (s.validateCtrl cmd reserved).pending = s.pending := by
  unfold validateCtrl
  dsimp only
  (repeat' split) <;> simp
@[simp] theorem validateDone_pending (s : State) (read : ObjRead) : (s.validateDone read).pending = s.pending := by
  unfold validateDone
  split <;> simp

/-! ### Machine/Random.lean -/

@[simp] theorem drawsFor_pending (s : State) (n : Nat) (ds : List DrawReq) :
    (s.drawsFor n ds).2.pending = s.pending := by
  unfold drawsFor
  split <;> simp

/-! ### Machine/Endpoints.lean -/

@[simp] theorem unbindStreams_pending (s : State) (b : Nat) :
    (s.unbindStreams b).pending = s.pending := pending_foldl_setBrick ..
@[simp] theorem bindStreams_pending (s : State) (b : Nat) :
    (s.bindStreams b).pending = s.pending := pending_foldl_setBrick ..

/-! ### Machine/Grit.lean -/

@[simp] theorem setGrit_pending (s : State) (ms : List GritMsg) : (s.setGrit ms).pending = s.pending := rfl
@[simp] theorem sendGrit_pending (s : State) (requester : Nat) (p : GritPacket) :
    (s.sendGrit requester p).pending = s.pending := by simp [sendGrit]
@[simp] theorem tookGrit_pending (s : State) (p : GritPacket) : (s.tookGrit p).pending = s.pending := rfl
@[simp] theorem badGrit_pending (s : State) (p : GritPacket) : (s.badGrit p).pending = s.pending := by simp [badGrit]
@[simp] theorem onFencePacket_pending (s : State) (kind n : Nat) (toBrick : Bool) (f : State → GritPacket → State) (hf : ∀ t x, (f t x).pending = t.pending) :
    (s.onFencePacket kind n toBrick f).pending = s.pending := by
  unfold onFencePacket
  split
  · rfl
  · split <;> simp [hf]

/-! ### Machine/Rollouts.lean -/

@[simp] theorem pokeObj_pending (s : State) (id at_ : Nat) (v : Byte) : (s.pokeObj id at_ v).pending = s.pending := by
  unfold pokeObj
  split <;> simp
@[simp] theorem closeSequences_pending (s : State) (code : Nat) : (s.closeSequences code).pending = s.pending := by
  unfold closeSequences
  split <;> simp
@[simp] theorem closeAtBoundary_pending (s : State) (b : Nat) :
    (s.closeAtBoundary b).pending = s.pending := by simp [closeAtBoundary]
@[simp] theorem sweepRollouts_pending (s : State) : s.sweepRollouts.pending = s.pending := by
  refine pending_foldl _ (fun t id => ?_) _ _
  split
  · rfl
  · simp
@[simp] theorem voidRollouts_pending (s : State) : s.voidRollouts.pending = s.pending := by simp [voidRollouts]

/-! ### Machine/Bays.lean -/

@[simp] theorem leaveBay_pending (s : State) (b : Nat) (p : BayPlan) : (s.leaveBay b p).pending = s.pending := by
  unfold leaveBay
  dsimp only
  split
  · rfl
  · rw [pending_foldl_setBrick, unbindStreams_pending]
@[simp] theorem planChange_pending (s : State) (b : Nat) (p : BayPlan) :
    (s.planChange b p).1.pending = s.pending := by
  unfold planChange
  dsimp only
  (repeat' split) <;> simp
@[simp] theorem endWait_pending (s : State) (b cycle : Nat) :
    (s.endWait b cycle).pending = s.pending := by simp [endWait]
@[simp] theorem dropFence_pending (s : State) (b : Nat) : (s.dropFence b).pending = s.pending := by simp [dropFence]
@[simp] theorem faultBay_pending (s : State) (b : Nat) (code : Code) : (s.faultBay b code).pending = s.pending := by
  unfold faultBay
  dsimp only
  (repeat' split) <;> simp
@[simp] theorem failSite_pending (s : State) (die row col : Nat) : (s.failSite die row col).pending = s.pending := by
  unfold failSite
  dsimp only
  (repeat' split) <;> simp
@[simp] theorem stepAbort_pending (s : State) (n : Nat) (obj : Option Nat) :
    (s.stepAbort n obj).pending = s.pending := by
  unfold stepAbort
  split <;> simp
@[simp] theorem consumeEcc_pending (s : State) (b n : Nat) (sp : Space) (at_ : Nat) (e : Ecc) :
    (s.consumeEcc b n sp at_ e).pending = s.pending := by
  unfold consumeEcc
  (repeat' split) <;> simp
@[simp] theorem startBricks_pending (s : State) (b : Nat) :
    (s.startBricks b).pending = s.pending := pending_foldl_setBrick ..
@[simp] theorem enterRunning_pending (s : State) (b : Nat) :
    (s.enterRunning b).pending = s.pending := by simp [enterRunning]
@[simp] theorem beginSwap_pending (s : State) (b cycle : Nat) (after : BayState) :
    (s.beginSwap b cycle after).pending = s.pending := by
  unfold beginSwap
  dsimp only
  rw [pending_foldl _ fun w n => by rw [sendGrit_pending], setBay_pending, pending_foldl_setBrick, endWait_pending]
@[simp] theorem noteFlip_pending (s : State) (b : Nat) : (s.noteFlip b).pending = s.pending := by
  refine pending_foldl _ (fun t m => ?_) _ _
  dsimp only
  split
  · rfl
  · split <;> rfl
@[simp] theorem flipWeights_pending (s : State) (b : Nat) :
    (s.flipWeights b).pending = s.pending := by simp [flipWeights]
@[simp] theorem runSwap_pending (s : State) (b : Nat) : (s.runSwap b).pending = s.pending := by simp [runSwap]
@[simp] theorem startSave_pending (s : State) (b obj cycle : Nat) :
    (s.startSave b obj cycle).1.pending = s.pending := by
  unfold startSave
  dsimp only
  split
  · rfl
  · split
    · rfl
    · rw [setBay_pending, chargeClay_pending, setObj_pending, endWait_pending]
@[simp] theorem writeContext_pending (s : State) (b obj : Nat) : (s.writeContext b obj).pending = s.pending := by
  unfold writeContext
  (repeat' split) <;> simp
@[simp] theorem endFence_pending (s : State) (b : Nat) : (s.endFence b).pending = s.pending := by
  unfold endFence
  dsimp only
  (repeat' split) <;> simp
@[simp] theorem fenceSwap_pending (s : State) (b cycle : Nat) :
    (s.fenceSwap b cycle).pending = s.pending := by simp [fenceSwap]
@[simp] theorem serveFence_pending (s : State) (b cycle : Nat) : (s.serveFence b cycle).pending = s.pending := by
  unfold serveFence
  split <;> simp
@[simp] theorem latchAmaxes_pending (s : State) (b : Nat) : (s.latchAmaxes b).pending = s.pending := by
  unfold latchAmaxes
  dsimp only
  rw [setGrit_pending, setBay_pending, pending_foldl_setBrick]
@[simp] theorem holdUpdate_pending (s : State) : s.holdUpdate.pending = s.pending := rfl
@[simp] theorem endLearnStep_pending (s : State) (step : Nat) :
    (s.endLearnStep step).pending = s.pending := by simp [endLearnStep]
@[simp] theorem noteUpdate_pending (s : State) (b : Nat) : (s.noteUpdate b).pending = s.pending := rfl
@[simp] theorem bayStepEnd_pending (s : State) (b : Nat) :
    (s.bayStepEnd b).pending = s.pending := by simp [bayStepEnd]
@[simp] theorem reachFence_pending (s : State) (b cycle : Nat) :
    (s.reachFence b cycle).pending = s.pending := by simp [reachFence]
@[simp] theorem enterProgram_pending (s : State) (dig : Bytes) (kind : Nat) :
    (s.enterProgram dig kind).pending = s.pending := by simp [enterProgram]
@[simp] theorem beginLoad_pending (s : State) (b obj cycle : Nat) (l : State.LoadPlan) :
    (s.beginLoad b obj cycle l).pending = s.pending := by
  unfold beginLoad
  dsimp only
  rw [setBay_pending, pending_foldl_setBrick]
  split <;> simp
@[simp] theorem setCode_pending (s : State) (b : Nat) (c : Code) :
    (s.setCode b c).pending = s.pending := by simp [setCode]
@[simp] theorem cmdEnable_pending (s : State) (b : Nat) : (s.cmdEnable b).pending = s.pending := by simp [cmdEnable]
@[simp] theorem cmdShutDown_pending (s : State) (b : Nat) :
    (s.cmdShutDown b).pending = s.pending := by simp [cmdShutDown]
@[simp] theorem cmdSwap_pending (s : State) (b cycle : Nat) :
    (s.cmdSwap b cycle).pending = s.pending := by simp [cmdSwap]
@[simp] theorem cmdLoad_pending (s : State) (b obj cycle : Nat) : (s.cmdLoad b obj cycle).pending = s.pending := by
  unfold cmdLoad
  split <;> simp
@[simp] theorem cmdSave_pending (s : State) (b obj cycle : Nat) :
    (s.cmdSave b obj cycle).pending = s.pending := by simp [cmdSave]
@[simp] theorem restoreBay_pending (s : State) (b obj : Nat) (o : Obj) :
    (s.restoreBay b obj o).pending = s.pending := by
  unfold restoreBay
  dsimp only
  rw [setBay_pending, setBay_pending, setObj_pending, pending_foldl_setBrick, unbindStreams_pending]
@[simp] theorem cmdRestore_pending (s : State) (b obj : Nat) (read : ObjRead) :
    (s.cmdRestore b obj read).pending = s.pending := by
  unfold cmdRestore
  split <;> simp
@[simp] theorem cmdClear_pending (s : State) (b : Nat) : (s.cmdClear b).pending = s.pending := by
  unfold cmdClear
  dsimp only
  split
  · simp
  · rw [setBay_pending, pending_foldl_setBrick, unbindStreams_pending]
    split <;> simp
@[simp] theorem bayCommand_pending (s : State) (b cmd : Nat) (arg : Word) (cycle : Nat) (read : optParam ObjRead []) :
    (s.bayCommand b cmd arg cycle read).pending = s.pending := by simp [bayCommand]
@[simp] theorem bayCtrl_pending (s : State) (b cmd reserved cycle : Nat) (read : optParam ObjRead []) :
    (s.bayCtrl b cmd reserved cycle read).pending = s.pending := by simp [bayCtrl]
@[simp] theorem swapNowReady_pending (s : State) (b cycle : Nat) :
    (s.swapNowReady b cycle).pending = s.pending := by simp [swapNowReady]
@[simp] theorem sendLoaded_pending (s : State) (b n : Nat) :
    (s.sendLoaded b n).pending = s.pending := by simp [sendLoaded]
@[simp] theorem loadedAt_pending (s : State) (b n cycle : Nat) : (s.loadedAt b n cycle).pending = s.pending := by
  unfold loadedAt
  dsimp only
  (repeat' split) <;> simp
@[simp] theorem loadError_pending (s : State) (b n unit : Nat) : (s.loadError b n unit).pending = s.pending := by
  unfold loadError
  split
  · rfl
  · dsimp only
    rw [setBay_pending, pending_foldl_setBrick]
    simp
@[simp] theorem swappedAt_pending (s : State) (b n cycle : Nat) :
    (s.swappedAt b n cycle).pending = s.pending := by simp [swappedAt]
@[simp] theorem saveDone_pending (s : State) (b cycle : Nat) : (s.saveDone b cycle).pending = s.pending := by
  unfold saveDone
  dsimp only
  (repeat' split) <;> simp
@[simp] theorem quietAt_pending (s : State) (b n cycle : Nat) :
    (s.quietAt b n cycle).pending = s.pending := by simp [quietAt]
@[simp] theorem swapLate_pending (s : State) (b cycle : Nat) : (s.swapLate b cycle).pending = s.pending := by
  unfold swapLate
  dsimp only
  (repeat' split) <;> simp
@[simp] theorem onBay_pending (s : State) (n : Nat) (f : State → Nat → State) (hf : ∀ t x, (f t x).pending = t.pending) :
    (s.onBay n f).pending = s.pending := by
  unfold onBay
  split
  · split <;> simp [hf]
  · rfl

/-! ### Machine/Streams.lean -/

@[simp] theorem orStat_pending (s : State) (a v : Nat) : (s.orStat a v).pending = s.pending := by simp [orStat]
@[simp] theorem raise_pending (s : State) (n : Nat) (fs : List (Nat × Nat)) : (s.raise n fs).pending = s.pending := by
  unfold raise
  split <;> simp
@[simp] theorem raiseTile_pending (s : State) (n : Nat) (fs : List Nat) :
    (s.raiseTile n fs).pending = s.pending := by simp [raiseTile]
@[simp] theorem stallOut_pending (s : State) (n i : Nat) : (s.stallOut n i).pending = s.pending := by simp [stallOut]
@[simp] theorem freeHeld_pending (s : State) (p : GritPacket) :
    (s.freeHeld p).pending = s.pending := by simp [freeHeld]
@[simp] theorem holdData_pending (s : State) (req : Nat) (p : GritPacket) :
    (s.holdData req p).pending = s.pending := by simp [holdData]
@[simp] theorem postHeld_pending (s : State) (source dest stream : Nat) (h : Word) :
    (s.postHeld source dest stream h).pending = s.pending := by simp [postHeld]
@[simp] theorem writeSlot_pending (s : State) (b n i req : Nat) (bs : Bytes) (tag : Nat) :
    (s.writeSlot b n i req bs tag).pending = s.pending := by simp [writeSlot]
@[simp] theorem postSlot_pending (s : State) (b n i req : Nat) :
    (s.postSlot b n i req).pending = s.pending := by simp [postSlot]
@[simp] theorem writeBuffer_pending (s : State) (b n : Nat) (h : Word) (at_ : Nat) (bs : Bytes) :
    (s.writeBuffer b n h at_ bs).pending = s.pending := by
  unfold writeBuffer
  split <;> simp
@[simp] theorem deliver_pending (s : State) (dest destStream : Nat) (h : Word) (at_ : Nat) (bs : Bytes) :
    (s.deliver dest destStream h at_ bs).pending = s.pending := by
  unfold deliver
  split <;> simp
@[simp] theorem passLink_pending (s : State) (f : LineFlit) (link vc : Nat) :
    (s.passLink f link vc).pending = s.pending := by simp [passLink]
@[simp] theorem lineCycle_pending (s : State) (link : Nat) (cands : List FlitCand) :
    (s.lineCycle link cands).pending = s.pending := by
  unfold lineCycle
  (repeat' split) <;> simp
@[simp] theorem creditHome_pending (s : State) (link vc : Nat) : (s.creditHome link vc).pending = s.pending := rfl
@[simp] theorem postArrives_pending (s : State) (p : GritPacket) (flits : Nat) :
    (s.postArrives p flits).pending = s.pending := by simp [postArrives]
@[simp] theorem gritDataIn_pending (s : State) (p : GritPacket) :
    (s.gritDataIn p).pending = s.pending := by simp [gritDataIn]
@[simp] theorem joinQueue_pending (s : State) (b n i : Nat) : (s.joinQueue b n i).pending = s.pending := by
  unfold joinQueue
  dsimp only
  (repeat' split) <;> simp
@[simp] theorem releaseBuffer_pending (s0 : State) (b n i req : Nat) (h : Word) :
    (s0.releaseBuffer b n i req h).pending = s0.pending := by
  unfold releaseBuffer
  dsimp only
  (repeat' split) <;> simp
@[simp] theorem releaseAt_pending (s : State) (n i : Nat) (h : Word) :
    (s.releaseAt n i h).pending = s.pending := by simp [releaseAt]
@[simp] theorem handOver_pending (s : State) (b n i : Nat) (h : Word) :
    (s.handOver b n i h).pending = s.pending := by simp [handOver]
@[simp] theorem exchange_pending (s : State) (b n i : Nat) : (s.exchange b n i).pending = s.pending := by
  unfold exchange
  dsimp only
  (repeat' split) <;> simp
@[simp] theorem whileRunning_pending (s : State) (n : Nat) (f : State → Nat → State) (hf : ∀ t x, (f t x).pending = t.pending) :
    (s.whileRunning n f).pending = s.pending := by
  unfold whileRunning
  split
  · split <;> simp [hf]
  · rfl

/-! ### Machine/Tiles.lean -/

@[simp] theorem drawTile_pending (s : State) (b n f count tag stream num : Nat) :
    (s.drawTile b n f count tag stream num).2.pending = s.pending := by simp [drawTile]
@[simp] theorem writeSpace_pending (s : State) (b n : Nat) (sp : Space) (at_ : Nat) (bs : Bytes) :
    (s.writeSpace b n sp at_ bs).pending = s.pending := by
  unfold writeSpace
  (repeat' split) <;> simp
@[simp] theorem loadDraws_pending (s : State) (b n f count tag : Nat) :
    (s.loadDraws b n f count tag).2.pending = s.pending := by
  unfold loadDraws
  dsimp only
  (repeat' split) <;> simp
@[simp] theorem loadAt_pending (s : State) (b n f : Nat) (sp : Space) (a tag : Nat) (array transpose : Bool) (note : RewindPoint) :
    (s.loadAt b n f sp a tag array transpose note).1.pending = s.pending := by
  unfold loadAt
  dsimp only
  (repeat' split) <;> simp
@[simp] theorem storeThrough_pending (s : State) (b n f start : Nat) (rs : List ResultTile) :
    (s.storeThrough b n f start rs).1.pending = s.pending := by
  refine foldl_keeps (fun a : State × List Stored => a.1.pending) _ (fun a r => ?_) _ _
  dsimp only
  rw [setBrick_pending, raiseTile_pending]
  split
  · rw [drawTile_pending]
  · rfl

/-! ### Machine/Programs.lean -/

@[simp] theorem atWord_pending (s : State) (n p op : Nat) (f : State → Nat → State) (hf : ∀ t x, (f t x).pending = t.pending) :
    (s.atWord n p op f).pending = s.pending := by
  refine whileRunning_pending s n _ fun t b => ?_
  dsimp only
  split
  · exact hf t b
  · rfl
@[simp] theorem putGen_pending (s : State) (n p : Nat) (g : Gen) :
    (s.putGen n p g).pending = s.pending := by simp [putGen]
@[simp] theorem stepWord_pending (s : State) (n p : Nat) : (s.stepWord n p).pending = s.pending := by simp [stepWord]
@[simp] theorem releaseRing_pending (s : State) (b n p : Nat) :
    (s.releaseRing b n p).pending = s.pending := by simp [releaseRing]
@[simp] theorem endProgram_pending (s : State) (b n p : Nat) :
    (s.endProgram b n p).pending = s.pending := by simp [endProgram]
@[simp] theorem jumpProgram_pending (s : State) (b n p : Nat) :
    (s.jumpProgram b n p).pending = s.pending := by simp [jumpProgram]
@[simp] theorem baseProgram_pending (s : State) (n p : Nat) :
    (s.baseProgram n p).pending = s.pending := by rw [baseProgram, putGen_pending]
@[simp] theorem loopProgram_pending (s : State) (n p : Nat) :
    (s.loopProgram n p).pending = s.pending := by simp [loopProgram]
@[simp] theorem readMove_pending (s : State) (b n p : Nat) (ecc : Ecc) :
    (s.readMove b n p ecc).pending = s.pending := by simp [readMove]
@[simp] theorem feedConverter_pending (s : State) (b n f : Nat) : (s.feedConverter b n f).pending = s.pending := by
  unfold feedConverter
  split <;> simp
@[simp] theorem writeRaw_pending (s : State) (b n p : Nat) (r : ResultTile) :
    (s.writeRaw b n p r).pending = s.pending := by simp [writeRaw]
@[simp] theorem writeTileSlot_pending (s : State) (b n i p : Nat) (f : FormatWord) (x : Stored) (tag : Nat) :
    (s.writeTileSlot b n i p f x tag).pending = s.pending := by simp [writeTileSlot]
@[simp] theorem writeTilesSlot_pending (s : State) (b n i p : Nat) (f : FormatWord) (xs : List (Stored × ResultTile)) :
    (s.writeTilesSlot b n i p f xs).pending = s.pending := by simp [writeTilesSlot]
@[simp] theorem writeTilesAt_pending (s : State) (b n : Nat) (sp : Space) (f : FormatWord) (a : Nat) (xs : List Stored) :
    (s.writeTilesAt b n sp f a xs).pending = s.pending := by simp [writeTilesAt]
@[simp] theorem writeMove_pending (s0 : State) (b n p : Nat) : (s0.writeMove b n p).pending = s0.pending := by
  unfold writeMove
  dsimp only
  split
  · rfl
  · split
    · rw [stallOut_pending]
    · split
      · rfl
      · split
        · rw [writeRaw_pending, feedConverter_pending]
        · split
          · rw [putGen_pending, setBrick_pending, feedConverter_pending]
          · split
            · rfl
            · rw [putGen_pending]
              split
              · rw [writeTilesSlot_pending, setBrick_pending, storeThrough_pending, feedConverter_pending]
              · rw [writeTilesAt_pending, setBrick_pending, storeThrough_pending, feedConverter_pending]
@[simp] theorem moveProgram_pending (s : State) (b n p : Nat) (ecc : Ecc) :
    (s.moveProgram b n p ecc).pending = s.pending := by simp [moveProgram]
@[simp] theorem releaseHeld_pending (s : State) (b n p i : Nat) : (s.releaseHeld b n p i).pending = s.pending := by
  unfold releaseHeld
  dsimp only
  (repeat' split) <;> simp
@[simp] theorem waitRing_pending (s0 : State) (b n p i : Nat) (ecc : Ecc) :
    (s0.waitRing b n p i ecc).pending = s0.pending := by
  unfold waitRing
  dsimp only
  (repeat' split) <;> simp
@[simp] theorem waitProgram_pending (s : State) (b n p : Nat) (ecc : Ecc) :
    (s.waitProgram b n p ecc).pending = s.pending := by simp [waitProgram]
@[simp] theorem postProgram_pending (s : State) (b n p : Nat) :
    (s.postProgram b n p).pending = s.pending := by simp [postProgram]
@[simp] theorem holdAt_pending (s : State) (n : Nat) : (s.holdAt n).pending = s.pending := by simp [holdAt]
@[simp] theorem passFence_pending (s : State) (b n : Nat) (ends : Bool) :
    (s.passFence b n ends).pending = s.pending := by simp [passFence]
@[simp] theorem sendAmax_pending (s : State) (b n : Nat) : (s.sendAmax b n).pending = s.pending := by simp [sendAmax]
@[simp] theorem releaseWork_pending (s : State) (b n : Nat) :
    (s.releaseWork b n).pending = s.pending := by simp [releaseWork]
@[simp] theorem fenceProgram_pending (s0 : State) (b n : Nat) :
    (s0.fenceProgram b n).pending = s0.pending := by simp [fenceProgram]
@[simp] theorem amaxArrives_pending (s : State) (b : Nat) (p : GritPacket) :
    (s.amaxArrives b p).pending = s.pending := by simp [amaxArrives]
@[simp] theorem amaxReturns_pending (s : State) (b n : Nat) (p : GritPacket) :
    (s.amaxReturns b n p).pending = s.pending := by simp [amaxReturns]
@[simp] theorem releaseHalves_pending (s : State) (b n : Nat) : (s.releaseHalves b n).pending = s.pending := by
  unfold releaseHalves
  dsimp only
  rw [setBrick_pending]
  refine pending_foldl _ (fun t i => ?_) _ _
  split <;> simp
@[simp] theorem brickQuiet_pending (s : State) (b n : Nat) :
    (s.brickQuiet b n).pending = s.pending := by simp [brickQuiet]

/-! ### Machine/Matrix.lean -/

@[simp] theorem chunkDraws_pending (s : State) (b n c tag : Nat) :
    (s.chunkDraws b n c tag).2.pending = s.pending := by simp [chunkDraws]
@[simp] theorem pass_pending (s : State) (b n : Nat) : (s.pass b n).pending = s.pending := by
  unfold pass
  dsimp only
  (repeat' split) <;> simp
@[simp] theorem stallArray_pending (s : State) (n : Nat) :
    (s.stallArray n).pending = s.pending := by simp [stallArray]
@[simp] theorem arrayPass_pending (s : State) (b n : Nat) :
    (s.arrayPass b n).pending = s.pending := by simp [arrayPass]
theorem nextTile_pending {s : State} {b n i size : Nat} {r : Bytes × State} (h : s.nextTile b n i size = some r) :
    r.2.pending = s.pending := by
  unfold nextTile at h
  obtain ⟨a, -, rfl⟩ := Option.map_eq_some_iff.1 h
  dsimp only
  simp only [apply_ite Prod.snd, pending_ite, releaseBuffer_pending, setBrick_pending, ite_self]
@[simp] theorem chainIn_pending (s : State) (b n link : Nat) : (s.chainIn b n link).pending = s.pending := by
  unfold chainIn
  dsimp only
  split
  · rfl
  · next h => rw [setBrick_pending, nextTile_pending h]
@[simp] theorem mergeIn_pending (s : State) (b n link : Nat) : (s.mergeIn b n link).pending = s.pending := by
  unfold mergeIn
  dsimp only
  split
  · rfl
  · next h =>
    split
    · rw [setBrick_pending, nextTile_pending h]
    · rw [setBrick_pending, raiseTile_pending]
      split
      · rw [chunkDraws_pending, nextTile_pending h]
      · exact nextTile_pending h
@[simp] theorem accumulate_pending (s : State) (b n : Nat) :
    (s.accumulate b n).pending = s.pending := by simp [accumulate]
@[simp] theorem clearDrained_pending (s : State) (n : Nat) :
    (s.clearDrained n).pending = s.pending := by simp [clearDrained]

/-! ### Machine/Vector.lean -/

@[simp] theorem enterLanes_pending (s : State) (n : Nat) (codes : List Nat) (tag index : Nat) :
    (s.enterLanes n codes tag index).pending = s.pending := by simp [enterLanes]
@[simp] theorem beginDrain_pending (s : State) (n : Nat) :
    (s.beginDrain n).pending = s.pending := by simp [beginDrain]
@[simp] theorem beginPrimary_pending (s : State) (n : Nat) : (s.beginPrimary n).pending = s.pending := by
  unfold beginPrimary
  dsimp only
  (repeat' split) <;> simp
@[simp] theorem beginTile_pending (s : State) (n : Nat) : (s.beginTile n).pending = s.pending := by simp [beginTile]
@[simp] theorem leaveLanes_pending (s : State) (n : Nat) :
    (s.leaveLanes n).pending = s.pending := by simp [leaveLanes]
@[simp] theorem rawDrainOf_pending (s : State) (n : Nat) :
    (s.rawDrainOf n).pending = s.pending := by simp [rawDrainOf]
@[simp] theorem wordDone_pending (s : State) (n : Nat) (codes : List Nat) :
    (s.wordDone n codes).pending = s.pending := by simp [wordDone]
@[simp] theorem mapLanes_pending (s : State) (n : Nat) (f : Nat → Nat → Rounded) :
    (s.mapLanes n f).pending = s.pending := by simp [mapLanes]
@[simp] theorem laneDraws_pending (s : State) (b n stream num : Nat) :
    (s.laneDraws b n stream num).2.pending = s.pending := by simp [laneDraws]
@[simp] theorem runRand_pending (s : State) (b n k : Nat) : (s.runRand b n k).pending = s.pending := by
  unfold runRand
  dsimp only
  (repeat' split) <;> simp
@[simp] theorem runCvt_pending (s : State) (b n k : Nat) : (s.runCvt b n k).pending = s.pending := by
  unfold runCvt
  dsimp only
  (repeat' split) <;> simp
@[simp] theorem emitRecord_pending (s : State) (b n i : Nat) (bs : Bytes) (tag : Nat) :
    (s.emitRecord b n i bs tag).pending = s.pending := by simp [emitRecord]
@[simp] theorem runRowstat_pending (s : State) (b n k : Nat) :
    (s.runRowstat b n k).pending = s.pending := by simp [runRowstat]
@[simp] theorem runAmax_pending (s : State) (n k : Nat) : (s.runAmax n k).pending = s.pending := by simp [runAmax]
@[simp] theorem runFlags_pending (s : State) (b n k : Nat) : (s.runFlags b n k).pending = s.pending := by
  unfold runFlags
  dsimp only
  split
  · simp
  · rw [wordDone_pending, setBrick_pending, emitRecord_pending]
@[simp] theorem emitRows_pending (b n i k tag fuel : Nat) (s : State) :
    (s.emitRows b n i k tag fuel).pending = s.pending := by
  induction fuel generalizing s with
  | zero => rfl
  | succ fuel ih =>
    unfold emitRows
    dsimp only
    split
    · rfl
    · split
      · rfl
      · split
        · rw [ih, setBrick_pending, emitRecord_pending]
        · simp
@[simp] theorem runSort_pending (s : State) (b n k : Nat) : (s.runSort b n k).pending = s.pending := by simp [runSort]
@[simp] theorem runWord_pending (s : State) (b n k : Nat) : (s.runWord b n k).pending = s.pending := by simp [runWord]
@[simp] theorem runChain_pending (b n fuel : Nat) (s : State) : (s.runChain b n fuel).pending = s.pending := by
  induction fuel generalizing s with
  | zero => rfl
  | succ fuel ih =>
    unfold runChain
    split
    · dsimp only
      split <;> simp [ih]
    · rfl
@[simp] theorem drainBank_pending (s : State) (b n : Nat) :
    (s.drainBank b n).pending = s.pending := by simp [drainBank]
@[simp] theorem primaryTile_pending (s : State) (b n : Nat) :
    (s.primaryTile b n).pending = s.pending := by simp [primaryTile]
@[simp] theorem oneWord_pending (s : State) (b n k op : Nat) : (s.oneWord b n k op).pending = s.pending := by
  unfold oneWord
  dsimp only
  (repeat' split) <;> simp
@[simp] theorem runOp_pending (s : State) (n k op : Nat) : (s.runOp n k op).pending = s.pending := by simp [runOp]

/-! ### Machine/Attention.lean -/

@[simp] theorem loadVals_pending (s : State) (b n f : Nat) (sp : Space) (addrs : List Nat) :
    (s.loadVals b n f sp addrs).1.pending = s.pending := by
  induction addrs generalizing s with
  | nil => rfl
  | cons a as ih => simp [loadVals, ih]
@[simp] theorem loadInputs_pending (s : State) (b n f : Nat) (h : Word) (at_ k : Nat) :
    (s.loadInputs b n f h at_ k).1.pending = s.pending := by simp [loadInputs]
@[simp] theorem recordDone_pending (s : State) (b n : Nat) :
    (s.recordDone b n).pending = s.pending := by simp [recordDone]
@[simp] theorem writeJob_pending (s : State) (b n : Nat) (j : OutJob) :
    (s.writeJob b n j).pending = s.pending := by simp [writeJob]
@[simp] theorem emitJobs_pending (b n fuel : Nat) (s : State) : (s.emitJobs b n fuel).pending = s.pending := by
  induction fuel generalizing s with
  | zero => rfl
  | succ fuel ih =>
    unfold emitJobs
    dsimp only
    split
    · simp
    · split
      · rw [ih, setBrick_pending, writeJob_pending]
      · simp
@[simp] theorem putJobs_pending (s : State) (b n : Nat) (jobs : List OutJob) :
    (s.putJobs b n jobs).pending = s.pending := by simp [putJobs]
@[simp] theorem storeOut_pending (s : State) (b n : Nat) (tiles : List ResultTile) :
    (s.storeOut b n tiles).1.pending = s.pending := foldl_keeps (fun a : State × List (Bytes × Bytes) => a.1.pending) _ (fun a g => by simp) _ _
@[simp] theorem emitFinal_pending (s : State) (b n : Nat) (r : WorkRecord) (rows : List RowState) :
    (s.emitFinal b n r rows).pending = s.pending := by simp [emitFinal]
@[simp] theorem releasePartials_pending (s : State) (b n i : Nat) :
    (s.releasePartials b n i).pending = s.pending := by simp [releasePartials]
@[simp] theorem emitNan_pending (s : State) (b n : Nat) (r : WorkRecord) : (s.emitNan b n r).pending = s.pending := by
  unfold emitNan
  dsimp only
  (repeat' split) <;> simp
@[simp] theorem refuseRecord_pending (s : State) (b n : Nat) (r : WorkRecord) (code : Code) :
    (s.refuseRecord b n r code).pending = s.pending := by simp [refuseRecord]
@[simp] theorem copyRow_pending (s : State) (b n z src srcRow dst dstRow : Nat) :
    (s.copyRow b n z src srcRow dst dstRow).pending = s.pending := by simp [copyRow]
@[simp] theorem flushPage_pending (s : State) (b n z : Nat) (r : WorkRecord) (page u : Nat) :
    (s.flushPage b n z r page u).pending = s.pending := by
  unfold flushPage
  split <;> simp
@[simp] theorem appendToken_pending (s : State) (b n z : Nat) (r : WorkRecord) (h : Word) (i u : Nat) :
    (s.appendToken b n z r h i u).pending = s.pending := by simp [appendToken]
@[simp] theorem updateStaging_pending (s : State) (b n : Nat) (r : WorkRecord) (h : Word) (hd : StagingHeader) :
    (s.updateStaging b n r h hd).pending = s.pending := by
  unfold updateStaging
  split
  · rfl
  · rw [count_pending, writeSpace_pending]
    refine pending_foldl _ (fun t e => ?_) _ _
    split <;> simp
@[simp] theorem scoreDraws_pending (s : State) (b n : Nat) (r : WorkRecord) (pos k : Nat) :
    (s.scoreDraws b n r pos k).2.pending = s.pending := by simp [scoreDraws]
@[simp] theorem allScoreDraws_pending (s : State) (b n : Nat) (r : WorkRecord) (pos : Nat) :
    (s.allScoreDraws b n r pos).2.pending = s.pending := foldl_keeps (fun a : List (Nat × Array Word) × State => a.2.pending) _ (fun a k => by simp) _ _
@[simp] theorem attendBlock_pending (b n : Nat) (r : WorkRecord) (qs : List TileVals) (acc : State × List RowState) (blk : KeyBlock) :
    (attendBlock b n r qs acc blk).1.pending = acc.1.pending := by
  unfold attendBlock
  split <;> simp
@[simp] theorem attend_pending (s : State) (b n : Nat) (h : Word) (r : WorkRecord) :
    (s.attend b n h r).pending = s.pending := by
  unfold attend
  have hfold (qs : List TileVals) (l : List KeyBlock) (a : State × List RowState) :
      (l.foldl (attendBlock b n r qs) a).1.pending = a.1.pending :=
    foldl_keeps (fun a => a.1.pending) _ (fun a k => attendBlock_pending b n r qs a k) l a
  dsimp only
  split <;> simp [hfold]
@[simp] theorem addGrad_pending (s : State) (b n : Nat) (tiles : List Nat) (f : Nat → Nat → List (Option FVal)) :
    (s.addGrad b n tiles f).1.pending = s.pending := foldl_keeps (fun a : State × LaneFlags => a.1.pending) _ (fun a x => by simp) _ _
@[simp] theorem backBlock_pending (b n : Nat) (r : WorkRecord) (qs dos : List TileVals) (facts : List State.BackRow) (acc : State × List (List Nat)) (blk : KeyBlock) :
    (backBlock b n r qs dos facts acc blk).1.pending = acc.1.pending := by
  unfold backBlock
  split
  · rfl
  · dsimp only
    rw [raise_pending, addGrad_pending, addGrad_pending, loadVals_pending, loadVals_pending]
@[simp] theorem backward_pending (s : State) (b n : Nat) (h : Word) (r : WorkRecord) :
    (s.backward b n h r).pending = s.pending := by
  have hfold (qs dos : List TileVals) (facts : List BackRow) (l : List KeyBlock) (a : State × List (List Nat)) :
      (l.foldl (backBlock b n r qs dos facts) a).1.pending = a.1.pending :=
    foldl_keeps (fun a => a.1.pending) _ (fun a k => backBlock_pending b n r qs dos facts a k) l a
  unfold backward
  dsimp only
  rw [putJobs_pending, raise_pending, hfold, loadInputs_pending, loadInputs_pending]
@[simp] theorem takePartials_pending (b n : Nat) (r : WorkRecord) (fuel : Nat) (s : State) :
    (s.takePartials b n r fuel).1.pending = s.pending := by
  induction fuel generalizing s with
  | zero => rfl
  | succ fuel ih =>
    unfold takePartials
    split
    · rfl
    · dsimp only
      split
      · rfl
      · rw [ih, setBrick_pending]
@[simp] theorem mergeTake_pending (s : State) (b n : Nat) (r : WorkRecord) (cycles : Nat) :
    (s.mergeTake b n r cycles).pending = s.pending := by simp [mergeTake]
@[simp] theorem mergeAll_pending (s : State) (b n : Nat) (r : WorkRecord) :
    (s.mergeAll b n r).pending = s.pending := by simp [mergeAll]
@[simp] theorem onRecord_pending (s : State) (n : Nat) (kindOk : Nat → Bool) (f : State → Nat → Word → WorkRecord → State) (hf : ∀ t x y z, (f t x y z).pending = t.pending) :
    (s.onRecord n kindOk f).pending = s.pending := by
  refine whileRunning_pending s n _ fun t b => ?_
  split
  · rfl
  · dsimp only
    (repeat' split) <;> simp [hf]

/-! ### Machine/MemUnits.lean -/

@[simp] theorem reserveShares_pending (s : State) : s.reserveShares.pending = s.pending := by simp [reserveShares]
@[simp] theorem ddrDone_pending (s : State) (rs : List DdrResult) :
    (s.ddrDone rs).pending = s.pending := by simp [ddrDone]
@[simp] theorem cxlUp_pending (s : State) (u : Nat) (f : CxlResult) :
    (s.cxlUp u f).pending = s.pending := by simp [cxlUp]
@[simp] theorem cxlViolation_pending (s : State) (u counter : Nat) :
    (s.cxlViolation u counter).pending = s.pending := by simp [cxlViolation]
@[simp] theorem spoilRead_pending (s : State) (u seq : Nat) :
    (s.spoilRead u seq).pending = s.pending := by simp [spoilRead]
@[simp] theorem ddrTemp_pending (s : State) (u : Nat) (q : Int) :
    (s.ddrTemp u q).pending = s.pending := by simp [ddrTemp]

/-! ### Machine/Power.lean -/

@[simp] theorem enterReset_pending (s : State) (pwrOk resetIn : Bool) :
    (s.enterReset pwrOk resetIn).pending = s.pending := rfl
@[simp] theorem clearFaults_pending (s : State) : s.clearFaults.pending = s.pending := rfl
@[simp] theorem window_pending (s : State) (f : PowerFacts) : (s.window f).pending = s.pending := by simp [window]
@[simp] theorem leaveStage1_pending (s : State) : s.leaveStage1.pending = s.pending := by simp [leaveStage1]
@[simp] theorem tapLoad_pending (s : State) (ir : Byte) : (s.tapLoad ir).pending = s.pending := by simp [tapLoad]

/-! ### Machine/Links.lean -/

@[simp] theorem sendControl_pending (s : State) (p kind : Nat) (payload : Bytes) :
    (s.sendControl p kind payload).pending = s.pending := by simp [sendControl]
@[simp] theorem sendWaiting_pending (s : State) (p i : Nat) : (s.sendWaiting p i).pending = s.pending := by
  unfold sendWaiting
  dsimp only
  (repeat' split) <;> simp
@[simp] theorem pump_pending (s : State) (p n : Nat) : (s.pump p n).pending = s.pending := by
  induction n generalizing s with
  | zero => rfl
  | succ n ih =>
    unfold pump
    dsimp only
    (repeat' split) <;> simp [ih]
@[simp] theorem enqueue_pending (s : State) (p : Nat) (w : WaitFlit) :
    (s.enqueue p w).pending = s.pending := by simp [enqueue]
@[simp] theorem sendSegments_pending (s : State) (p : Nat) (h : FlitHdr) (detour : Bool) (segs : List Bytes) :
    (s.sendSegments p h detour segs).pending = s.pending := by
  induction segs generalizing s with
  | nil => rfl
  | cons seg rest ih => simp [sendSegments, ih]
@[simp] theorem unsent_pending (s : State) (member flits : Nat) (h : State.MsgHdr) (body : Bytes) :
    (s.unsent member flits h body).pending = s.pending := by simp [unsent]
@[simp] theorem sendVia_pending (s : State) (first : Option Nat) (member dest : Nat) (h : State.MsgHdr) (body : Bytes) :
    (s.sendVia first member dest h body).pending = s.pending := by
  unfold sendVia
  dsimp only
  (repeat' split) <;> simp
@[simp] theorem sendMsg_pending (s : State) (dest : Nat) (h : State.MsgHdr) (body : Bytes) :
    (s.sendMsg dest h body).pending = s.pending := by simp [sendMsg]
@[simp] theorem sendAll_pending (s : State) (dests : List Nat) (h : State.MsgHdr) (body : Bytes) :
    (s.sendAll dests h body).pending = s.pending := by simp [sendAll]
@[simp] theorem sendOnPort_pending (s : State) (p dest : Nat) (h : State.MsgHdr) (body : Bytes) :
    (s.sendOnPort p dest h body).pending = s.pending := by simp [sendOnPort]
@[simp] theorem unroutable_pending (s : State) (p : Nat) (h : FlitHdr) (payload : Bytes) :
    (s.unroutable p h payload).pending = s.pending := by simp [unroutable]
@[simp] theorem markMid_pending (s : State) (p : Nat) (h : FlitHdr) :
    (s.markMid p h).pending = s.pending := by simp [markMid]
@[simp] theorem forward_pending (s : State) (p : Nat) (h : FlitHdr) (payload : Bytes) (origin : Option (Nat × Nat)) :
    (s.forward p h payload origin).pending = s.pending := by
  unfold forward
  dsimp only
  (repeat' split) <;> simp
@[simp] theorem rerouteAll_pending (s : State) (p : Nat) (ws : List WaitFlit) :
    (s.rerouteAll p ws).pending = s.pending := by
  induction ws generalizing s with
  | nil => rfl
  | cons w ws ih => simp [rerouteAll, ih]
@[simp] theorem portDown_pending (s : State) (p : Nat) (code : Code) :
    (s.portDown p code).pending = s.pending := by simp [portDown]
@[simp] theorem retrain_pending (s : State) (p : Nat) : (s.retrain p).pending = s.pending := by simp [retrain]
@[simp] theorem badPartner_pending (s : State) (p counter : Nat) :
    (s.badPartner p counter).pending = s.pending := by simp [badPartner]
@[simp] theorem crcFail_pending (s : State) (p : Nat) : (s.crcFail p).pending = s.pending := by simp [crcFail]
@[simp] theorem takeAck_pending (s : State) (p : Nat) (h : FlitHdr) :
    (s.takeAck p h).pending = s.pending := by simp [takeAck]
@[simp] theorem freeEntry_pending (s : State) (p ch : Nat) :
    (s.freeEntry p ch).pending = s.pending := by simp [freeEntry]
@[simp] theorem messageIn_pending (s : State) (p source : Nat) (m : Bytes) :
    (s.messageIn p source m).pending = s.pending := by simp [messageIn]
@[simp] theorem takeIn_pending (s : State) (p : Nat) (h : FlitHdr) (payload : Bytes) :
    (s.takeIn p h payload).pending = s.pending := by simp [takeIn]
@[simp] theorem acceptFlit_pending (s : State) (p : Nat) (f : Bytes) (h : FlitHdr) (payload : Bytes) :
    (s.acceptFlit p f h payload).pending = s.pending := by simp [acceptFlit]
@[simp] theorem receiveFlit_pending (s : State) (p : Nat) (f : Bytes) : (s.receiveFlit p f).pending = s.pending := by
  unfold receiveFlit
  dsimp only
  (repeat' split) <;> simp
@[simp] theorem receiveControl_pending (s : State) (p : Nat) (f : Bytes) :
    (s.receiveControl p f).pending = s.pending := by simp [receiveControl]
@[simp] theorem resendFrom_pending (s : State) (p fsn : Nat) : (s.resendFrom p fsn).pending = s.pending := by
  unfold resendFrom
  dsimp only
  (repeat' split) <;> simp

/-! ### Machine/Handshake.lean -/

@[simp] theorem helloSegments_pending (s : State) (p : Nat) (segs : List Bytes) :
    (s.helloSegments p segs).pending = s.pending := by
  induction segs generalizing s with
  | nil => rfl
  | cons seg rest ih => simp [helloSegments, ih]
@[simp] theorem sendHello_pending (s : State) (p : Nat) : (s.sendHello p).pending = s.pending := by simp [sendHello]
@[simp] theorem refusePort_pending (s : State) (p : Nat) (code : Code) :
    (s.refusePort p code).pending = s.pending := by simp [refusePort]
@[simp] theorem acceptHello_pending (s : State) (p : Nat) (b : Bytes) : (s.acceptHello p b).pending = s.pending := by
  unfold acceptHello
  split <;> simp
@[simp] theorem beginHello_pending (s : State) (p : Nat) :
    (s.beginHello p).pending = s.pending := by simp [beginHello]
@[simp] theorem startHandshakes_pending (s : State) (ps : List Nat) : (s.startHandshakes ps).pending = s.pending := by
  induction ps generalizing s with
  | nil => rfl
  | cons p ps ih => simp [startHandshakes, ih]
@[simp] theorem issueCert_pending (s : State) : s.issueCert.pending = s.pending := by simp [issueCert]

/-! ### Machine/Reports.lean -/

@[simp] theorem askReport_pending (s : State) (nonce : Bytes) (who : ReportFor) :
    (s.askReport nonce who).pending = s.pending := rfl
@[simp] theorem setEntropy_pending (s : State) (south : Bool) (v : Nat) :
    (s.setEntropy south v).pending = s.pending := rfl
@[simp] theorem healthFail_pending (s : State) (south : Bool) :
    (s.healthFail south).pending = s.pending := by simp [healthFail]

/-! ### Machine/Serving.lean -/

@[simp] theorem setSvPort_pending (s : State) (e : Nat) (v : SvPort) : (s.setSvPort e v).pending = s.pending := rfl
@[simp] theorem clientFault_pending (s : State) (e counter : Nat) :
    (s.clientFault e counter).pending = s.pending := by simp [clientFault]
@[simp] theorem sendDatagram_pending (s : State) (e c addr udp : Nat) (payload : Bytes) :
    (s.sendDatagram e c addr udp payload).pending = s.pending := by simp [sendDatagram]
@[simp] theorem setSess_pending (s : State) (v : Session) : (s.setSess v).pending = s.pending := rfl
@[simp] theorem dropSession_pending (s : State) (e id : Nat) : (s.dropSession e id).pending = s.pending := rfl
@[simp] theorem sealRecord_pending (s : State) (v : Session) (record : Bytes) :
    (s.sealRecord v record).pending = s.pending := by simp [sealRecord]
@[simp] theorem sendRecord_pending (s : State) (e id op flags request : Nat) (body : Bytes) :
    (s.sendRecord e id op flags request body).pending = s.pending := by
  unfold sendRecord
  split <;> simp
@[simp] theorem closeSession_pending (s : State) (e id : Nat) (code : Code) :
    (s.closeSession e id code).pending = s.pending := by simp [closeSession]
@[simp] theorem sendStatus_pending (s : State) (e id request cls : Nat) (code : Code) :
    (s.sendStatus e id request cls code).pending = s.pending := by simp [sendStatus]
@[simp] theorem answerHello_pending (s : State) (e addr udp : Nat) (f : Bytes) :
    (s.answerHello e addr udp f).pending = s.pending := by simp [answerHello]
@[simp] theorem helloFrame_pending (s : State) (e addr udp : Nat) (f : Bytes) :
    (s.helloFrame e addr udp f).pending = s.pending := by simp [helloFrame]
@[simp] theorem resumeHellos_pending (s : State) (e : Nat) :
    (s.resumeHellos e).pending = s.pending := by simp [resumeHellos]
@[simp] theorem takeRecord_pending (s : State) (v : Session) (r : Bytes) :
    (s.takeRecord v r).pending = s.pending := by
  unfold takeRecord
  (repeat' split) <;> simp
@[simp] theorem recordFrame_pending (s : State) (e addr udp : Nat) (f : Bytes) :
    (s.recordFrame e addr udp f).pending = s.pending := by
  unfold recordFrame
  dsimp only
  (repeat' split) <;> simp
theorem takeOp_pending {s : State} {e id op : Nat} {v : Session} {r : Bytes} {t : State}
    (h : s.takeOp e id op = some (v, r, t)) : t.pending = s.pending := by
  unfold takeOp at h
  obtain ⟨v', -, h⟩ := Option.bind_eq_some_iff.1 h
  obtain ⟨r', -, h⟩ := Option.map_eq_some_iff.1 h
  obtain ⟨rfl, rfl, rfl⟩ := h
  simp
@[simp] theorem confirmRecord_pending (s : State) (v : Session) (r : Bytes) :
    (s.confirmRecord v r).pending = s.pending := by
  unfold confirmRecord
  dsimp only
  (repeat' split) <;> simp
@[simp] theorem setReq_pending (s : State) (v : Request) : (s.setReq v).pending = s.pending := rfl
@[simp] theorem dropReq_pending (s : State) (v : Request) : (s.dropReq v).pending = s.pending := rfl
@[simp] theorem setQueue_pending (s : State) (m c : Nat) (q : List (Nat × Nat × Nat)) :
    (s.setQueue m c q).pending = s.pending := rfl
@[simp] theorem submitRecord_pending (s : State) (v : Session) (r : Bytes) :
    (s.submitRecord v r).pending = s.pending := by
  unfold submitRecord
  dsimp only
  (repeat' split) <;> simp
@[simp] theorem sendTokens_pending (s : State) (r : Request) (first last : Nat) (more : Bool) :
    (s.sendTokens r first last more).pending = s.pending := by simp [sendTokens]
@[simp] theorem sendDone_pending (s : State) (r : Request) : (s.sendDone r).pending = s.pending := by simp [sendDone]
@[simp] theorem resendRecords_pending (s : State) (v : Session) (r : Bytes) :
    (s.resendRecords v r).pending = s.pending := by
  unfold resendRecords
  dsimp only
  (repeat' split) <;> simp
@[simp] theorem cancelRecord_pending (s : State) (v : Session) (r : Bytes) :
    (s.cancelRecord v r).pending = s.pending := by
  unfold cancelRecord
  dsimp only
  (repeat' split) <;> simp
@[simp] theorem ackRecord_pending (s : State) (v : Session) (r : Bytes) : (s.ackRecord v r).pending = s.pending := by
  unfold ackRecord
  dsimp only
  (repeat' split) <;> simp
@[simp] theorem reportRecord_pending (s : State) (v : Session) (r : Bytes) :
    (s.reportRecord v r).pending = s.pending := by simp [reportRecord]
@[simp] theorem setGroup_pending (s : State) (m : Nat) (g : Machine.Group) :
    (s.setGroup m g).pending = s.pending := rfl
@[simp] theorem endReq_pending (s : State) (r : Request) (code : Code) :
    (s.endReq r code).pending = s.pending := by simp [endReq]
@[simp] theorem settleReq_pending (s : State) (bay : Nat) (x : StepResult) :
    (s.settleReq bay x).pending = s.pending := by
  unfold settleReq
  split <;> simp
@[simp] theorem moveRequests_pending (s : State) (m bay : Nat) (rooms : List (Nat × Nat)) :
    (s.moveRequests m bay rooms).pending = s.pending := by
  refine foldl_keeps (fun a : State × List (Nat × Nat) => a.1.pending) _ (fun a r => ?_) _ _
  dsimp only
  split <;> simp
@[simp] theorem noteWeights_pending (s : State) (bay : Nat) :
    (s.noteWeights bay).pending = s.pending := by simp [noteWeights]
@[simp] theorem settleQueue_pending (s : State) (m c : Nat) : (s.settleQueue m c).pending = s.pending := by
  refine pending_foldl _ (fun t k => ?_) _ _
  split <;> simp
@[simp] theorem admitQueue_pending (bay m c n : Nat) (a : State × Nat × Nat × Bool) :
    (admitQueue bay m c n a).1.pending = a.1.pending := by
  induction n generalizing a with
  | zero => rfl
  | succ n ih =>
    obtain ⟨s, batch, toks, stop⟩ := a
    unfold admitQueue
    dsimp only
    split
    · rfl
    · split
      · rw [ih, setQueue_pending]
      · split
        · rfl
        · rw [ih, count_pending, setReq_pending, setQueue_pending]
@[simp] theorem admitFrom_pending (s : State) (bay m batch toks : Nat) :
    (s.admitFrom bay m batch toks).pending = s.pending := by
  unfold admitFrom
  rw [foldl_keeps (fun a : State × Nat × Nat × Bool => a.1.pending)]
  intro a c
  rw [admitQueue_pending]
@[simp] theorem shareRule_pending (s : State) (m : Nat) : (s.shareRule m).pending = s.pending := by simp [shareRule]
@[simp] theorem changeRole_pending (s : State) (m bay : Nat) : (s.changeRole m bay).pending = s.pending := by
  unfold changeRole
  dsimp only
  (repeat' split) <;> simp
@[simp] theorem holdEpoch_pending (s : State) (bay : Nat) :
    (s.holdEpoch bay).pending = s.pending := by simp [holdEpoch]
@[simp] theorem stepBoundary_pending (s : State) (bay batch toks : Nat) (rooms : List (Nat × Nat)) (results : List StepResult) :
    (s.stepBoundary bay batch toks rooms results).pending = s.pending := by
  unfold stepBoundary
  split <;> simp
@[simp] theorem finishReport_pending (s : State) : s.finishReport.pending = s.pending := by
  unfold finishReport
  (repeat' split) <;> simp
@[simp] theorem onSealed_pending (s : State) (port session op : Nat) (f : State → Session → Bytes → State) (hf : ∀ t x y, (f t x y).pending = t.pending) :
    (s.onSealed port session op f).pending = s.pending := by
  unfold onSealed
  split
  · split
    · next h =>
      split
      · rw [hf, takeOp_pending h]
      · rfl
    · rfl
  · rfl

/-! ### Machine/Checkpoint.lean -/

@[simp] theorem ckptObject_pending (s : State) (id : Nat) (read : ObjRead) (before : Bytes × Bytes) :
    (s.ckptObject id read before).1.pending = s.pending := by
  unfold ckptObject
  split <;> simp
@[simp] theorem ckptBody_pending (s : State) (objs : List Nat) (reads : List (Nat × ObjRead)) :
    (s.ckptBody objs reads).1.pending = s.pending := by
  refine foldl_keeps (fun a : State × Option (Bytes × Bytes) => a.1.pending) _ (fun a id => ?_) _ _
  split <;> simp
@[simp] theorem writeSlotData_pending (s : State) (i first : Nat) (data : Bytes) :
    (s.writeSlotData i first data).pending = s.pending := by simp [writeSlotData]
@[simp] theorem sendSlot_pending (s : State) (dest : Nat) (mirror : Bool) (msgs : List (Nat × Bytes)) :
    (s.sendSlot dest mirror msgs).pending = s.pending := by
  refine pending_foldl _ (fun t x => ?_) _ _
  dsimp only
  split <;> simp
@[simp] theorem failCkpt_pending (s : State) (code : Code) :
    (s.failCkpt code).pending = s.pending := by simp [failCkpt]
@[simp] theorem writeCkpt_pending (s : State) (objs : List Nat) (reads : List (Nat × ObjRead)) :
    (s.writeCkpt objs reads).pending = s.pending := by
  unfold writeCkpt
  dsimp only
  (repeat' split) <;> simp
@[simp] theorem setSlot_pending (s : State) (i : Nat) (v : CkptSlot) : (s.setSlot i v).pending = s.pending := rfl
@[simp] theorem takeCkpt_pending (s : State) (source offset : Nat) (data : Bytes) :
    (s.takeCkpt source offset data).pending = s.pending := by
  unfold takeCkpt
  dsimp only
  (repeat' split) <;> simp
@[simp] theorem ackCkpt_pending (s : State) (source : Nat) (low : Word) :
    (s.ackCkpt source low).pending = s.pending := by simp [ackCkpt]
@[simp] theorem reportBuddy_pending (s : State) : s.reportBuddy.pending = s.pending := by
  unfold reportBuddy
  split <;> simp
@[simp] theorem ckptTimeout_pending (s : State) : s.ckptTimeout.pending = s.pending := by simp [ckptTimeout]
@[simp] theorem restoreObj_pending (s : State) (i body : Nat) (e : Bytes) :
    (s.restoreObj i body e).1.pending = s.pending := by
  unfold restoreObj
  dsimp only
  (repeat' split) <;> simp
@[simp] theorem restoreBayRecord_pending (s : State) (e : Bytes) :
    (s.restoreBayRecord e).pending = s.pending := by simp [restoreBayRecord]
@[simp] theorem restoreSlot_pending (s : State) (i : Nat) : (s.restoreSlot i).pending = s.pending := by
  have hobjs (l : List Bytes) (body : Nat) (a : State × Code) :
      (l.foldl (fun (acc : State × Code) e => if acc.2 ≠ sOk then acc else acc.1.restoreObj i body e) a).1.pending
        = a.1.pending :=
    foldl_keeps (fun a => a.1.pending) _ (fun a e => by split <;> simp) l a
  unfold restoreSlot
  dsimp only
  split
  · rw [hobjs]
  · dsimp only
    rw [pending_foldl _ fun t e => by rw [restoreBayRecord_pending], hobjs]
@[simp] theorem fetchState_pending (s : State) (j : Nat) : (s.fetchState j).pending = s.pending := by
  unfold fetchState
  split <;> simp
@[simp] theorem answerFetch_pending (s : State) (source job k : Nat) :
    (s.answerFetch source job k).pending = s.pending := by simp [answerFetch]
@[simp] theorem hostRestore_pending (s : State) (source : Nat) : (s.hostRestore source).pending = s.pending := by
  unfold hostRestore
  (repeat' split) <;> simp

/-! ### Machine/Relays.lean -/

@[simp] theorem forwardTile_pending (b n o tag : Nat) (s : State) (tile : Bytes) :
    (s.forwardTile b n o tag tile).pending = s.pending := by simp [forwardTile]
@[simp] theorem relayTake_pending (s : State) (b n i : Nat) (ecc : Ecc) :
    (s.relayTake b n i ecc).pending = s.pending := by simp [relayTake]
@[simp] theorem relayFree_pending (s : State) (b n i : Nat) (x : RelayTake) :
    (s.relayFree b n i x).pending = s.pending := by simp [relayFree]
@[simp] theorem relayRelease_pending (s : State) (b n i : Nat) :
    ∀ t ∈ s.relayRelease b n i, t.pending = s.pending := by
  unfold relayRelease
  dsimp only
  (repeat' split) <;> simp
@[simp] theorem relayBuffer_pending (s : State) (b n : Nat) (ecc : Ecc) :
    (s.relayBuffer b n ecc).pending = s.pending := by
  unfold relayBuffer
  dsimp only
  split
  · rfl
  · split
    · next t h =>
      obtain ⟨i, -, hi⟩ := List.exists_of_findSome?_eq_some h
      exact relayRelease_pending s b n i t hi
    · split <;> simp
@[simp] theorem sendRelay_pending (s : State) (c typ dev ch xfer arg : Nat) (body : Bytes) :
    (s.sendRelay c typ dev ch xfer arg body).pending = s.pending := by simp [sendRelay]
@[simp] theorem sendRelayError_pending (s : State) (c dev ch : Nat) (code : Code) (index : Nat) :
    (s.sendRelayError c dev ch code index).pending = s.pending := by simp [sendRelayError]
@[simp] theorem endRelay_pending (s : State) (c state : Nat) (code : Code) :
    (s.endRelay c state code).pending = s.pending := by simp [endRelay]
@[simp] theorem closeRelay_pending (s : State) (c : Nat) (code : Code) :
    (s.closeRelay c code).pending = s.pending := by simp [closeRelay]
@[simp] theorem endEgress_pending (s : State) (c : Nat) : (s.endEgress c).pending = s.pending := by simp [endEgress]
@[simp] theorem relayViolation_pending (s : State) (c dev ch index : Nat) :
    (s.relayViolation c dev ch index).pending = s.pending := by simp [relayViolation]
@[simp] theorem setRelayCode_pending (s : State) (c : Nat) (code : Code) :
    (s.setRelayCode c code).pending = s.pending := by simp [setRelayCode]
@[simp] theorem grantTokens_pending (s : State) (c n : Nat) :
    (s.grantTokens c n).pending = s.pending := by simp [grantTokens]
@[simp] theorem openIn_pending (s : State) (c : Nat) : (s.openIn c).pending = s.pending := by simp [openIn]
@[simp] theorem openOut_pending (s : State) (c : Nat) : (s.openOut c).pending = s.pending := by simp [openOut]
@[simp] theorem splicePeer_pending (s : State) (c dev ch resume : Nat) :
    (s.splicePeer c dev ch resume).pending = s.pending := by simp [splicePeer]
@[simp] theorem relayCtrl_pending (s : State) (c cmd reserved dev ch resume : Nat) :
    (s.relayCtrl c cmd reserved dev ch resume).pending = s.pending := by simp [relayCtrl]
@[simp] theorem egressSend_pending (s : State) (c : Nat) (read : TileRead) :
    (s.egressSend c read).pending = s.pending := by
  unfold egressSend
  dsimp only
  (repeat' split) <;> simp
@[simp] theorem takeGrant_pending (s : State) (c dev ch xfer n next : Nat) :
    (s.takeGrant c dev ch xfer n next).pending = s.pending := by simp [takeGrant]
@[simp] theorem takeToken_pending (s : State) (c dev ch xfer n : Nat) :
    (s.takeToken c dev ch xfer n).pending = s.pending := by simp [takeToken]
@[simp] theorem reportLaggard_pending (s : State) (c : Nat) :
    (s.reportLaggard c).pending = s.pending := by simp [reportLaggard]
@[simp] theorem progress_pending (s : State) (c tiles : Nat) : (s.progress c tiles).pending = s.pending := by
  unfold progress
  split <;> simp
@[simp] theorem postIngress_pending (s : State) (c : Nat) :
    (s.postIngress c).pending = s.pending := by simp [postIngress]
@[simp] theorem takeTile_pending (s : State) (c dev ch xfer index : Nat) (tile : Bytes) :
    (s.takeTile c dev ch xfer index tile).pending = s.pending := by simp [takeTile]
@[simp] theorem releaseAtChannel_pending (s : State) (c : Nat) (h : Word) :
    (s.releaseAtChannel c h).pending = s.pending := by
  unfold releaseAtChannel
  dsimp only
  (repeat' split) <;> simp
@[simp] theorem releaseIn_pending (s : State) (p : GritPacket) :
    (s.releaseIn p).pending = s.pending := by simp [releaseIn]
@[simp] theorem takeError_pending (s : State) (c dev : Nat) (code : Code) :
    (s.takeError c dev code).pending = s.pending := by simp [takeError]
@[simp] theorem onChannel_pending (s : State) (c : Nat) (f : State → State) (hf : ∀ t, (f t).pending = t.pending) :
    (s.onChannel c f).pending = s.pending := by
  unfold onChannel
  split <;> simp [hf]
@[simp] theorem byCore_pending (s : State) (core c : Nat) (f : State → State) (hf : ∀ t, (f t).pending = t.pending) :
    (s.byCore core c f).pending = s.pending := by
  unfold byCore
  split <;> simp [hf]

/-! ### Machine/Stalls.lean -/

@[simp] theorem countStall_pending (s : State) (n : Nat) (k : Brick) :
    (s.countStall n k).pending = s.pending := by simp [countStall]
@[simp] theorem countStalls_pending (s : State) : s.countStalls.pending = s.pending := by simp [countStalls]

/-! ### Machine/Time.lean -/

@[simp] theorem countGated_pending (s : State) (a : Nat) :
    (s.countGated a).pending = s.pending := by simp [countGated]
@[simp] theorem countStarved_pending (s : State) (c : Nat) :
    (s.countStarved c).pending = s.pending := by simp [countStarved]
@[simp] theorem countTick_pending (s : State) : s.countTick.pending = s.pending := by simp [countTick]
@[simp] theorem tickOver_pending (s : State) : s.tickOver.pending = s.pending := by simp [tickOver]
@[simp] theorem enterTime_pending (s : State) (st : TbState) : (s.enterTime st).pending = s.pending := by
  unfold enterTime
  split <;> simp
@[simp] theorem loadTick_pending (s : State) (tai : Nat) : (s.loadTick tai).pending = s.pending := rfl
@[simp] theorem measure_pending (s : State) (off : Int) (tai : Nat) : (s.measure off tai).pending = s.pending := by
  unfold measure
  split <;> simp
@[simp] theorem pulse_pending (s : State) (phase : Nat) : (s.pulse phase).pending = s.pending := by
  unfold pulse
  split <;> simp
@[simp] theorem syncWhole_pending (s : State) (m : PtpMsg) (origin arrive : Int) :
    (s.syncWhole m origin arrive).pending = s.pending := by simp [syncWhole]
@[simp] theorem takePtp_pending (s : State) (m : PtpMsg) : (s.takePtp m).pending = s.pending := by
  unfold takePtp
  dsimp only
  (repeat' split) <;> simp
@[simp] theorem schedule_pending (s : State) (mgmt : Bool) (tick cls : Nat) (arg : Word) :
    (s.schedule mgmt tick cls arg).pending = s.pending := by simp [schedule]

/-! ### Machine/Turns.lean -/

@[simp] theorem sendVote_pending (s : State) (verdict step : Nat) :
    (s.sendVote verdict step).pending = s.pending := by simp [sendVote]
@[simp] theorem takeVoid_pending (s : State) (turn smin : Nat) :
    (s.takeVoid turn smin).pending = s.pending := by simp [takeVoid]
@[simp] theorem takeBoundary_pending (s : State) (turn : Nat) :
    (s.takeBoundary turn).pending = s.pending := by simp [takeBoundary]
@[simp] theorem takePhase_pending (s : State) (phase : Nat) :
    (s.takePhase phase).pending = s.pending := by simp [takePhase]
@[simp] theorem takeChange_pending (s : State) (a : Announce) :
    (s.takeChange a).pending = s.pending := by simp [takeChange]
@[simp] theorem install_pending (s : State) (a : Announce) : (s.install a).pending = s.pending := by simp [install]
@[simp] theorem announce_pending (s : State) (a : Announce) : (s.announce a).pending = s.pending := by simp [announce]
@[simp] theorem takeRemap_pending (s : State) (f host placement tick : Nat) :
    (s.takeRemap f host placement tick).pending = s.pending := by simp [takeRemap]
@[simp] theorem sendRemap_pending (s : State) (dests : List Nat) (f host placement tick : Nat) :
    (s.sendRemap dests f host placement tick).pending = s.pending := by simp [sendRemap]
@[simp] theorem declareAs_pending (s : State) (f : Nat) (hp : Nat × Nat) :
    (s.declareAs f hp).pending = s.pending := by simp [declareAs]
@[simp] theorem declareFailed_pending (s : State) (f : Nat) :
    (s.declareFailed f).pending = s.pending := by simp [declareFailed]
@[simp] theorem decide_pending (s : State) (verdict : Nat) (expired : Bool) :
    (s.decide verdict expired).pending = s.pending := by simp [decide]
@[simp] theorem settleVote_pending (s : State) : s.settleVote.pending = s.pending := by
  unfold settleVote
  split <;> simp
@[simp] theorem ownDone_pending (s : State) (verdict : Nat) :
    (s.ownDone verdict).pending = s.pending := by simp [ownDone]
@[simp] theorem takeVote_pending (s : State) (source phase turn verdict step : Nat) :
    (s.takeVote source phase turn verdict step).pending = s.pending := by simp [takeVote]
@[simp] theorem limitExpired_pending (s : State) : s.limitExpired.pending = s.pending := by
  unfold limitExpired
  split <;> simp
@[simp] theorem heard_pending (s : State) (kind turn phase tick smin : Nat) :
    (s.heard kind turn phase tick smin).pending = s.pending := by simp [heard]
@[simp] theorem wslot_pending (s : State) (b : Nat) (value : Word) :
    (s.wslot b value).pending = s.pending := by simp [wslot]

/-! ### Machine/System.lean -/

@[simp] theorem suspectPeer_pending (s : State) (p : Nat) : (s.suspectPeer p).pending = s.pending := by
  unfold suspectPeer
  dsimp only
  split
  · split
    · rw [pending_foldl, setPort_pending]
      intro u m
      split <;> simp
    · simp
  · simp
@[simp] theorem noteSubst_pending (s : State) (f former : Nat) : (s.noteSubst f former).pending = s.pending := rfl
@[simp] theorem installSubst_pending (s : State) (f former : Nat) :
    (s.installSubst f former).pending = s.pending := by simp [installSubst]
@[simp] theorem substituteFor_pending (s : State) (f : Nat) :
    (s.substituteFor f).pending = s.pending := by simp [substituteFor]
@[simp] theorem suspected_pending (s : State) (source f : Nat) :
    (s.suspected source f).pending = s.pending := by simp [suspected]
@[simp] theorem substitution_pending (s : State) (f former : Nat) :
    (s.substitution f former).pending = s.pending := by simp [substitution]
@[simp] theorem hostTakes_pending (s : State) (f placement : Nat) :
    (s.hostTakes f placement).pending = s.pending := by
  unfold hostTakes
  dsimp only
  (repeat' split) <;> simp
@[simp] theorem fireRemap_pending (s : State) : s.fireRemap.pending = s.pending := by
  unfold fireRemap
  split <;> simp

/-! ### Machine/WeightOpen.lean -/

@[simp] theorem readTensors_pending (s : State) (header : Nat) (img : Bytes) (reads : List (Nat × ObjRead)) :
    (s.readTensors header img reads).1.pending = s.pending := by
  refine foldl_keeps (fun a : State × Option (List Bytes) => a.1.pending) _ (fun a x => ?_) _ _
  dsimp only
  split <;> simp
@[simp] theorem writeTensors_pending (s : State) (header : Nat) (img : Bytes) (tiles : List Bytes) :
    (s.writeTensors header img tiles).1.pending = s.pending := by
  have hfold (l : List ((Nat × Nat × Nat) × Bytes)) (a : State × Code) :
      (l.foldl (fun (acc : State × Code) x => if acc.2 ≠ sOk then acc else acc.1.rewriteTile x.1.2.2 x.1.2.1 x.2) a).1.pending
        = a.1.pending :=
    foldl_keeps (fun a => a.1.pending) _ (fun a x => by split <;> simp) l a
  unfold writeTensors
  dsimp only
  split
  · exact hfold _ _
  · rfl
@[simp] theorem deleteTensors_pending (s : State) (header : Nat) (img : Bytes) :
    (s.deleteTensors header img).pending = s.pending := by
  refine pending_foldl _ (fun t id => ?_) _ _
  split <;> simp
@[simp] theorem noteOrigin_pending (s : State) (dig : Bytes) :
    (s.noteOrigin dig).pending = s.pending := by simp [noteOrigin]
@[simp] theorem noteOpened_pending (s : State) (header : Nat) (img : Bytes) :
    (s.noteOpened header img).pending = s.pending := by
  refine pending_foldl _ (fun t id => ?_) _ _
  split <;> simp
@[simp] theorem enterWeight_pending (s : State) (header : Nat) (img : Bytes) (claimed : Bool) (device : Nat) :
    (s.enterWeight header img claimed device).pending = s.pending := by simp [enterWeight]
@[simp] theorem startFlips_pending (s : State) (img : Bytes) : (s.startFlips img).pending = s.pending := by
  refine pending_foldl _ (fun t m => ?_) _ _
  dsimp only
  split
  · rfl
  · split
    · exact pending_foldl _ (by intros; rfl) _ _
    · rfl
@[simp] theorem pinImage_pending (s : State) (header : Nat) (img : Bytes) (pin : Bool) :
    (s.pinImage header img pin).pending = s.pending := by simp [pinImage]
@[simp] theorem wopenCtrl_pending (s : State) (south : Bool) (cmd reserved : Nat) :
    (s.wopenCtrl south cmd reserved).pending = s.pending := by simp [wopenCtrl]
@[simp] theorem wopenEnd_pending (s : State) (c : Code) : (s.wopenEnd c).pending = s.pending := rfl
@[simp] theorem wopenTiles_pending (s : State) (cmd id : Nat) (img : Bytes) (tiles : List Bytes) :
    (s.wopenTiles cmd id img tiles).pending = s.pending := by
  unfold wopenTiles
  split <;> simp
@[simp] theorem wopenDone_pending (s : State) (reads : List (Nat × ObjRead)) :
    (s.wopenDone reads).pending = s.pending := by
  unfold wopenDone
  dsimp only
  (repeat' split) <;> simp

/-! ### Machine/Boot.lean -/

@[simp] theorem stopBoot_pending (s : State) (code : Code) : (s.stopBoot code).pending = s.pending := rfl
@[simp] theorem recover_pending (s : State) (code : Code) (dark : Bool) :
    (s.recover code dark).pending = s.pending := rfl
@[simp] theorem release_pending (s : State) (f : ReleaseFacts) :
    (s.release f).pending = s.pending := by simp [release]
@[simp] theorem entropyTested_pending (s : State) (south pass : Bool) :
    (s.entropyTested south pass).pending = s.pending := by simp [entropyTested]
@[simp] theorem entropyUp_pending (s : State) (pass : Bool) :
    (s.entropyUp pass).pending = s.pending := by simp [entropyUp]
@[simp] theorem firmwareDone_pending (s : State) (readable : Bool) (m : Nat) :
    (s.firmwareDone readable m).pending = s.pending := by simp [firmwareDone]
@[simp] theorem selfTest_pending (s : State) (f : SelfTestFacts) : (s.selfTest f).pending = s.pending := by
  unfold selfTest
  simp only [pending_ite, fatalError_pending, recover_pending, ite_self]
  refine pending_foldl _ (fun u a => ?_) _ _
  split <;> split <;> simp
@[simp] theorem buildBay_pending (s : State) (x : Nat × BayPlan) :
    (s.buildBay x).pending = s.pending := by simp [buildBay]
@[simp] theorem installFooting_pending (s : State) (f : Footing) (fw ft : Bool) (digs : Bytes × Bytes) :
    (s.installFooting f fw ft digs).pending = s.pending := by simp [installFooting]
@[simp] theorem footingDone_pending (s : State) : s.footingDone.pending = s.pending := by
  unfold footingDone
  dsimp only
  (repeat' split) <;> simp
@[simp] theorem scrubAll_pending (s : State) : s.scrubAll.pending = s.pending := by simp [scrubAll]
@[simp] theorem loamObject_pending (s : State) (id : Nat) (o : Obj) (content : Nat → Bytes) :
    (s.loamObject id o content).1.pending = s.pending := by simp [loamObject]
@[simp] theorem addBundle_pending (s : State) (x : Nat × Bytes) : (s.addBundle x).pending = s.pending := by
  unfold addBundle
  dsimp only
  (repeat' split) <;> simp
@[simp] theorem sendGet_pending (s : State) (dig : Bytes) (g : Get) :
    (s.sendGet dig g).pending = s.pending := by simp [sendGet]
@[simp] theorem pumpFetch_pending (s : State) (f : Fetch) : (s.pumpFetch f).pending = s.pending := by simp [pumpFetch]
@[simp] theorem startFetch_pending (s : State) (dig : Bytes) (owner : Nat) :
    (s.startFetch dig owner).pending = s.pending := by simp [startFetch]
@[simp] theorem fetchNext_pending (s : State) : s.fetchNext.pending = s.pending := by
  unfold fetchNext
  (repeat' split) <;> simp
@[simp] theorem bootMapOuts_pending (s : State) : s.bootMapOuts.pending = s.pending := by
  unfold bootMapOuts
  split <;> simp
@[simp] theorem becomeReady_pending (s : State) : s.becomeReady.pending = s.pending := by simp [becomeReady]
@[simp] theorem readyNow_pending (s : State) : s.readyNow.pending = s.pending := by simp [readyNow]
@[simp] theorem retestDone_pending (s : State) (south pass : Bool) :
    (s.retestDone south pass).pending = s.pending := by simp [retestDone]

/-! ### Machine/Optimiser.lean -/

@[simp] theorem refuseUpdate_pending (s : State) (b n tag : Nat) :
    (s.refuseUpdate b n tag).pending = s.pending := by simp [refuseUpdate]
@[simp] theorem updateTile_pending (s : State) (b n : Nat) (r : UpdateRecord) (g w m v : OperandTile) :
    (s.updateTile b n r g w m v).pending = s.pending := by simp [updateTile]
@[simp] theorem optimise_pending (s : State) (b n : Nat) (kindOk : Nat → Bool) :
    (s.optimise b n kindOk).pending = s.pending := by
  unfold optimise
  dsimp only
  (repeat' split) <;> simp
@[simp] theorem rerunStep_pending (s : State) : s.rerunStep.pending = s.pending := by simp [rerunStep]

/-! ### Machine/Ports.lean -/

@[simp] theorem trainPort_pending (s : State) (p lanes : Nat) :
    (s.trainPort p lanes).pending = s.pending := by simp [trainPort]
@[simp] theorem retrainDone_pending (s : State) (p lanes : Nat) :
    (s.retrainDone p lanes).pending = s.pending := by simp [retrainDone]
@[simp] theorem takeBeacon_pending (s : State) (p : Nat) (f : Bytes) (localSub : Nat) :
    (s.takeBeacon p f localSub).pending = s.pending := by
  unfold takeBeacon
  split <;> simp
@[simp] theorem takeDelay_pending (s : State) (p : Nat) (f : Bytes) (arriveSub : Nat) :
    (s.takeDelay p f arriveSub).pending = s.pending := by
  unfold takeDelay
  (repeat' split) <;> simp
@[simp] theorem rekeyPort_pending (s : State) (p : Nat) : (s.rekeyPort p).pending = s.pending := by simp [rekeyPort]
@[simp] theorem helloIn_pending (s : State) (p : Nat) (b : Bytes) :
    (s.helloIn p b).pending = s.pending := by simp [helloIn]

/-! ### Machine/Regs.lean -/

@[simp] theorem readReg_pending (s : State) (agent a : Nat) : (s.readReg agent a).1.pending = s.pending := by
  unfold readReg
  (repeat' split) <;> simp
@[simp] theorem ctlFault_pending (s : State) (agent a : Nat) (write : Bool) :
    (s.ctlFault agent a write).pending = s.pending := by simp [ctlFault]
@[simp] theorem readAs_pending (s : State) (agent a width : Nat) :
    (s.readAs agent a width).1.pending = s.pending := by
  unfold readAs
  split <;> simp
@[simp] theorem holdLow_pending (s : State) (agent a : Nat) (v : Word) :
    (s.holdLow agent a v).pending = s.pending := rfl
@[simp] theorem takeHigh_pending (s : State) (agent a : Nat) (now v : Word) :
    (s.takeHigh agent a now v).1.pending = s.pending := rfl
@[simp] theorem setEpoch_pending (s : State) (b : Nat) (e : DWord) :
    (s.setEpoch b e).pending = s.pending := by simp [setEpoch]
@[simp] theorem epochWrite_pending (s : State) (agent b : Nat) (high : Bool) (value : Word) :
    (s.epochWrite agent b high value).pending = s.pending := by simp [epochWrite]
@[simp] theorem originWrite_pending (s : State) (agent b tag : Nat) (high : Bool) (value : Word) :
    (s.originWrite agent b tag high value).pending = s.pending := by simp [originWrite]
@[simp] theorem relayField_pending (s : State) (c off : Nat) (v : Word) :
    (s.relayField c off v).pending = s.pending := by
  unfold relayField
  split <;> simp
@[simp] theorem tierArg_pending (s : State) (i : Nat) (v : Word) :
    (s.tierArg i v).pending = s.pending := by rw [tierArg]
@[simp] theorem kick_pending (s : State) (core : Nat) (v : Word) :
    (s.kick core v).pending = s.pending := by simp [kick]
@[simp] theorem writeGlobal_pending (s : State) (agent a : Nat) (v : Word) :
    (s.writeGlobal agent a v).pending = s.pending := by simp [writeGlobal]
@[simp] theorem writeCs_pending (s : State) (south : Bool) (off : Nat) (v : Word) :
    (s.writeCs south off v).pending = s.pending := by simp [writeCs]
@[simp] theorem writeReg_pending (s : State) (agent a width : Nat) (v : Word) :
    (s.writeReg agent a width v).pending = s.pending := by simp [writeReg]

/-! ### Machine/Mgmt.lean -/

@[simp] theorem enterJournal_pending (s : State) (op slot : Nat) (m : Cirid) (code : Code) :
    (s.enterJournal op slot m code).pending = s.pending := rfl
@[simp] theorem mapEntry_pending (s : State) (seq : Nat) (f : KeptEntry → KeptEntry) :
    (s.mapEntry seq f).pending = s.pending := rfl
@[simp] theorem noteOutcome_pending (s : State) (seq : Nat) (code : Code) :
    (s.noteOutcome seq code).pending = s.pending := by simp [noteOutcome]
@[simp] theorem setField_pending (s : State) (id : Nat) (v : Bytes) :
    (s.setField id v).pending = s.pending := by simp [setField]
@[simp] theorem tierChange_pending (s : State) (b : Bytes) :
    (s.tierChange b).1.pending = s.pending := by simp [tierChange]
@[simp] theorem noteReplace_pending (s : State) (slot : Nat) (x : ModelSlot) (dig : Bytes) :
    (s.noteReplace slot x dig).pending = s.pending := by
  unfold noteReplace
  split <;> simp
@[simp] theorem replaceChange_pending (s : State) (b : Bytes) : (s.replaceChange b).1.pending = s.pending := by
  unfold replaceChange
  dsimp only
  (repeat' split) <;> simp
@[simp] theorem cancelEntry_pending (s : State) (seq : Nat) : (s.cancelEntry seq).1.pending = s.pending := by
  unfold cancelEntry
  split <;> simp
@[simp] theorem jobChange_pending (s : State) (action : Nat) : (s.jobChange action).1.pending = s.pending := rfl
@[simp] theorem applyChange_pending (s : State) (op : Nat) (b : Bytes) :
    (s.applyChange op b).1.pending = s.pending := by
  unfold applyChange
  split <;> simp
@[simp] theorem answerOn_pending (s : State) (conn op : Nat) (tag : Word) (code : Code) (at_ seq : Nat) (body : Bytes) :
    (s.answerOn conn op tag code at_ seq body).pending = s.pending := by simp [answerOn]
@[simp] theorem answerTo_pending (s : State) (op : Nat) (m : Cirid) (code : Code) (at_ : Nat) (body : Bytes) :
    (s.answerTo op m code at_ body).pending = s.pending := by simp [answerTo]
@[simp] theorem takeChangeCmd_pending (s : State) (slot op : Nat) (m : Cirid) :
    (s.takeChangeCmd slot op m).pending = s.pending := by simp [takeChangeCmd]
@[simp] theorem readRegs_pending (n a : Nat) (x : State × Bytes) : (readRegs n a x).1.pending = x.1.pending := by
  induction n generalizing a x with
  | zero => rfl
  | succ n ih =>
    unfold readRegs
    split
    · next t w h => rw [ih, ← readAs_pending x.1 mgmtAgent a 32, h]
    · rfl
@[simp] theorem badRead_pending (s : State) (op : Nat) (m : Cirid) (a : Nat) :
    (s.badRead op m a).pending = s.pending := by simp [badRead]
@[simp] theorem serveReadReg_pending (s : State) (m : Cirid) : (s.serveReadReg m).pending = s.pending := by
  unfold serveReadReg
  dsimp only
  split
  · simp
  · split
    · next t bs h => rw [answerTo_pending, ← readRegs_pending _ _ (s, []), h]
    · simp
@[simp] theorem serveReadStats_pending (s : State) (m : Cirid) : (s.serveReadStats m).pending = s.pending := by
  unfold serveReadStats
  dsimp only
  (repeat' split) <;> simp
@[simp] theorem serveReport_pending (s : State) (m : Cirid) :
    (s.serveReport m).pending = s.pending := by simp [serveReport]
@[simp] theorem serveReadJournal_pending (s : State) (m : Cirid) :
    (s.serveReadJournal m).pending = s.pending := by simp [serveReadJournal]
@[simp] theorem serveReadObject_pending (s : State) (m : Cirid) : (s.serveReadObject m).pending = s.pending := by
  unfold serveReadObject
  dsimp only
  (repeat' split) <;> simp
@[simp] theorem serveReset_pending (s : State) (m : Cirid) :
    (s.serveReset m).pending = s.pending := by simp [serveReset]
@[simp] theorem serveSubstitute_pending (s : State) (m : Cirid) :
    (s.serveSubstitute m).pending = s.pending := by simp [serveSubstitute]
@[simp] theorem startFooting_pending (s : State) (sub : Nat) (m : Cirid) :
    (s.startFooting sub m).pending = s.pending := by simp [startFooting]
@[simp] theorem eraseSlot_pending (s : State) (b : Bool) : (s.eraseSlot b).pending = s.pending := rfl
@[simp] theorem programFlash_pending (s : State) (at_ : Nat) (bs : Bytes) :
    (s.programFlash at_ bs).pending = s.pending := rfl
@[simp] theorem finishFooting_pending (s : State) (sub : Nat) (m : Cirid) :
    (s.finishFooting sub m).pending = s.pending := by simp [finishFooting]
@[simp] theorem serve_pending (s : State) (slot op : Nat) (m : Cirid) : (s.serve slot op m).pending = s.pending := by
  unfold serve
  (repeat' split) <;> simp
@[simp] theorem serveOffered_pending (s : State) (slot op : Nat) (m : Cirid) :
    (s.serveOffered slot op m).pending = s.pending := by simp [serveOffered]
@[simp] theorem onCirid_pending (s : State) (rowOp : Nat) (m : Cirid) : (s.onCirid rowOp m).pending = s.pending := by
  unfold onCirid
  (repeat' split) <;> simp
@[simp] theorem serveWaiting_pending (n : Nat) (s : State) : (s.serveWaiting n).pending = s.pending := by
  induction n generalizing s with
  | zero => rfl
  | succ n ih =>
    unfold serveWaiting
    dsimp only
    split
    · rfl
    · split <;> simp [ih]
@[simp] theorem serveNext_pending (s : State) : s.serveNext.pending = s.pending := by simp [serveNext]
@[simp] theorem connect_pending (s : State) (f : MgmtFacts) : (s.connect f).pending = s.pending := by
  unfold connect
  dsimp only
  (repeat' split) <;> simp
@[simp] theorem idleClose_pending (s : State) (conn : Nat) :
    (s.idleClose conn).pending = s.pending := by simp [idleClose]

/-! ### Machine/Census.lean -/

@[simp] theorem latchTick_pending (s : State) : s.latchTick.pending = s.pending := by simp [latchTick]
@[simp] theorem fireChange_pending (s : State) (arg : Word) : (s.fireChange arg).pending = s.pending := by
  unfold fireChange
  split <;> simp
@[simp] theorem fireBoundary_pending (s : State) (arg : Word) : (s.fireBoundary arg).pending = s.pending := by
  unfold fireBoundary
  (repeat' split) <;> simp
@[simp] theorem fireWake_pending (s : State) (arg : Word) : (s.fireWake arg).pending = s.pending := by
  unfold fireWake
  dsimp only
  (repeat' split) <;> simp
@[simp] theorem fireEntry_pending (s : State) (e : SchedEntry) : (s.fireEntry e).pending = s.pending := by
  unfold fireEntry
  split <;> simp
@[simp] theorem fireDue_pending (limit n : Nat) (s : State) : (s.fireDue limit n).pending = s.pending := by
  induction n generalizing s with
  | zero => rfl
  | succ n ih =>
    unfold fireDue
    split
    · rfl
    · simp [ih]
@[simp] theorem noteAbsences_pending (s : State) : s.noteAbsences.pending = s.pending := by simp [noteAbsences]
@[simp] theorem sendReport_pending (s : State) : s.sendReport.pending = s.pending := by simp [sendReport]
@[simp] theorem takeVerdict_pending (s : State) (matched absent lost : Bool) :
    (s.takeVerdict matched absent lost).pending = s.pending := by simp [takeVerdict]
@[simp] theorem sendVerdict_pending (s : State) (flags : Nat) :
    (s.sendVerdict flags).pending = s.pending := by simp [sendVerdict]
@[simp] theorem clearUnitCounts_pending (s : State) : s.clearUnitCounts.pending = s.pending := rfl
@[simp] theorem capture_pending (s : State) : s.capture.pending = s.pending := by simp [capture]
@[simp] theorem tickEvents_pending (s : State) : s.tickEvents.pending = s.pending := by simp [tickEvents]
@[simp] theorem fireSchedule_pending (s : State) : s.fireSchedule.pending = s.pending := by simp [fireSchedule]
@[simp] theorem takeReport_pending (s : State) (child : Nat) (low : Word) (dig : Bytes) (flags : Byte) :
    (s.takeReport child low dig flags).pending = s.pending := by simp [takeReport]
@[simp] theorem decideCensus_pending (s : State) : s.decideCensus.pending = s.pending := by simp [decideCensus]
@[simp] theorem hearVerdict_pending (s : State) (low : Word) (flags : Byte) :
    (s.hearVerdict low flags).pending = s.pending := by simp [hearVerdict]
@[simp] theorem adopt_pending (s : State) (baseSeq : Nat) (baseHead : Bytes) (entries : List JournalEntry) (heads : List Bytes) :
    (s.adopt baseSeq baseHead entries heads).pending = s.pending := rfl
@[simp] theorem adoptJournal_pending (s : State) (baseSeq : Nat) (baseHead : Bytes) (entries : List JournalEntry) (second : Nat) (secondHead : Bytes) :
    (s.adoptJournal baseSeq baseHead entries second secondHead).pending = s.pending := by
  unfold adoptJournal
  split <;> simp

/-! ### Machine/Fetch.lean -/

@[simp] theorem failFetch_pending (s : State) (f : Fetch) : (s.failFetch f).pending = s.pending := by simp [failFetch]
@[simp] theorem imageObjects_pending (s : State) (f : Fetch) (n : Nat) :
    (s.imageObjects f n).1.pending = s.pending := by
  unfold imageObjects
  dsimp only
  rw [foldl_keeps (fun a : State × Nat × Code => a.1.pending), loamObject_pending]
  intro a t
  split <;> simp
@[simp] theorem finishFetch_pending (s : State) (f : Fetch) (n : Nat) :
    (s.finishFetch f n).pending = s.pending := by simp [finishFetch]
@[simp] theorem advanceFetch_pending (s : State) (f : Fetch) : (s.advanceFetch f).pending = s.pending := by
  unfold advanceFetch
  split <;> simp
@[simp] theorem takeData_pending (s : State) (port : Nat) (d : Bytes) : (s.takeData port d).pending = s.pending := by
  unfold takeData
  split <;> simp
@[simp] theorem endWithError_pending (s : State) (port : Nat) (d : Bytes) :
    (s.endWithError port d).pending = s.pending := by
  unfold endWithError
  split <;> simp
@[simp] theorem getTimeout_pending (s : State) (offset : Nat) : (s.getTimeout offset).pending = s.pending := by
  unfold getTimeout
  (repeat' split) <;> simp

end Sys2Proof.Machine.State

namespace Sys2Proof.Proofs
open Sys2Proof.Machine

/-- Every arm of `exec` answers a next state made by operations that keep the queue; the arms named first choose among
their operations by a match of their own. -/
theorem exec_next_pending (c : Instr) (s : State) : ∃ t, exec c s = .next t ∧ t.pending = s.pending := by
  cases c
  case bayPlan src => cases src <;> exact ⟨_, rfl, by simp⟩
  case closeRecord port session => exact ⟨_, rfl, State.onSealed_pending s _ _ _ _ fun t v r => by simp⟩
  case movementStart | patrolScrub | cxlResponse | ethernetFrame | confirmTimeout | sessionIdleTimeout
      | outputRetainTimeout | auditResult | writeFootingDone =>
    exact ⟨_, rfl, by (repeat' split) <;> simp⟩
  all_goals exact ⟨_, rfl, by simp⟩

/-- Settles O5, from the frame lemma of each operation. -/
theorem everyCommandKeepsTheQueue : Obligations.EveryCommandKeepsTheQueue := exec_next_pending

end Sys2Proof.Proofs
end
section
/-!
PROOF. The bond validator (R105–R108): what reading an object leaves of the validator and its counters, what the end of a
check records, and VALIDATE and VALIDATE_COMPLETE from them.
-/
namespace Sys2Proof.Machine.State

/-! ### What a read of an object leaves of the validator -/

/-- The part of the state the end of a validation starts from: the validator, whether counters stand still, and the
validator's two counters. -/
def checkView (s : State) : Validator × Bool × Word × Word :=
  (s.validator, s.rel.fatal, s.stat bondCheckCount, s.stat bondCheckFail)

theorem checkView_ite (c : Prop) [Decidable c] (s t : State) :
    (if c then s else t).checkView = if c then s.checkView else t.checkView := apply_ite checkView c s t

/-- Counting elsewhere leaves the validator's counters. -/
theorem checkView_count (s : State) (a n : Nat) (hc : a ≠ bondCheckCount) (hf : a ≠ bondCheckFail) :
    (s.count a n).checkView = s.checkView := by
  simp only [checkView, count_validator, count_rel, stat_count_other s a _ n hc.symm, stat_count_other s a _ n hf.symm]

/-- The counters a read of an object counts lie above the validator's. -/
theorem checkView_count_of_lt (s : State) (a n : Nat) (h : 0x2044 < a) : (s.count a n).checkView = s.checkView :=
  checkView_count s a n (by show a ≠ 0x2040; omega) (by show a ≠ 0x2044; omega)

theorem checkView_tier (s : State) (m : TierMover) : { s with tier := m }.checkView = s.checkView := rfl
@[simp] theorem checkView_setUnit (s : State) (u : Nat) (v : MemUnit) : (s.setUnit u v).checkView = s.checkView := rfl
@[simp] theorem checkView_logEntry (s : State) (cls source : Nat) (code : Code) (arg : Word) :
    (s.logEntry cls source code arg).checkView = s.checkView := rfl
@[simp] theorem checkView_alarm (s : State) (bit : Nat) (code : Code) (arg : Word) :
    (s.alarm bit code arg).checkView = s.checkView := rfl
@[simp] theorem checkView_loseOnUnit (s : State) (u : Nat) : (s.loseOnUnit u).checkView = s.checkView := rfl
@[simp] theorem checkView_releaseClay (s : State) (b n : Nat) : (s.releaseClay b n).checkView = s.checkView := rfl

@[simp] theorem checkView_recordErr (s : State) (source place : Nat) (patrol : Bool) (addr : Nat) (obj : Option Nat) :
    (s.recordErr source place patrol addr obj).checkView = s.checkView :=
  checkView_tier s _

@[simp] theorem checkView_releaseSectors (s : State) (t : Tier) (b n : Nat) :
    (s.releaseSectors t b n).checkView = s.checkView := by
  cases t <;> rfl

@[simp] theorem checkView_count_errCount (s : State) (cls n : Nat) : (s.count (errCount cls) n).checkView = s.checkView :=
  checkView_count_of_lt s _ n (by show 0x2044 < 0xC030 + cls * 4; omega)

@[simp] theorem checkView_error (s : State) (cls source : Nat) (code : Code) (arg : Word) :
    (s.error cls source code arg).checkView = s.checkView := by
  rw [error, checkView_logEntry, checkView_count_errCount]

@[simp] theorem checkView_corrected (s : State) (a n : Nat) (h : 0x2044 < a) :
    (s.corrected a n).checkView = s.checkView := by
  rw [corrected, checkView_count_errCount, checkView_count_of_lt s a n h]

@[simp] theorem checkView_partner (s : State) (a source : Nat) (code : Code) (arg : Word) (h : 0x2044 < a) :
    (s.partner a source code arg).checkView = s.checkView := by
  have hcount : ((s.count a 1).count (errCount 1) 1).checkView = s.checkView := by
    rw [checkView_count_errCount, checkView_count_of_lt s a 1 h]
  unfold partner
  dsimp only
  split
  · exact hcount
  · exact hcount

@[simp] theorem checkView_degrade (s : State) (flag source : Nat) (code : Code) (arg : Nat) :
    (s.degrade flag source code arg).checkView = s.checkView := by
  rw [degrade, checkView_alarm, checkView_error]
  rfl

@[simp] theorem checkView_noteGranule (s : State) (n granule : Nat) : (s.noteGranule n granule).checkView = s.checkView := by
  unfold noteGranule
  extract_lets k e mover t
  split
  · exact checkView_degrade t _ _ _ _
  · rfl

/-- A movement that ends with its unit switched off counts nothing (R264). -/
theorem countDone_unitDown (s : State) (c : TierCmd) (o : Option Obj) : s.countDone c o eUnitDown = s := by
  simp [countDone]

@[simp] theorem checkView_endCmd_unitDown (s : State) (c : TierCmd) (o : Option Obj) :
    (s.endCmd c o eUnitDown).checkView = s.checkView := by
  simp only [endCmd, countDone_unitDown]
  split
  · rfl
  · split
    · rfl
    · split <;> rfl

@[simp] theorem checkView_abortCmd_unitDown (s : State) (c : TierCmd) : (s.abortCmd c eUnitDown).checkView = s.checkView := by
  rw [abortCmd, checkView_endCmd_unitDown, checkView_ite, checkView_releaseClay, checkView_releaseSectors, ite_self]

@[simp] theorem checkView_mapOut (s : State) (u cause : Nat) : (s.mapOut u cause).checkView = s.checkView := by
  unfold mapOut
  extract_lets v down t writing w ckpt
  split
  · rfl
  · have ht : t.checkView = s.checkView := checkView_degrade ..
    have hw : w.checkView = s.checkView :=
      (foldl_keeps checkView _ (fun x c => checkView_abortCmd_unitDown x c) _ _).trans ht
    rw [checkView_loseOnUnit, checkView_ite]
    split <;> exact hw

/-- The counters of a Keystone window lie above the validator's. -/
theorem bondCheckFail_lt_kdBase (d : Nat) : 0x2044 < kdBase d := by
  unfold kdBase keystoneBase
  split <;> omega

@[simp] theorem checkView_badSector (s : State) (u : Nat) (parity : Bool) : (s.badSector u parity).checkView = s.checkView := by
  have hkd := bondCheckFail_lt_kdBase u
  have hu : 0x2044 < chUncorr u := by unfold chUncorr; omega
  have ha : 0x2044 < chAddrPar u := by unfold chAddrPar; omega
  unfold badSector
  dsimp only
  split
  · rfl
  · simp only [checkView_ite, checkView_mapOut, checkView_partner _ _ _ _ _ hu, checkView_partner _ _ _ _ _ ha,
      checkView_count_of_lt _ _ _ hu, checkView_setUnit, ite_self]

@[simp] theorem checkView_badTile (s : State) (id u sector : Nat) : (s.badTile id u sector).checkView = s.checkView := by
  rw [badTile, checkView_recordErr, checkView_count_of_lt _ _ _ (by decide)]

@[simp] theorem checkView_badWord (s : State) (n unit : Nat) (patrol : Bool) (obj : Option Nat) :
    (s.badWord n unit patrol obj).checkView = s.checkView := by
  rw [badWord, checkView_noteGranule, checkView_recordErr, checkView_count_of_lt _ _ _ (by decide)]

@[simp] theorem checkView_fetchClay (s : State) (id : Nat) (o : Obj) (k : Nat) (r : TileRead) :
    (s.fetchClay id o k r).1.checkView = s.checkView :=
  (foldl_keeps checkView _ (fun u x => checkView_badWord u _ _ _ _) _ _).trans
    (checkView_corrected _ _ _ (by decide))

@[simp] theorem checkView_fetchSectors (s : State) (id : Nat) (o : Obj) (k : Nat) (r : TileRead) :
    (s.fetchSectors id o k r).1.checkView = s.checkView := by
  have hcorr (u n : Nat) : (if u < 32 then s.corrected (chCorr u) n else s).checkView = s.checkView := by
    have hkd := bondCheckFail_lt_kdBase u
    rw [checkView_ite, checkView_corrected _ _ _ (by unfold chCorr; omega), ite_self]
  have hbad (u : Nat) (l : List (Nat × Bool)) (t : State) :
      (l.foldl (fun (t : State) y => t.badSector u y.2) t).checkView = t.checkView :=
    foldl_keeps checkView _ (fun t y => checkView_badSector t _ _) l t
  unfold fetchSectors
  dsimp only
  split
  · exact checkView_badTile ..
  · split
    · rw [hbad, checkView_badTile, hcorr]
    · split
      · exact hcorr _ _
      · rw [checkView_badTile, checkView_count_of_lt _ _ _ (by decide), hcorr]

@[simp] theorem checkView_fetchTile (s : State) (id : Nat) (o : Obj) (k : Nat) (r : TileRead) :
    (s.fetchTile id o k r).1.checkView = s.checkView := by
  unfold fetchTile
  split
  · exact checkView_fetchClay ..
  · exact checkView_fetchSectors ..

@[simp] theorem checkView_fetchTiles (s : State) (id : Nat) (o : Obj) (r : ObjRead) (k n : Nat) :
    (s.fetchTiles id o r k n).1.checkView = s.checkView := by
  induction n generalizing s k with
  | zero => rfl
  | succ n ih =>
    unfold fetchTiles
    dsimp only
    split
    · exact checkView_fetchTile ..
    · rw [ih, checkView_fetchTile]

/-- A check reads its object and leaves the validator and its counters as they were. -/
@[simp] theorem checkView_checkObj (s : State) (id : Nat) (read : ObjRead) : (s.checkObj id read).1.checkView = s.checkView := by
  unfold checkObj
  split
  · rfl
  · dsimp only
    split <;> exact checkView_fetchTiles ..

/-! ### A read of Clay that showed nothing -/

/-- The same state, counters told apart only by how the table of live counters is written. -/
def SameReadings (s t : State) : Prop := t = { s with live := t.live } ∧ ∀ a, t.stat a = s.stat a

theorem SameReadings.trans {s t u : State} (hst : SameReadings s t) (htu : SameReadings t u) : SameReadings s u := by
  obtain ⟨hframe, hstat⟩ := hst
  obtain ⟨hframe', hstat'⟩ := htu
  refine ⟨?_, fun a => (hstat' a).trans (hstat a)⟩
  rw [hframe', hframe]

theorem sameReadings_count_zero (s : State) (a : Nat) : SameReadings s (s.count a 0) := by
  refine ⟨count_frame s a 0, fun b => ?_⟩
  by_cases hb : b = a
  · subst hb
    by_cases hf : s.rel.fatal = true
    · rw [count_fatal s b 0 hf]
    · have hlt := (s.stat b).isLt
      rw [stat_count s b 0 (by simpa using hf), Nat.add_zero, Nat.min_eq_left (by omega), BitVec.ofNat_toNat,
        BitVec.setWidth_eq]
  · exact stat_count_other s a b 0 hb

/-- A tile of Clay whose read met no error changes no counter (R260). -/
theorem sameReadings_fetchClay (s : State) (id : Nat) (o : Obj) (k : Nat) : SameReadings s (s.fetchClay id o k []).1 :=
  (sameReadings_count_zero s memCorr).trans (sameReadings_count_zero (s.count memCorr 0) (errCount 0))

theorem sameReadings_fetchTiles (s : State) (id : Nat) (o : Obj) (h : o.residence = .clay) (k n : Nat) :
    SameReadings s (s.fetchTiles id o [] k n).1 := by
  induction n generalizing s k with
  | zero => exact ⟨rfl, fun _ => rfl⟩
  | succ n ih =>
    have htile : SameReadings s (s.fetchTile id o k (tileRead [] k)).1 := by
      rw [fetchTile, if_pos h]
      exact sameReadings_fetchClay s id o k
    unfold fetchTiles
    dsimp only
    split
    · exact htile
    · exact htile.trans (ih _ _)

theorem sameReadings_checkObj (s : State) (id : Nat) (o : Obj) (ho : s.obj id = some o) (h : o.residence = .clay) :
    SameReadings s (s.checkObj id []).1 := by
  unfold checkObj
  split
  · exact ⟨rfl, fun _ => rfl⟩
  · next u hu =>
    have huo : o = u := by
      rw [readable, ho, Option.filter_eq_some_iff] at hu
      exact Option.some.inj hu.1
    subst huo
    dsimp only
    split <;> exact sameReadings_fetchTiles s id o h ..

/-! ### The end of a check -/

/-- The validator's registers once a check ended with r (R105, R108). -/
def checked (v : Validator) (r : CheckResult) : Validator :=
  { v with
    running := none, disturbed := false, lastCode := r.code, offset := r.offset
    section_ := r.section_.getD 0, sectionValid := r.section_.isSome
    digest := if r.code = sOk then r.digest else v.digest }

/-- The state once a check that ended with r stands in the registers and is counted. -/
def countedCheck (s : State) (r : CheckResult) : State :=
  { s with validator := checked s.validator r }.count bondCheckCount 1

@[simp] theorem countedCheck_validator (s : State) (r : CheckResult) :
    (s.countedCheck r).validator = checked s.validator r := count_validator ..
@[simp] theorem countedCheck_obj (s : State) (r : CheckResult) (x : Nat) : (s.countedCheck r).obj x = s.obj x :=
  congrArg (aget none · x) (count_objs ..)
@[simp] theorem countedCheck_rel (s : State) (r : CheckResult) : (s.countedCheck r).rel = s.rel := count_rel ..

theorem countedCheck_frame (s : State) (r : CheckResult) :
    s.countedCheck r = { s with validator := checked s.validator r, live := (s.countedCheck r).live } := count_frame ..

theorem countedCheck_stat_other (s : State) (r : CheckResult) (a : Nat) (h : a ≠ bondCheckCount) :
    (s.countedCheck r).stat a = s.stat a := stat_count_other _ _ _ _ h

/-- A counter counted once outside the fatal state reads one more, or stays full (R53). -/
theorem stat_count_one_toNat (s : State) (a : Nat) (h : s.rel.fatal = false) :
    ((s.count a 1).stat a).toNat = min ((s.stat a).toNat + 1) 0xFFFFFFFF := by
  rw [stat_count s a 1 h, BitVec.toNat_ofNat]
  omega

theorem countedCheck_stat (s : State) (r : CheckResult) (h : s.rel.fatal = false) :
    ((s.countedCheck r).stat bondCheckCount).toNat = min ((s.stat bondCheckCount).toNat + 1) 0xFFFFFFFF :=
  stat_count_one_toNat _ _ h

theorem recordCheck_of_fail (s : State) (id : Nat) (r : CheckResult) (h : r.code ≠ sOk) :
    s.recordCheck id r = (s.countedCheck r).count bondCheckFail 1 := if_pos h

theorem recordCheck_of_ok (s : State) (id : Nat) (r : CheckResult) (o : Obj) (h : r.code = sOk) (ho : s.obj id = some o) :
    s.recordCheck id r = (s.countedCheck r).setObj id (some { o with validated := some r.digest }) := by
  have hobj : (s.countedCheck r).obj id = some o := by rw [countedCheck_obj, ho]
  refine (if_neg (not_not_intro h)).trans ?_
  split
  · next u hu => exact Option.some.inj (hobj.symm.trans hu) ▸ rfl
  · next hu => exact nomatch hobj.symm.trans hu

theorem recordCheck_of_ok_absent (s : State) (id : Nat) (r : CheckResult) (h : r.code = sOk) (ho : s.obj id = none) :
    s.recordCheck id r = s.countedCheck r := by
  have hobj : (s.countedCheck r).obj id = none := by rw [countedCheck_obj, ho]
  refine (if_neg (not_not_intro h)).trans ?_
  split
  · next u hu => exact nomatch hobj.symm.trans hu
  · rfl

/-- What the end of a check records, whatever its result: the validator's registers, one check counted, the other objects
untouched. -/
theorem recordCheck_spec (s : State) (id : Nat) (r : CheckResult) (hf : s.rel.fatal = false) :
    (s.recordCheck id r).validator = checked s.validator r
    ∧ ((s.recordCheck id r).stat bondCheckCount).toNat = min ((s.stat bondCheckCount).toNat + 1) 0xFFFFFFFF
    ∧ (∀ x, x ≠ id → (s.recordCheck id r).obj x = s.obj x)
    ∧ s.recordCheck id r = { s with validator := (s.recordCheck id r).validator, objs := (s.recordCheck id r).objs,
                                    live := (s.recordCheck id r).live } := by
  have hstat := countedCheck_stat s r hf
  by_cases h : r.code = sOk
  · cases ho : s.obj id with
    | none =>
      rw [recordCheck_of_ok_absent s id r h ho]
      exact ⟨countedCheck_validator s r, hstat, fun x _ => countedCheck_obj s r x, by rw [countedCheck_frame]⟩
    | some o =>
      rw [recordCheck_of_ok s id r o h ho]
      refine ⟨countedCheck_validator s r, hstat, fun x hx => ?_, by rw [setObj, countedCheck_frame]⟩
      rw [obj_setObj_other _ _ _ _ hx, countedCheck_obj]
  · rw [recordCheck_of_fail s id r h]
    refine ⟨?_, ?_, fun x _ => ?_, ?_⟩
    · rw [count_validator, countedCheck_validator]
    · rw [stat_count_other _ _ _ _ (by decide), hstat]
    · rw [obj, count_objs]
      exact countedCheck_obj s r x
    · rw [count_frame, countedCheck_frame]

/-- A check that fails is counted as failed, and the object keeps the digest the registers hold of it (R108). -/
theorem recordCheck_of_fail_spec (s : State) (id : Nat) (r : CheckResult) (hf : s.rel.fatal = false) (h : r.code ≠ sOk) :
    (s.recordCheck id r).validator.digest = s.validator.digest
    ∧ ((s.recordCheck id r).stat bondCheckFail).toNat = min ((s.stat bondCheckFail).toNat + 1) 0xFFFFFFFF := by
  rw [recordCheck_of_fail s id r h]
  constructor
  · rw [count_validator, countedCheck_validator]
    exact if_neg h
  · rw [stat_count_one_toNat _ _ (by rw [countedCheck_rel]; exact hf), countedCheck_stat_other _ _ _ (by decide)]

/-! ### Pins -/

theorem pinObj_of_some (s : State) (id : Nat) (o : Obj) (h : s.obj id = some o) :
    s.pinObj id = s.setObj id (some { o with devPins := o.devPins + 1 }) := by rw [pinObj, h]

theorem unpinObj_of_some (s : State) (id : Nat) (o : Obj) (h : s.obj id = some o) :
    s.unpinObj id = s.setObj id (some { o with devPins := o.devPins - 1 }) := by rw [unpinObj, h]

/-- Releasing a pin changes its object alone (R254). -/
theorem unpinObj_frame (s : State) (id : Nat) : s.unpinObj id = { s with objs := (s.unpinObj id).objs } := by
  unfold unpinObj
  split <;> rfl

@[simp] theorem checkView_unpinObj (s : State) (id : Nat) : (s.unpinObj id).checkView = s.checkView := by
  rw [unpinObj_frame]
  rfl

theorem obj_unpinObj_other (s : State) (id x : Nat) (h : x ≠ id) : (s.unpinObj id).obj x = s.obj x := by
  unfold unpinObj
  split
  · exact obj_setObj_other _ _ _ _ h
  · rfl

/-! ### VALIDATE -/

theorem not_fatal_of_awake {s : State} (h : s.awake = true) : s.rel.fatal = false := by
  rw [awake, Bool.and_eq_true, Bool.not_eq_true'] at h
  exact h.2

theorem awake_of_coreUp {s : State} {core : Nat} (h : s.coreUp core = true) : s.awake = true := by
  simp only [coreUp, Bool.and_eq_true] at h
  exact h.1.1.1.1

theorem validateCtrl_reserved (s : State) (reserved : Nat) (h : reserved ≠ 0) :
    s.validateCtrl 1 reserved = { s with validator := { s.validator with lastCode := eBadField } } :=
  if_pos (Or.inl h)

theorem validateCtrl_busy (s : State) (h : s.validator.running ≠ none) :
    s.validateCtrl 1 0 = { s with validator := { s.validator with refused := true } } := by
  have hbusy : s.validator.running.isSome = true := Option.isSome_iff_ne_none.mpr h
  rw [validateCtrl, if_neg (by decide), if_pos hbusy]

theorem validateCtrl_absent (s : State) (h : s.validator.running = none) (ho : s.obj s.validator.arg.toNat = none) :
    s.validateCtrl 1 0 = s.recordCheck s.validator.arg.toNat { code := eNoSuchObject } := by
  rw [validateCtrl, if_neg (by decide), if_neg (by rw [h]; decide), ho]

theorem validateCtrl_lost (s : State) (o : Obj) (h : s.validator.running = none)
    (ho : s.obj s.validator.arg.toNat = some o) (hl : o.lost = true) :
    s.validateCtrl 1 0 = { s with validator := { s.validator with lastCode := eObjLost } } := by
  rw [validateCtrl, if_neg (by decide), if_neg (by rw [h]; decide), ho]
  exact if_pos hl

/-- An object that is there is pinned, and its check runs. -/
theorem validateCtrl_accepted (s : State) (o : Obj) (h : s.validator.running = none)
    (ho : s.obj s.validator.arg.toNat = some o) (hl : o.lost = false) (hc : o.creating = false) :
    s.validateCtrl 1 0 = { s with validator := { s.validator with running := some s.validator.arg.toNat, disturbed := false } }.setObj
      s.validator.arg.toNat (some { o with devPins := o.devPins + 1 }) := by
  rw [validateCtrl, if_neg (by decide), if_neg (by rw [h]; decide), ho]
  exact (if_neg (Bool.not_eq_true _ ▸ hl)).trans ((if_neg (Bool.not_eq_true _ ▸ hc)).trans (pinObj_of_some _ _ o ho))

/-! ### VALIDATE_COMPLETE -/

/-- What a check ends with: a write that landed during it fails it (R107, R108). -/
def validateEnd (s : State) (id : Nat) (read : ObjRead) : CheckResult :=
  if s.validator.disturbed then { code := eBondDigest } else (s.checkObj id read).2

theorem validateDone_idle (s : State) (read : ObjRead) (h : s.validator.running = none) : s.validateDone read = s := by
  rw [validateDone, h]

theorem validateDone_held (s : State) (read : ObjRead) (id : Nat) (h : s.validator.running = some id)
    (hh : s.heldObj id = true) : s.validateDone read = s := by
  rw [validateDone, h]
  exact if_pos hh

theorem validateDone_ends (s : State) (read : ObjRead) (id : Nat) (h : s.validator.running = some id)
    (hh : s.heldObj id = false) :
    s.validateDone read = ((s.checkObj id read).1.unpinObj id).recordCheck id (s.validateEnd id read) := by
  rw [validateDone, h]
  exact if_neg (by rw [hh]; decide)

theorem code_validateEnd (s : State) (id : Nat) (read : ObjRead) :
    (s.validateEnd id read).code = if s.validator.disturbed then eBondDigest else (s.checkObj id read).2.code := by
  unfold validateEnd
  split <;> rfl

/-- Only a check no write disturbed can succeed. -/
theorem validateEnd_of_ok (s : State) (id : Nat) (read : ObjRead) (h : (s.validateEnd id read).code = sOk) :
    s.validateEnd id read = (s.checkObj id read).2 := by
  unfold validateEnd at h ⊢
  split at h
  · exact absurd h (by decide)
  · next hd => exact if_neg hd

/-- The state a check's end is recorded in: its object read and its pin released. -/
theorem checkView_read_unpin (s : State) (id : Nat) (read : ObjRead) :
    ((s.checkObj id read).1.unpinObj id).checkView = s.checkView := by
  rw [checkView_unpinObj, checkView_checkObj]

end Sys2Proof.Machine.State

namespace Sys2Proof.Proofs
open Sys2Proof.Machine Sys2Proof.Machine.State

/-- What VALIDATE leaves, refused, answered at once or accepted. -/
theorem validate_spec (s : State) (reserved : Nat) (hf : s.rel.fatal = false) :
    let v := s.validator
    let id := v.arg.toNat
    let t := s.validateCtrl 1 reserved
    (reserved ≠ 0 → t = { s with validator := { v with lastCode := eBadField } })
    ∧ (reserved = 0 → v.running ≠ none → t = { s with validator := { v with refused := true } })
    ∧ (reserved = 0 → v.running = none → s.obj id = none → t.validator.lastCode = eNoSuchObject ∧ t.validator.running = none
      ∧ t.validator.digest = v.digest ∧ t.validator.sectionValid = false ∧ t = { s with validator := t.validator, live := t.live }
      ∧ (t.stat bondCheckCount).toNat = min ((s.stat bondCheckCount).toNat + 1) 0xFFFFFFFF
      ∧ (t.stat bondCheckFail).toNat = min ((s.stat bondCheckFail).toNat + 1) 0xFFFFFFFF)
    ∧ (∀ o, reserved = 0 → v.running = none → s.obj id = some o → o.lost = true →
      t = { s with validator := { v with lastCode := eObjLost } })
    ∧ (∀ o, reserved = 0 → v.running = none → s.obj id = some o → o.lost = false → o.creating = false →
      t.validator = { v with running := some id, disturbed := false } ∧ t.obj id = some { o with devPins := o.devPins + 1 }
      ∧ t = { s with validator := t.validator, objs := t.objs }) := by
  intro v id t
  refine ⟨validateCtrl_reserved s reserved, ?_, ?_, ?_, ?_⟩
  · rintro rfl
    exact validateCtrl_busy s
  · rintro rfl hr ho
    have ht : t = s.recordCheck id { code := eNoSuchObject } := validateCtrl_absent s hr ho
    obtain ⟨hv, hcount, -, -⟩ := recordCheck_spec s id { code := eNoSuchObject } hf
    obtain ⟨hdig, hfail⟩ := recordCheck_of_fail_spec s id { code := eNoSuchObject } hf (by decide)
    rw [ht]
    refine ⟨by rw [hv]; rfl, by rw [hv]; rfl, hdig, by rw [hv]; rfl, ?_, hcount, hfail⟩
    rw [recordCheck_of_fail s id _ (by decide), count_frame, countedCheck_frame]
  · rintro o rfl
    exact validateCtrl_lost s o
  · rintro o rfl hr ho hl hc
    have ht := validateCtrl_accepted s o hr ho hl hc
    rw [show t = _ from ht]
    exact ⟨rfl, obj_setObj .., rfl⟩

/-- Settles O36, by the cases of validateCtrl and validateDone; a check's read leaves the validator and its counters. -/
theorem validatorTakesOneObject : Obligations.ValidatorTakesOneObject := by
  unfold Obligations.ValidatorTakesOneObject
  constructor
  · intro s agent reserved hup v id
    exact ⟨s.validateCtrl 1 reserved, by rw [exec, execValidate, if_pos hup],
      validate_spec s reserved (not_fatal_of_awake (awake_of_coreUp hup))⟩
  · intro s read hup
    refine ⟨s.validateDone read, by rw [exec, execValidateComplete, if_pos hup], validateDone_idle s read,
      validateDone_held s read, ?_⟩
    intro id hr hh r code
    rw [validateDone_ends s read id hr hh]
    have hview := checkView_read_unpin s id read
    simp only [checkView, Prod.mk.injEq] at hview
    obtain ⟨hv, hrel, hc, hfc⟩ := hview
    have hf := hrel.trans (not_fatal_of_awake hup)
    have hcode : (s.validateEnd id read).code = code := code_validateEnd s id read
    obtain ⟨hval, hcount, hother, hframe⟩ := recordCheck_spec _ id (s.validateEnd id read) hf
    refine ⟨by rw [hval]; rfl, by rw [hval]; rfl, by rw [hval]; exact hcode, by rw [hcount, hc], ?_, ?_, ?_, ?_, ?_⟩
    · intro hbad
      obtain ⟨hdig, hfail⟩ := recordCheck_of_fail_spec _ id (s.validateEnd id read) hf (by rwa [hcode])
      exact ⟨by rw [hdig, hv], by rw [hfail, hfc]⟩
    · intro o hok ho
      have hres := validateEnd_of_ok s id read (hcode.trans hok)
      have hobj : ((s.checkObj id read).1.unpinObj id).obj id = some { o with devPins := o.devPins - 1 } := by
        rw [unpinObj_of_some _ id o ho, obj_setObj]
      refine ⟨{ o with devPins := o.devPins - 1, validated := some r.2.digest }, ?_, rfl, ?_⟩
      · rw [recordCheck_of_ok _ id _ _ (hcode.trans hok) hobj, obj_setObj, hres]
      · rw [hval]
        exact (if_pos (hcode.trans hok)).trans (congrArg _ hres)
    · intro x hx
      rw [hother x hx, obj_unpinObj_other _ id x hx]
    · rw [hframe, unpinObj_frame]
    · intro o ho hclay hread
      subst hread
      exact sameReadings_checkObj s id o ho hclay

end Sys2Proof.Proofs
end
section
/-!
PROOF. The management port's doors (R459–R461): what an arriving command meets before it is served, the connections, and
from them the statement about every management command.
-/
namespace Sys2Proof.Machine.State

/-! ### Answers on an open connection -/

/-- A connection of this identifier is open. -/
def connOpen (s : State) (conn : Nat) : Bool := s.mgmt.conns.any fun c => c.id == conn

theorem connOpen_iff (s : State) (conn : Nat) : s.connOpen conn = true ↔ ∃ c ∈ s.mgmt.conns, c.id = conn := by
  simp only [connOpen, List.any_eq_true, beq_iff_eq]

/-- An error on an open connection is counted and answered with the error body (R460, R461). -/
theorem answerTo_error (s : State) (op : Nat) (m : Cirid) (code : Code) (offset : Nat) (body : Bytes)
    (hc : isError code = true) (ho : s.connOpen m.conn = true) :
    s.answerTo op m code offset body = (s.count mgmtRefused 1).emit (.cirid m.conn (ciridMsg op 1 m.tag code (errorBody offset 0))) := by
  have hopen : ((s.count mgmtRefused 1).mgmt.conns.any fun c => c.id == m.conn) = true := by
    rw [count_mgmt]
    exact ho
  rw [answerTo, answerOn]
  simp only [hc, if_true]
  exact if_pos hopen

/-! ### A command as it arrives -/

theorem noted_mgmt (s : State) (m : Cirid) :
    (s.noted m).mgmt = { s.mgmt with conns := s.mgmt.conns.map fun x =>
      if x.id = m.conn then { x with lastTick := s.tb.up } else x } := count_mgmt ..

@[simp] theorem noted_rel (s : State) (m : Cirid) : (s.noted m).rel = s.rel := count_rel ..
@[simp] theorem noted_boot (s : State) (m : Cirid) : (s.noted m).boot = s.boot := count_boot ..
@[simp] theorem noted_footing (s : State) (m : Cirid) : (s.noted m).footing = s.footing := count_footing ..
@[simp] theorem noted_cs (s : State) (m : Cirid) : (s.noted m).cs = s.cs := count_cs ..
@[simp] theorem noted_out (s : State) (m : Cirid) : (s.noted m).out = s.out := count_out ..

/-- Noting a command changes the port's state and the counter of commands alone. -/
theorem noted_frame (s : State) (m : Cirid) : s.noted m = { s with mgmt := (s.noted m).mgmt, live := (s.noted m).live } := by
  rw [noted_mgmt]
  exact count_frame ..

/-- In the fatal state the counter of commands stands still (R474). -/
theorem noted_frame_fatal (s : State) (m : Cirid) (h : s.rel.fatal = true) : s.noted m = { s with mgmt := (s.noted m).mgmt } := by
  rw [noted, count_fatal _ _ _ (by exact h)]

theorem connOpen_noted (s : State) (m : Cirid) (conn : Nat) : (s.noted m).connOpen conn = s.connOpen conn := by
  rw [connOpen, connOpen, noted_mgmt, List.any_map]
  congr 1
  funext x
  simp only [Function.comp_apply]
  split <;> rfl

theorem mustWait_noted (s : State) (op : Nat) (m n : Cirid) : (s.noted n).mustWait op m = s.mustWait op m := by
  unfold mustWait
  rw [noted_mgmt, noted_cs]

/-- A command is held behind another: one of its connection waits, or it must wait itself. -/
def behind (s : State) (op : Nat) (m : Cirid) : Bool :=
  s.mgmt.waiting.any (fun x => x.2.conn == m.conn) || s.mustWait op m

theorem behind_iff (s : State) (op : Nat) (m : Cirid) :
    s.behind op m = true ↔ s.mustWait op m = true ∨ ∃ y ∈ s.mgmt.waiting, y.2.conn = m.conn := by
  simp only [behind, Bool.or_eq_true, List.any_eq_true, beq_iff_eq]
  exact or_comm

theorem behind_noted (s : State) (op : Nat) (m n : Cirid) : (s.noted n).behind op m = s.behind op m := by
  rw [behind, mustWait_noted, noted_mgmt]
  rfl

/-- No port, or no connection: nothing happens. -/
theorem onCirid_unreached (s : State) (row : Nat) (m : Cirid)
    (h : s.powered = false ∨ s.boot.mgmtOpen = false ∨ ∀ c ∈ s.mgmt.conns, c.id ≠ m.conn) : s.onCirid row m = s := by
  unfold onCirid
  dsimp only
  split
  · rfl
  · next hport =>
    have hnone : s.mgmt.conns.find? (fun c => c.id == m.conn) = none := by
      rw [List.find?_eq_none]
      intro c hc
      rcases h with h | h | h
      · exact absurd (Or.inl (by rw [h]; decide)) hport
      · exact absurd (Or.inr (by rw [h]; decide)) hport
      · simpa using h c hc
    rw [hnone]

/-- A command on an open connection (R460, R461): one too long closes it, one behind another waits, and any other is served
or answered that it is not offered. -/
theorem onCirid_reached (s : State) (row : Nat) (m : Cirid) (hp : s.powered = true) (hm : s.boot.mgmtOpen = true)
    (h : s.connOpen m.conn = true) :
    ∃ slot, s.onCirid row m =
      if 1048576 < m.body.length then
        { s with mgmt := { s.mgmt with conns := s.mgmt.conns.filter fun x => x.id ≠ m.conn } }.emit (.tcpClosed m.conn)
      else if (s.noted m).behind (opOf row m) m then
        { s.noted m with mgmt := { (s.noted m).mgmt with waiting := (s.noted m).mgmt.waiting ++ [(opOf row m, m)] } }
      else (s.noted m).serveOffered slot (opOf row m) m := by
  have hport : ¬ (¬ s.powered ∨ ¬ s.boot.mgmtOpen) := by rw [hp, hm]; decide
  obtain ⟨c, hc⟩ := Option.isSome_iff_exists.mp (List.find?_isSome.mpr ((connOpen_iff s m.conn).mp h |>.imp
    fun c hc => ⟨hc.1, beq_iff_eq.mpr hc.2⟩))
  refine ⟨c.slot, ?_⟩
  unfold onCirid
  dsimp only
  rw [if_neg hport, hc]
  rfl

/-! ### Refusals -/

theorem serveOffered_fatal (s : State) (slot op : Nat) (m : Cirid) (h : s.rel.fatal = true)
    (ho : servedFatal op s.footing.confidential = false) :
    s.serveOffered slot op m = s.answerTo (op % 65536) m eDeviceFatal noOffset [] :=
  if_pos ⟨h, by rw [ho]; decide⟩

theorem serveOffered_recovery (s : State) (slot op : Nat) (m : Cirid) (h : s.rel.fatal = false)
    (hr : s.boot.stage = .recovery) (ho : op % 65536 ∉ [0x0001, 0x0201, 0x0202]) :
    s.serveOffered slot op m = s.answerTo (op % 65536) m eRecovery noOffset [] := by
  rw [serveOffered, if_neg (by rw [h]; exact fun x => nomatch x.1), if_pos ⟨hr, by rw [List.contains_iff_mem]; exact ho⟩]
  rfl

theorem serveOffered_reserved (s : State) (slot op : Nat) (m : Cirid) (h : s.rel.fatal = false)
    (hr : s.boot.stage ≠ .recovery) (ho : op % 65536 ∉ tableOps) :
    s.serveOffered slot op m = s.answerTo op m eBadField 4 [] := by
  rw [serveOffered, if_neg (by rw [h]; exact fun x => nomatch x.1), if_neg fun x => hr x.1]
  exact if_pos (by rw [List.contains_iff_mem]; exact ho)

/-- An error answered to a command just noted: the answer alone is put out. -/
theorem answerTo_noted (s : State) (op : Nat) (m : Cirid) (code : Code) (offset : Nat) (hc : isError code = true)
    (ho : s.connOpen m.conn = true) :
    let t := (s.noted m).answerTo op m code offset []
    s.Answers t op m code (errorBody offset 0) ∧ t = { s with mgmt := t.mgmt, live := t.live, out := t.out } := by
  intro t
  have ht : t = ((s.noted m).count mgmtRefused 1).emit (.cirid m.conn (ciridMsg op 1 m.tag code (errorBody offset 0))) :=
    answerTo_error _ _ _ _ _ _ hc (by rw [connOpen_noted]; exact ho)
  rw [ht]
  constructor
  · rw [Answers, emit]
    dsimp only
    rw [count_out, noted_out]
  · rw [emit, count_frame, noted_frame]

/-- In the fatal state the answer leaves the counters as they were. -/
theorem answerTo_noted_fatal (s : State) (op : Nat) (m : Cirid) (code : Code) (offset : Nat) (hc : isError code = true)
    (ho : s.connOpen m.conn = true) (hf : s.rel.fatal = true) :
    let t := (s.noted m).answerTo op m code offset []
    s.Answers t op m code (errorBody offset 0) ∧ t = { s with mgmt := t.mgmt, out := t.out } := by
  intro t
  have ht : t = (s.noted m).emit (.cirid m.conn (ciridMsg op 1 m.tag code (errorBody offset 0))) := by
    rw [← count_fatal (s.noted m) mgmtRefused 1 (by rw [noted_rel]; exact hf)]
    exact answerTo_error _ _ _ _ _ _ hc (by rw [connOpen_noted]; exact ho)
  refine ⟨(answerTo_noted s op m code offset hc ho).1, ?_⟩
  rw [ht, noted_frame_fatal s m hf]
  rfl

/-! ### Connections -/

/-- The slot whose key a connection presents: the owner's in recovery, else an operator's (R458, R459). -/
def keySlot (s : State) (key : Bytes) : Option Nat :=
  if s.boot.stage = .recovery then (if key = Config.ownerKey then some 0 else none)
  else (s.footing.operators.find? fun x => x.2 == key).map (·.1)

theorem connect_reset (s : State) (f : MgmtFacts) (hnew : s.connOpen f.conn = false)
    (h : 4 ≤ s.mgmt.conns.length ∨ 16 ≤ aget 0 s.mgmt.tlsFails f.source) : s.connect f = s.emit (.tcpReset f.conn) := by
  unfold connect
  dsimp only
  rw [if_neg (Bool.not_eq_true _ ▸ hnew), if_pos h]

theorem connect_opens (s : State) (f : MgmtFacts) (slot : Nat) (hnew : s.connOpen f.conn = false)
    (h4 : s.mgmt.conns.length < 4) (h16 : aget 0 s.mgmt.tlsFails f.source < 16) (ht : f.tlsOk = true)
    (hk : s.keySlot f.clientKey = some slot) :
    s.connect f = { s with mgmt := { s.mgmt with conns := s.mgmt.conns
      ++ [{ id := f.conn, slot := slot, source := f.source, lastTick := s.tb.up }] } } := by
  unfold keySlot at hk
  unfold connect
  dsimp only
  rw [if_neg (Bool.not_eq_true _ ▸ hnew), if_neg (by omega), hk, ht]

/-- A handshake that fails is counted against its source (R459). -/
theorem connect_fails (s : State) (f : MgmtFacts) (hnew : s.connOpen f.conn = false) (h4 : s.mgmt.conns.length < 4)
    (h16 : aget 0 s.mgmt.tlsFails f.source < 16) (h : f.tlsOk = false ∨ s.keySlot f.clientKey = none) :
    s.connect f = ({ s with mgmt := { s.mgmt with
      tlsFails := aput 0 s.mgmt.tlsFails f.source (aget 0 s.mgmt.tlsFails f.source + 1) } }.count mgmtAuthFail 1).emit
        (.tcpClosed f.conn) := by
  unfold keySlot at h
  unfold connect
  dsimp only
  rw [if_neg (Bool.not_eq_true _ ▸ hnew), if_neg (by omega)]
  split
  · next ht hk =>
    rcases h with h | h
    · exact nomatch ht.symm.trans h
    · exact nomatch hk.symm.trans h
  · rfl

theorem idleClose_idle (s : State) (conn : Nat) (h : ∃ c ∈ s.mgmt.conns, c.id = conn ∧ c.lastTick + 2 ^ 28 ≤ s.tb.up) :
    s.idleClose conn = { s with mgmt := { s.mgmt with conns := s.mgmt.conns.filter fun x => x.id ≠ conn } }.emit
      (.tcpClosed conn) := by
  obtain ⟨c, hc, hid, htick⟩ := h
  exact if_pos (List.any_eq_true.mpr ⟨c, hc, by rw [hid, beq_self_eq_true, Bool.true_and, decide_eq_true htick]⟩)

theorem idleClose_fresh (s : State) (conn : Nat) (h : ∀ c ∈ s.mgmt.conns, c.id = conn → s.tb.up < c.lastTick + 2 ^ 28) :
    s.idleClose conn = s := by
  refine if_neg fun hany => ?_
  obtain ⟨c, hc, hidle⟩ := List.any_eq_true.mp hany
  simp only [Bool.and_eq_true, beq_iff_eq, decide_eq_true_eq] at hidle
  have := h c hc hidle.1
  omega

/-- A connection taken out of the list is open no more. -/
theorem closed_of_filter (s : State) (conn : Nat) :
    ∀ c ∈ s.mgmt.conns.filter (fun x => x.id ≠ conn), c.id ≠ conn := by
  intro c hc
  simpa using (List.mem_filter.mp hc).2

end Sys2Proof.Machine.State

namespace Sys2Proof.Proofs
open Sys2Proof.Machine Sys2Proof.Machine.State

/-- The management commands with the op of each (R462). -/
def mgmtRows : List ((Cirid → Instr) × Nat) :=
  [(Instr.status, 0x0001), (Instr.readReg, 0x0002), (Instr.readStats, 0x0003), (Instr.report, 0x0004),
    (Instr.readJournal, 0x0005), (Instr.readObject, 0x0006), (Instr.alarms, 0x0007), (Instr.setField, 0x0101),
    (fun m => Instr.bayPlan (.mgmt m), 0x0102), (Instr.bayCmd, 0x0103), (Instr.tierCmd, 0x0104), (Instr.replaceWeights, 0x0105),
    (Instr.cancelChange, 0x0106), (Instr.job, 0x0107), (Instr.erase, 0x00201), (Instr.write, 0x10201), (Instr.verify, 0x20201),
    (Instr.reset, 0x0202), (Instr.substituteCommand, 0x0203)]

/-- Every management command arrives the same way, under its op. -/
theorem exec_mgmtRows (x : (Cirid → Instr) × Nat) (hx : x ∈ mgmtRows) (s : State) (m : Cirid) :
    exec (x.1 m) s = .next (s.onCirid x.2 m) := by
  simp only [mgmtRows, List.mem_cons, List.not_mem_nil, or_false] at hx
  obtain rfl | rfl | rfl | rfl | rfl | rfl | rfl | rfl | rfl | rfl | rfl | rfl | rfl | rfl | rfl | rfl | rfl | rfl | rfl := hx
  all_goals rfl

/-- What a command that arrives on an open connection meets. -/
theorem onCirid_spec (s : State) (row : Nat) (m : Cirid) (hp : s.powered = true) (hm : s.boot.mgmtOpen = true)
    (hconn : ∃ c ∈ s.mgmt.conns, c.id = m.conn) :
    let op := opOf row m
    let t := s.onCirid row m
    (1048576 < m.body.length → (∀ c ∈ t.mgmt.conns, c.id ≠ m.conn) ∧ t = { s with mgmt := t.mgmt, out := s.out ++ [.tcpClosed m.conn] })
    ∧ (m.body.length ≤ 1048576 → (s.mustWait op m = true ∨ ∃ y ∈ s.mgmt.waiting, y.2.conn = m.conn) →
      t.mgmt.waiting = s.mgmt.waiting ++ [(op, m)]
      ∧ t = { s with mgmt := t.mgmt, live := t.live })
    ∧ (m.body.length ≤ 1048576 → s.mustWait op m = false → (∀ y ∈ s.mgmt.waiting, y.2.conn ≠ m.conn) →
      (s.rel.fatal = true → servedFatal op s.footing.confidential = false →
        s.Answers t (op % 65536) m eDeviceFatal (errorBody 0xFFFFFFFF 0) ∧ t = { s with mgmt := t.mgmt, out := t.out })
      ∧ (s.rel.fatal = false → s.boot.stage = .recovery → op % 65536 ∉ [0x0001, 0x0201, 0x0202] →
        s.Answers t (op % 65536) m eRecovery (errorBody 0xFFFFFFFF 0)
        ∧ t = { s with mgmt := t.mgmt, live := t.live, out := t.out })
      ∧ (s.rel.fatal = false → s.boot.stage ≠ .recovery → op % 65536 ∉ tableOps →
        s.Answers t op m eBadField (errorBody 4 0) ∧ t = { s with mgmt := t.mgmt, live := t.live, out := t.out })) := by
  intro op t
  have hopen : s.connOpen m.conn = true := (connOpen_iff s m.conn).mpr hconn
  obtain ⟨slot, ht⟩ := onCirid_reached s row m hp hm hopen
  refine ⟨fun hlong => ?_, fun hshort hwait => ?_, fun hshort hfree hnone => ?_⟩
  · rw [show t = _ from ht, if_pos hlong]
    exact ⟨closed_of_filter s m.conn, rfl⟩
  · have hb : (s.noted m).behind op m = true := by rw [behind_noted, behind_iff]; exact hwait
    rw [show t = _ from ht, if_neg (by omega), if_pos hb]
    refine ⟨by rw [noted_mgmt], ?_⟩
    rw [noted_frame]
  · have hb : ¬ (s.noted m).behind op m = true := by
      rw [behind_noted, behind_iff, hfree]
      rintro (h | ⟨y, hy, hc⟩)
      · exact nomatch h
      · exact hnone y hy hc
    have hserve : t = (s.noted m).serveOffered slot op m := by rw [show t = _ from ht, if_neg (by omega), if_neg hb]
    refine ⟨fun hf ho => ?_, fun hf hr ho => ?_, fun hf hr ho => ?_⟩
    · rw [hserve, serveOffered_fatal _ _ _ _ (by rw [noted_rel]; exact hf) (by rw [noted_footing]; exact ho)]
      exact answerTo_noted_fatal s _ m _ _ (by decide) hopen hf
    · rw [hserve, serveOffered_recovery _ _ _ _ (by rw [noted_rel]; exact hf) (by rw [noted_boot]; exact hr) ho]
      exact answerTo_noted s _ m _ _ (by decide) hopen
    · rw [hserve, serveOffered_reserved _ _ _ _ (by rw [noted_rel]; exact hf) (by rw [noted_boot]; exact hr) ho]
      exact answerTo_noted s _ m _ _ (by decide) hopen

/-- Settles O56, from the doors of connect, idleClose and onCirid. -/
theorem managementConnections : Obligations.ManagementConnections := by
  unfold Obligations.ManagementConnections
  refine ⟨fun s f hp hm hnew => ?_, fun s conn hp => ?_, fun x hx s m => ?_⟩
  · have hclosed : s.connOpen f.conn = false := by
      rw [← Bool.not_eq_true, connOpen_iff]
      rintro ⟨c, hc, hid⟩
      exact hnew c hc hid
    refine ⟨s.connect f, by rw [exec, execMgmtConnection, if_pos ⟨hp, hm⟩], connect_reset s f hclosed, ?_⟩
    intro key h4 h16
    refine ⟨fun slot ht hk => connect_opens s f slot hclosed h4 h16 ht hk, fun h => ?_⟩
    rw [connect_fails s f hclosed h4 h16 h, emit]
    dsimp only
    rw [count_mgmt, count_out]
    refine ⟨rfl, aget_aput_same .., ?_⟩
    rw [count_frame]
  · refine ⟨s.idleClose conn, by rw [exec, execMgmtIdleTimeout, if_pos hp], fun h => ?_, idleClose_fresh s conn⟩
    rw [idleClose_idle s conn h]
    exact ⟨closed_of_filter s conn, rfl⟩
  · exact ⟨s.onCirid x.2 m, exec_mgmtRows x hx s m, onCirid_unreached s x.2 m, onCirid_spec s x.2 m⟩

end Sys2Proof.Proofs
end
section
/-!
PROOF. Register writes (R6, R7, R9, R32): which addresses are registers, what an invalid access leaves, what a write of a
core does at each address, and from them the statement by access codes.
-/
namespace Sys2Proof.Machine.State

/-! ### The bits of a word -/

theorem bits_low (v : Word) (n m : Nat) (hm : 2 ^ n = m) : bits v 0 n = v.toNat % m := by rw [bits, Nat.shiftRight_zero, hm]

/-- The bits above a field are the word divided by the field's range. -/
theorem bits_high (v : Word) (lo n m : Nat) (h : lo + n = 32) (hm : 2 ^ lo = m) : bits v lo n = v.toNat / m := by
  rw [bits, Nat.shiftRight_eq_div_pow, Nat.mod_eq_of_lt, hm]
  rw [Nat.div_lt_iff_lt_mul (Nat.two_pow_pos lo), ← Nat.pow_add, Nat.add_comm, h]
  exact v.isLt

/-- Masking the bits above n keeps the remainder. -/
theorem and_mask (v : Word) (n : Nat) (h : n ≤ 32) : v &&& BitVec.ofNat 32 (2 ^ n - 1) = BitVec.ofNat 32 (v.toNat % 2 ^ n) := by
  have hpow : 2 ^ n ≤ 2 ^ 32 := Nat.pow_le_pow_right (by decide) h
  have hpos := Nat.two_pow_pos n
  have hmod := Nat.mod_lt v.toNat hpos
  apply BitVec.eq_of_toNat_eq
  rw [BitVec.toNat_and, BitVec.toNat_ofNat, BitVec.toNat_ofNat, Nat.mod_eq_of_lt (by omega), Nat.mod_eq_of_lt (by omega),
    Nat.and_two_pow_sub_one_eq_mod]

/-! ### Accesses that are not valid (R32) -/

theorem regAt_unaligned (s : State) (a : Nat) (h : a % 4 ≠ 0) : s.regAt a = none := if_pos h

/-- The record of an invalid write (R32): its address, the agent, and that it was a write. -/
def faultRecord (agent addr : Nat) : DWord :=
  BitVec.ofNat 64 (addr % 2 ^ 40 % 2 ^ 32 + (fieldAt 0 8 ((addr % 2 ^ 40) >>> 32) + fieldAt 8 6 agent + fieldAt 14 1 (bit01 true)
    + fieldAt 15 1 1) * 2 ^ 32)

/-- The flags of an invalid write stand above its agent and the high byte of its address. -/
theorem toNat_faultRecord (agent addr : Nat) :
    ∃ w, w < 2 ^ 14 ∧ (faultRecord agent addr).toNat = addr % 2 ^ 32 + (w + 2 ^ 14 + 2 ^ 15) * 2 ^ 32 := by
  have hrow := Nat.mod_lt ((addr % 2 ^ 40) >>> 32) (y := 2 ^ 8) (by decide)
  have hagent := Nat.mod_lt agent (y := 2 ^ 6) (by decide)
  refine ⟨((addr % 2 ^ 40) >>> 32) % 2 ^ 8 + agent % 2 ^ 6 * 2 ^ 8, by omega, ?_⟩
  rw [faultRecord, BitVec.toNat_ofNat, fieldAt, fieldAt, Nat.shiftLeft_zero, Nat.shiftLeft_eq,
    show fieldAt 14 1 (bit01 true) = 2 ^ 14 from rfl, show fieldAt 15 1 1 = 2 ^ 15 from rfl]
  omega

theorem faultRecord_addr (agent addr : Nat) : (faultRecord agent addr).toNat % 2 ^ 32 = addr % 2 ^ 32 := by
  obtain ⟨w, -, hw⟩ := toNat_faultRecord agent addr
  omega

theorem faultRecord_recorded (agent addr : Nat) : (faultRecord agent addr).getLsbD 47 = true := by
  obtain ⟨w, hlt, hw⟩ := toNat_faultRecord agent addr
  rw [BitVec.getLsbD, Nat.testBit_eq_decide_div_mod_eq, decide_eq_true_iff]
  omega

/-- The state once an invalid write is recorded and counted. -/
def faulted (s : State) (agent addr : Nat) : State := { s with ctlFaultAddr := faultRecord agent addr }.count ctlFaultCount 1

theorem faulted_frame (s : State) (agent addr : Nat) :
    s.faulted agent addr = { s with ctlFaultAddr := faultRecord agent addr, live := (s.faulted agent addr).live } := count_frame ..

theorem faulted_ctlFaultAddr (s : State) (agent addr : Nat) :
    (s.faulted agent addr).ctlFaultAddr = faultRecord agent addr := by rw [faulted_frame]

theorem stat_faultAddr (s : State) (r : DWord) (a : Nat) : { s with ctlFaultAddr := r }.stat a = s.stat a := rfl

theorem stat_faulted (s : State) (agent addr : Nat) (hf : s.rel.fatal = false) :
    ((s.faulted agent addr).stat ctlFaultCount).toNat = min ((s.stat ctlFaultCount).toNat + 1) 0xFFFFFFFF := by
  rw [faulted, stat_count_one_toNat _ _ (by exact hf), stat_faultAddr]

theorem ctlFault_write (s : State) (agent addr : Nat) : s.ctlFault agent (addr % 2 ^ 40) true =
    if agent < 32 then (s.faulted agent addr).emit (.trap agent true) else s.faulted agent addr := by
  rw [ctlFault, faulted, faultRecord]

/-- What an invalid write leaves: its count, its record, and the fault of the core that made it. -/
theorem ctlFault_write_spec (s : State) (agent addr : Nat) (hf : s.rel.fatal = false) :
    let t := s.ctlFault agent (addr % 2 ^ 40) true
    t = { s with ctlFaultAddr := t.ctlFaultAddr, live := t.live, out := t.out }
    ∧ t.out = (if agent < 32 then s.out ++ [.trap agent true] else s.out)
    ∧ t.ctlFaultAddr.toNat % 2 ^ 32 = addr % 2 ^ 32 ∧ t.ctlFaultAddr.getLsbD 47 = true
    ∧ (t.stat ctlFaultCount).toNat = min ((s.stat ctlFaultCount).toNat + 1) 0xFFFFFFFF := by
  intro t
  have ht : t.ctlFaultAddr = faultRecord agent addr := by
    rw [show t = _ from ctlFault_write ..]
    split <;> exact faulted_ctlFaultAddr s agent addr
  rw [ht]
  refine ⟨?_, ?_, faultRecord_addr agent addr, faultRecord_recorded agent addr, ?_⟩
  all_goals rw [show t = _ from ctlFault_write ..]
  · split <;> rw [faulted_frame]
    rfl
  · split <;> rw [faulted_frame]
    rfl
  · split <;> exact stat_faulted s agent addr hf

/-! ### The registers a core may write -/

/-- A register of the global window below its snapshots is a register of the control space. -/
theorem regAt_isSome (s : State) (a : Nat) (h4 : a % 4 = 0) (ha : a < 0x80000) (h : (s.globalReg a).isSome = true) :
    (s.regAt a).isSome = true := by
  rw [regAt, if_neg (by omega)]
  split
  · rfl
  · rw [if_neg (by omega), if_pos (by omega)]
    exact h

section
variable (s : State) (a : Nat)

theorem globalReg_bayWindow (h : 0x1000 ≤ a ∧ a < 0x1800) : s.globalReg a = s.bayReg ((a - 0x1000) / 0x20) (a % 0x20) := by
  rw [globalReg, if_neg (by omega), if_neg (by omega), if_neg (by omega), if_neg (by omega), if_pos h]

theorem globalReg_randWindow (h : 0x3800 ≤ a ∧ a < 0x4000) : s.globalReg a = s.randReg ((a - 0x3800) / 0x20) (a % 0x20) := by
  simp (disch := omega) only [globalReg, if_pos h, if_neg]

theorem globalReg_relayWindow (h : 0x5000 ≤ a ∧ a < 0x5800) : s.globalReg a = s.relayReg ((a - 0x5000) / 0x40) (a % 0x40) := by
  simp (disch := omega) only [globalReg, if_pos h, if_neg]

theorem globalReg_tierWindow (h : 0x7000 ≤ a ∧ a < 0x7040) : s.globalReg a = s.tierReg (a - 0x7000) := by
  simp (disch := omega) only [globalReg, if_pos h, if_neg]

theorem globalReg_wslotWindow (h : 0xA100 ≤ a ∧ a < 0xA200) : (s.globalReg a).isSome = true := by
  simp (disch := omega) only [globalReg, if_pos h, if_neg, Option.isSome_some]

end

theorem globalReg_bay (s : State) (b off : Nat) (hb : b < 64) (ho : off < 0x20) :
    s.globalReg (0x1000 + 0x20 * b + off) = s.bayReg b off := by
  have hrow : (0x1000 + 0x20 * b + off - 0x1000) / 0x20 = b := by omega
  have hcol : (0x1000 + 0x20 * b + off) % 0x20 = off := by omega
  rw [globalReg_bayWindow s _ (by omega), hrow, hcol]

theorem globalReg_rand (s : State) (b off : Nat) (hb : b < 64) (ho : off < 0x20) :
    s.globalReg (0x3800 + 0x20 * b + off) = s.randReg b off := by
  have hrow : (0x3800 + 0x20 * b + off - 0x3800) / 0x20 = b := by omega
  have hcol : (0x3800 + 0x20 * b + off) % 0x20 = off := by omega
  rw [globalReg_randWindow s _ (by omega), hrow, hcol]

theorem globalReg_relay (s : State) (c off : Nat) (hc : c < 32) (ho : off < 0x40) :
    s.globalReg (0x5000 + 0x40 * c + off) = s.relayReg c off := by
  have hrow : (0x5000 + 0x40 * c + off - 0x5000) / 0x40 = c := by omega
  have hcol : (0x5000 + 0x40 * c + off) % 0x40 = off := by omega
  rw [globalReg_relayWindow s _ (by omega), hrow, hcol]

theorem globalReg_tier (s : State) (off : Nat) (ho : off < 0x40) : s.globalReg (0x7000 + off) = s.tierReg off := by
  rw [globalReg_tierWindow s _ (by omega), Nat.add_sub_cancel_left]

theorem globalReg_wslot (s : State) (b : Nat) (hb : b < 64) : (s.globalReg (0xA100 + 4 * b)).isSome = true :=
  globalReg_wslotWindow s _ (by omega)

/-- A tier argument is a register (R265). -/
theorem tierReg_arg (s : State) (i : Nat) (hi : i < 5) : (s.tierReg (4 + 4 * i)).isSome = true := by
  obtain rfl | rfl | rfl | rfl | rfl : i = 0 ∨ i = 1 ∨ i = 2 ∨ i = 3 ∨ i = 4 := by omega
  all_goals rfl

/-! ### Writes by address -/

section
variable (s : State) (agent a : Nat) (v : Word)

theorem writeGlobal_randWindow (h : 0x3800 ≤ a ∧ a < 0x4000 ∧ (a % 0x20 = 8 ∨ a % 0x20 = 0xC)) :
    s.writeGlobal agent a v = s.epochWrite agent ((a - 0x3800) / 0x20) (a % 0x20 == 0xC) v := by
  simp (disch := omega) only [writeGlobal, if_pos h, if_neg]

theorem writeGlobal_tierArgWindow (h : 0x7004 ≤ a ∧ a < 0x7018) :
    s.writeGlobal agent a v = s.tierArg ((a - 0x7004) / 4) v := by
  simp (disch := omega) only [writeGlobal, if_pos h, if_neg]

theorem writeGlobal_wslotWindow (h : 0xA100 ≤ a ∧ a < 0xA200) :
    s.writeGlobal agent a v = s.wslot ((a - 0xA100) / 4) v := by
  simp (disch := omega) only [writeGlobal, if_pos h, if_neg]

end

theorem writeGlobal_bay (s : State) (agent b off : Nat) (v : Word) (hb : b < 64) (ho : off < 0x20) :
    s.writeGlobal agent (0x1000 + 0x20 * b + off) v =
      if off = 4 then s.bayCtrl b (v.toNat % 16) (v.toNat / 16) s.tb.cycle
      else if off = 8 then s.setBay b { s.bay b with arg := v } else s := by
  have hrow : (0x1000 + 0x20 * b + off - 0x1000) / 0x20 = b := by omega
  have hcol : (0x1000 + 0x20 * b + off) % 0x20 = off := by omega
  simp (disch := omega) only [writeGlobal, if_pos, hrow, hcol, bits_low v 4 16 rfl, bits_high v 4 28 16 rfl rfl]

theorem writeGlobal_rand (s : State) (agent b off : Nat) (v : Word) (hb : b < 64) (ho : off = 8 ∨ off = 12) :
    s.writeGlobal agent (0x3800 + 0x20 * b + off) v = s.epochWrite agent b (off == 12) v := by
  have hrow : (0x3800 + 0x20 * b + off - 0x3800) / 0x20 = b := by omega
  have hcol : (0x3800 + 0x20 * b + off) % 0x20 = off := by omega
  rw [writeGlobal_randWindow s agent _ v (by omega), hrow, hcol]

theorem writeGlobal_relay (s : State) (agent c off : Nat) (v : Word) (hc : c < 32) (ho : off < 0x40) :
    s.writeGlobal agent (0x5000 + 0x40 * c + off) v =
      if off = 0 then s.relayCtrl c (v.toNat % 8) (v.toNat / 8) (relayPeerDev (s.relay c)) (relayPeerCh (s.relay c))
        (s.relay c).start.toNat
      else s.relayField c off v := by
  have hrow : (0x5000 + 0x40 * c + off - 0x5000) / 0x40 = c := by omega
  have hcol : (0x5000 + 0x40 * c + off) % 0x40 = off := by omega
  simp (disch := omega) only [writeGlobal, if_pos, if_neg, hrow, hcol, bits_low v 3 8 rfl, bits_high v 3 29 8 rfl rfl]

theorem writeGlobal_tierArg (s : State) (agent i : Nat) (v : Word) (hi : i < 5) :
    s.writeGlobal agent (0x7004 + 4 * i) v = s.tierArg i v := by
  have hrow : (0x7004 + 4 * i - 0x7004) / 4 = i := by omega
  rw [writeGlobal_tierArgWindow s agent _ v (by omega), hrow]

theorem writeGlobal_wslot (s : State) (agent b : Nat) (v : Word) (hb : b < 64) :
    s.writeGlobal agent (0xA100 + 4 * b) v = s.wslot b v := by
  have hrow : (0xA100 + 4 * b - 0xA100) / 4 = b := by omega
  rw [writeGlobal_wslotWindow s agent _ v (by omega), hrow]

/-- Above the origin tables every register of the global window is read-only. -/
theorem writeGlobal_readOnly (s : State) (agent a : Nat) (v : Word) (h : 0x20000 ≤ a) : s.writeGlobal agent a v = s := by
  simp (disch := omega) only [writeGlobal, if_neg]

/-- The argument of a tier command keeps the bits that are not reserved (R9, R265). -/
theorem tierArg_eq (s : State) (i : Nat) (v : Word) :
    let kept : Nat := if i = 1 then 2 ^ 13 else if i = 4 then 4096 else 2 ^ 32
    s.tierArg i v = { s with tier := { s.tier with args := s.tier.args.set i (BitVec.ofNat 32 (v.toNat % kept)) } } := by
  intro kept
  have hmask : v &&& (if i = 1 then 0x1FFF else if i = 4 then 0xFFF else 0xFFFFFFFF)
      = BitVec.ofNat 32 (v.toNat % kept) := by
    simp only [kept]
    split
    · exact and_mask v 13 (by decide)
    · split
      · exact and_mask v 12 (by decide)
      · exact and_mask v 32 (by decide)
  rw [tierArg]
  dsimp only
  rw [hmask]

/-- A channel command other than SPLICE looks at no operand (R220). -/
theorem relayCtrl_operands (s : State) (c cmd reserved dev ch resume : Nat) (h : cmd = 1 ∨ cmd = 2 ∨ cmd = 3) :
    s.relayCtrl c cmd reserved dev ch resume = s.relayCtrl c cmd reserved 0 0 0 := by
  rcases h with rfl | rfl | rfl <;> rfl

/-- The object of a channel is written only while the channel is IDLE or CLOSED (R231). -/
theorem relayField_object (s : State) (c : Nat) (v : Word) (h : (s.relay c).state = 0 ∨ (s.relay c).state = 3) :
    s.relayField c 12 v = s.setRelay c { s.relay c with object := v } := if_neg (by omega)

theorem relayField_refused (s : State) (c off : Nat) (v : Word) (h : ¬ ((s.relay c).state = 0 ∨ (s.relay c).state = 3)) :
    s.relayField c off v = s.setRelay c { s.relay c with badWrite := true } := if_pos (by omega)

/-- The weight-open control of a Keystone (R445). -/
theorem writeCs_wopenCtrl (s : State) (south : Bool) (v : Word) :
    s.writeCs south 0x50 v = s.wopenCtrl south (v.toNat % 4) (v.toNat / 4) := by
  by_cases h : south = s.boot.primaryS
  · rw [writeCs, if_neg (not_not_intro h), if_pos rfl, bits_low v 2 4 rfl, bits_high v 2 30 4 rfl rfl]
  · rw [writeCs, if_pos h, wopenCtrl, if_pos h]

theorem writeCs_wopenArg (s : State) (south : Bool) (v : Word) (h : south = s.boot.primaryS) :
    s.writeCs south 0x54 v = { s with cs := { s.cs with wopenArg := v } } := if_neg (not_not_intro h)

/-! ### REGISTER_WRITE -/

theorem lt_of_coreUp {s : State} {core : Nat} (h : s.coreUp core = true) : core < 32 := by
  simp only [coreUp, Bool.and_eq_true, decide_eq_true_eq] at h
  exact h.1.1.1.2

/-- An access that is not valid ends in the access fault. -/
theorem exec_registerWrite_invalid (s : State) (agent addr width : Nat) (v : Word)
    (hag : s.coreUp agent = true ∨ s.awake = true ∧ agent = 32)
    (h : width ≠ 32 ∨ addr % 4 ≠ 0 ∨ s.regAt addr = none ∨ agent = 32) :
    exec (.registerWrite agent addr width v) s = .next (s.ctlFault agent (addr % 2 ^ 40) true) := by
  have hbad : width ≠ 32 ∨ (s.regAt addr).isNone = true ∨ 32 ≤ agent := by
    rcases h with h | h | h | h
    · exact .inl h
    · exact .inr (.inl (by rw [regAt_unaligned s addr h]; rfl))
    · exact .inr (.inl (by rw [h]; rfl))
    · exact .inr (.inr (Nat.le_of_eq h.symm))
  rw [exec, execRegisterWrite, if_pos hag, writeReg, if_pos hbad]

/-- A valid access of a core acts by its window. -/
theorem exec_registerWrite_valid (s : State) (agent addr : Nat) (v : Word) (hup : s.coreUp agent = true)
    (h : (s.regAt addr).isSome = true) :
    exec (.registerWrite agent addr 32 v) s = .next (if addr < 0x100000 then s.writeGlobal agent addr v
      else if 0x8500000 ≤ addr ∧ addr < 0x8500100 then s.writeCs false (addr - 0x8500000) v
      else if 0x9500000 ≤ addr ∧ addr < 0x9500100 then s.writeCs true (addr - 0x9500000) v
      else s) := by
  have hlt := lt_of_coreUp hup
  have hgood : ¬ (32 ≠ 32 ∨ (s.regAt addr).isNone = true ∨ 32 ≤ agent) := by
    rintro (hw | hn | ha)
    · exact hw rfl
    · rw [Option.isNone_iff_eq_none] at hn
      exact nomatch hn ▸ h
    · omega
  rw [exec, execRegisterWrite, if_pos (.inl hup), writeReg, if_neg hgood]

/-- A write of a register of the global window. -/
theorem exec_registerWrite_global (s : State) (agent addr : Nat) (v : Word) (hup : s.coreUp agent = true)
    (h4 : addr % 4 = 0) (ha : addr < 0x80000) (h : (s.globalReg addr).isSome = true) :
    exec (.registerWrite agent addr 32 v) s = .next (s.writeGlobal agent addr v) := by
  rw [exec_registerWrite_valid s agent addr v hup (regAt_isSome s addr h4 ha h), if_pos (by omega)]

/-- The weight-open window of Keystone k. -/
theorem exec_registerWrite_cs (s : State) (agent k off : Nat) (v : Word) (hup : s.coreUp agent = true) (hk : k < 2)
    (ho : off < 0x100) (h : s.regAt (0x8500000 + off + 0x1000000 * k) ≠ none) :
    exec (.registerWrite agent (0x8500000 + off + 0x1000000 * k) 32 v) s = .next (s.writeCs (k == 1) off v) := by
  rw [exec_registerWrite_valid s agent _ v hup (Option.isSome_iff_ne_none.mpr h)]
  have hk' : k = 0 ∨ k = 1 := by omega
  rcases hk' with rfl | rfl
  · have hoff : 0x8500000 + off + 0x1000000 * 0 - 0x8500000 = off := by omega
    rw [if_neg (by omega), if_pos (by omega), hoff]
    rfl
  · have hoff : 0x8500000 + off + 0x1000000 * 1 - 0x9500000 = off := by omega
    rw [if_neg (by omega), if_neg (by omega), if_pos (by omega), hoff]
    rfl

/-- A command a core gives takes effect where its guard is met. -/
theorem exec_of_guard {c : Instr} {s t u : State} {p : Prop} [Decidable p] (h : exec c s = .next (if p then t else u))
    (hp : p) : exec c s = .next t := by rw [h, if_pos hp]

/-! ### A control register's command -/

theorem bits_zero_one (v : Word) : bits v 0 1 = 1 ↔ v.getLsbD 0 = true := by
  have h : v.getLsbD 0 = Decidable.decide (v.toNat % 2 = 1) := Nat.testBit_zero v.toNat
  rw [bits_low v 1 2 rfl, h, decide_eq_true_iff]

section
variable {s : State} {agent : Nat} {v : Word} {c : Instr} (hup : s.coreUp agent = true)
include hup

theorem exec_write_bay {b off : Nat} (hb : b < 64) (ho : off = 0 ∨ off = 4 ∨ off = 8) :
    exec (.registerWrite agent (0x1000 + 0x20 * b + off) 32 v) s = .next (if off = 4 then
      s.bayCtrl b (v.toNat % 16) (v.toNat / 16) s.tb.cycle
    else if off = 8 then s.setBay b { s.bay b with arg := v } else s) := by
  rw [exec_registerWrite_global s agent _ v hup (by omega) (by omega)
    (by rw [globalReg_bay s b off hb (by omega)]; rcases ho with rfl | rfl | rfl <;> rfl),
    writeGlobal_bay s agent b off v hb (by omega)]

/-- A write of a bay's control register is the command its low bits name (R9, R91). -/
theorem exec_write_bayCtrl {b k : Nat} (hb : b < 64) (hk : v.toNat % 16 = k)
    (hc : exec c s = .next (if s.coreUp agent ∧ b < 64 then s.bayCtrl b k (v.toNat / 16) s.tb.cycle else s)) :
    exec (.registerWrite agent (0x1000 + 0x20 * b + 4) 32 v) s = exec c s := by
  rw [exec_write_bay hup hb (by decide), if_pos rfl, hk, exec_of_guard hc ⟨hup, hb⟩]

theorem exec_write_epoch {b off : Nat} (hb : b < 64) (ho : off = 8 ∨ off = 12) :
    exec (.registerWrite agent (0x3800 + 0x20 * b + off) 32 v) s = exec (.bayEpochWrite agent b (off == 12) v) s := by
  rw [exec_registerWrite_global s agent _ v hup (by omega) (by omega)
    (by rw [globalReg_rand s b off hb (by omega)]; rcases ho with rfl | rfl <;> rfl), writeGlobal_rand s agent b off v hb ho,
    exec_of_guard (c := .bayEpochWrite agent b (off == 12) v) rfl ⟨hup, hb⟩]

theorem exec_write_relay {ch off : Nat} (hch : ch < 32) (ho : off = 0 ∨ off = 12) :
    exec (.registerWrite agent (0x5000 + 0x40 * ch + off) 32 v) s = .next (if off = 0 then
      s.relayCtrl ch (v.toNat % 8) (v.toNat / 8) (relayPeerDev (s.relay ch)) (relayPeerCh (s.relay ch)) (s.relay ch).start.toNat
    else s.relayField ch off v) := by
  rw [exec_registerWrite_global s agent _ v hup (by omega) (by omega)
    (by rw [globalReg_relay s ch off hch (by omega)]; rcases ho with rfl | rfl <;> rfl),
    writeGlobal_relay s agent ch off v hch (by omega)]

/-- A write of a channel's control register is the command its low bits name (R9, R220). -/
theorem exec_write_relayCtrl {ch k : Nat} (hch : ch < 32) (hk : v.toNat % 8 = k) (hop : k = 1 ∨ k = 2 ∨ k = 3)
    (hc : exec c s = .next (s.byCore agent ch fun t => t.relayCtrl ch k (v.toNat / 8) 0 0 0)) :
    exec (.registerWrite agent (0x5000 + 0x40 * ch) 32 v) s = exec c s := by
  have hw := exec_write_relay (v := v) hup hch (off := 0) (.inl rfl)
  rw [if_pos rfl, hk, relayCtrl_operands _ _ _ _ _ _ _ hop] at hw
  rw [hc, byCore, if_pos ⟨hup, hch⟩]
  exact hw

/-- SPLICE takes its operands from the channel's own fields (R229). -/
theorem exec_write_splice {ch : Nat} (hch : ch < 32) (hk : v.toNat % 8 = 4) :
    exec (.registerWrite agent (0x5000 + 0x40 * ch) 32 v) s = exec (.splice agent ch (v.toNat / 8) (relayPeerDev (s.relay ch))
      (relayPeerCh (s.relay ch)) (s.relay ch).start.toNat) s := by
  have hw := exec_write_relay (v := v) hup hch (off := 0) (.inl rfl)
  rw [if_pos rfl, hk] at hw
  exact hw.trans (exec_of_guard (p := s.coreUp agent = true ∧ ch < 32) rfl ⟨hup, hch⟩).symm

/-- A write of the tier's control register is the command its low bits name (R9, R265). -/
theorem exec_write_tierCtrl {k : Nat} (hk : v.toNat % 16 = k)
    (hc : exec c s = .next (if s.coreUp agent then s.tierCtrl k (v.toNat / 16) else s)) :
    exec (.registerWrite agent 0x7000 32 v) s = exec c s := by
  rw [exec_registerWrite_global s agent _ v hup (by decide) (by decide) rfl, exec_of_guard hc hup, ← hk]
  exact congrArg Host.Outcome.next (congr (congrArg s.tierCtrl (bits_low v 4 16 rfl)) (bits_high v 4 28 16 rfl rfl))

/-- A write of a Keystone's weight-open control register is the command its low bits name (R9, R445). -/
theorem exec_write_wopenCtrl {k cmd : Nat} (hk : k < 2) (hreg : s.regAt (0x8500050 + 0x1000000 * k) ≠ none)
    (hcmd : v.toNat % 4 = cmd)
    (hc : exec c s = .next (if s.coreUp agent ∧ k < 2 then s.wopenCtrl (k == 1) cmd (v.toNat / 4) else s)) :
    exec (.registerWrite agent (0x8500050 + 0x1000000 * k) 32 v) s = exec c s := by
  rw [exec_of_guard hc ⟨hup, hk⟩, ← hcmd, ← writeCs_wopenCtrl]
  exact exec_registerWrite_cs s agent k 0x50 v hup hk (by decide) hreg

/-- A write of the validator's control register is VALIDATE where its low bits name it (R9, R105). -/
theorem exec_write_validate (hk : v.toNat % 4 = 1) :
    exec (.registerWrite agent 0x2000 32 v) s = exec (.validate agent (v.toNat / 4)) s := by
  rw [exec_registerWrite_global s agent _ v hup (by decide) (by decide) rfl,
    exec_of_guard (c := .validate agent (v.toNat / 4)) rfl hup, ← hk]
  exact congrArg Host.Outcome.next (congr (congrArg s.validateCtrl (bits_low v 2 4 rfl)) (bits_high v 2 30 4 rfl rfl))

/-- An acknowledgement takes effect where bit 0 is written as 1 (R7, R265). -/
theorem exec_write_tierDoneAck :
    exec (.registerWrite agent 0x7024 32 v) s = exec (.tierDoneAck agent v) s := by
  have hw : s.writeGlobal agent 0x7024 v
      = if v.getLsbD 0 then { s with tier := { s.tier with done := s.tier.done.drop 1 } } else s := rfl
  rw [exec_registerWrite_global s agent _ v hup (by decide) (by decide) rfl, hw, exec, execTierDoneAck]
  simp only [hup, true_and, bits_zero_one]

/-- A register no command stands behind: its write at a fixed address. -/
theorem exec_write_at {a : Nat} {t : State} (h4 : a % 4 = 0) (ha : a < 0x80000) (hreg : (s.globalReg a).isSome = true)
    (hw : s.writeGlobal agent a v = t) : exec (.registerWrite agent a 32 v) s = .next t := by
  rw [exec_registerWrite_global s agent a v hup h4 ha hreg, hw]

end

/-- The flag of a refused VALIDATE is cleared by writing 1 to it (R7). -/
theorem writeGlobal_refused (s : State) (agent : Nat) (v : Word) : s.writeGlobal agent 0x2008 v
    = { s with validator := { s.validator with refused := s.validator.refused && !v.getLsbD 1 } } := by
  have h : s.writeGlobal agent 0x2008 v = if v.getLsbD 1 then { s with validator := { s.validator with refused := false } } else s := rfl
  rw [h]
  cases v.getLsbD 1
  · rw [Bool.not_false, Bool.and_true]
    rfl
  · rw [Bool.not_true, Bool.and_false]
    rfl

/-- Outside the weight-open windows a register above the origin tables is read-only. -/
theorem exec_write_readOnly (s : State) (agent addr : Nat) (v : Word) (hup : s.coreUp agent = true)
    (hreg : s.regAt addr ≠ none) (hlo : 0x20000 ≤ addr) (hn : addr < 0x8500000 ∨ 0x8500100 ≤ addr)
    (hs : addr < 0x9500000 ∨ 0x9500100 ≤ addr) : exec (.registerWrite agent addr 32 v) s = .next s := by
  rw [exec_registerWrite_valid s agent addr v hup (Option.isSome_iff_ne_none.mpr hreg), writeGlobal_readOnly s agent addr v hlo,
    if_neg (by omega : ¬ (0x8500000 ≤ addr ∧ addr < 0x8500100)), if_neg (by omega : ¬ (0x9500000 ≤ addr ∧ addr < 0x9500100)), ite_self]

end Sys2Proof.Machine.State

namespace Sys2Proof.Proofs
open Sys2Proof.Machine Sys2Proof.Machine.State

/-- Settles O37, from the effect of a write at each address. -/
theorem registerWritesByAccessCode : Obligations.RegisterWritesByAccessCode := by
  unfold Obligations.RegisterWritesByAccessCode
  intro s agent addr v hag
  have hawake : s.awake = true := hag.elim awake_of_coreUp (·.1)
  refine ⟨fun width hbad => ⟨_, exec_registerWrite_invalid s agent addr width v hag hbad,
    ctlFault_write_spec s agent addr (not_fatal_of_awake hawake)⟩, fun hlt => ?_⟩
  have hup : s.coreUp agent = true := hag.resolve_right (by omega)
  intro w as kept
  refine ⟨exec_write_readOnly s agent addr v hup, ?_, ?_, ?_, ?_, ?_, ?_, ?_, ?_, ?_, ?_, ?_, ?_, ?_, ?_, ?_, ?_, ?_, ?_, ?_⟩
  · intro haddr hreg
    rw [show exec w s = _ from exec_registerWrite_valid s agent addr v hup (Option.isSome_iff_ne_none.mpr hreg)]
    rcases haddr with rfl | rfl | rfl | rfl <;> rfl
  · rintro b hb rfl
    exact exec_write_bay hup hb (off := 0) (by decide)
  · rintro rfl
    exact exec_write_at hup (by decide) (by decide) rfl rfl
  · rintro rfl
    exact exec_write_at hup (by decide) (by decide) rfl (writeGlobal_refused s agent v)
  · rintro rfl
    exact exec_write_at hup (by decide) (by decide) rfl rfl
  · rintro rfl
    exact exec_write_at hup (by decide) (by decide) rfl rfl
  · rintro b hb rfl
    exact exec_write_bay hup hb (off := 8) (by decide)
  · rintro b hb rfl
    exact ⟨fun h => exec_write_bayCtrl hup hb h rfl, fun h => exec_write_bayCtrl hup hb h rfl,
      fun h => exec_write_bayCtrl hup hb h rfl, fun h => exec_write_bayCtrl hup hb h rfl,
      fun h => exec_write_bayCtrl hup hb h rfl, fun h => exec_write_bayCtrl hup hb h rfl,
      fun h => exec_write_bayCtrl hup hb h rfl⟩
  · rintro rfl
    exact exec_write_validate hup
  · intro b hb
    refine ⟨?_, ?_⟩
    · rintro rfl
      have hw := exec_write_epoch (v := v) hup hb (off := 8) (.inl rfl)
      have hlow : exec (.bayEpochWrite agent b false v) s = .next (s.holdLow agent (randBase b + 8) v) :=
        exec_of_guard (p := s.coreUp agent = true ∧ b < 64) rfl ⟨hup, hb⟩
      have haddr : randBase b + 8 = 0x3800 + 0x20 * b + 8 := by rw [randBase, Nat.mul_comm]
      exact ⟨hw, _, hw.trans hlow, rfl, haddr ▸ aget_aput_same ..⟩
    · rintro rfl
      exact exec_write_epoch hup hb (.inr rfl)
  · rintro c hc rfl
    exact ⟨fun h => exec_write_relayCtrl hup hc h (by decide) rfl, fun h => exec_write_relayCtrl hup hc h (by decide) rfl,
      fun h => exec_write_relayCtrl hup hc h (by decide) rfl, exec_write_splice hup hc⟩
  · rintro c hc rfl
    have hw := exec_write_relay (v := v) hup hc (off := 12) (.inr rfl)
    exact ⟨fun h => hw.trans (congrArg Host.Outcome.next (relayField_object s c v h)),
      fun h => hw.trans (congrArg Host.Outcome.next (relayField_refused s c 12 v h))⟩
  · rintro rfl
    exact ⟨fun h => exec_write_tierCtrl hup h rfl, fun h => exec_write_tierCtrl hup h rfl, fun h => exec_write_tierCtrl hup h rfl,
      fun h => exec_write_tierCtrl hup h rfl, fun h => exec_write_tierCtrl hup h rfl, fun h => exec_write_tierCtrl hup h rfl,
      fun h => exec_write_tierCtrl hup h rfl, fun h => exec_write_tierCtrl hup h rfl, fun h => exec_write_tierCtrl hup h rfl⟩
  · rintro i hi rfl
    refine exec_write_at hup (by omega) (by omega) ?_ ((writeGlobal_tierArg s agent i v hi).trans (tierArg_eq s i v))
    rw [Nat.add_assoc 0x7000 4 (4 * i), globalReg_tier s _ (by omega)]
    exact tierReg_arg s i hi
  · rintro rfl
    exact exec_write_tierDoneAck hup
  · rintro b hb rfl
    exact (exec_write_at hup (by omega) (by omega) (globalReg_wslot s b hb) (writeGlobal_wslot s agent b v hb)).trans
      (exec_of_guard (p := s.coreUp agent = true ∧ b < 64) rfl ⟨hup, hb⟩).symm
  · rintro rfl
    exact (exec_write_at hup (by decide) (by decide) rfl rfl).trans (exec_of_guard (p := s.coreUp agent = true) rfl hup).symm
  · rintro k hk rfl hreg
    exact ⟨fun h => exec_write_wopenCtrl hup hk hreg h rfl, fun h => exec_write_wopenCtrl hup hk hreg h rfl,
      fun h => exec_write_wopenCtrl hup hk hreg h rfl⟩
  · rintro k hk rfl hprimary hreg
    exact (exec_registerWrite_cs s agent k 0x54 v hup hk (by decide) hreg).trans
      (congrArg Host.Outcome.next (writeCs_wopenArg s (k == 1) v hprimary))

end Sys2Proof.Proofs
end
section
/-!
PROOF. The exchange of shared amax registers (R193, R214), the draw epochs (R6, R169) and the weight slots (R355).
-/
namespace Sys2Proof.Machine.State

/-! ### Packets of the fence class -/

/-- The oldest packet of a kind, where it can arrive, is taken and acted on. -/
theorem onFencePacket_arriving {s : State} {kind n : Nat} {toBrick : Bool} {p : GritPacket}
    (h : s.Arriving kind n toBrick p) (f : State → GritPacket → State) :
    s.onFencePacket kind n toBrick f = f (s.tookGrit p) p := by
  obtain ⟨hfind, hdue⟩ := h
  obtain ⟨m, hm, rfl⟩ := Option.map_eq_some_iff.mp hfind
  rw [onFencePacket, hm]
  exact if_pos hdue

theorem onFencePacket_absent {s : State} {kind n : Nat} {toBrick : Bool} (f : State → GritPacket → State)
    (h : ∀ m ∈ s.net.grit, m.p.kind ≠ kind ∨ (if toBrick then m.p.dest else m.p.source) ≠ n) :
    s.onFencePacket kind n toBrick f = s := by
  have hnone : (s.net.grit.find? fun m => m.p.kind == kind && (if toBrick then m.p.dest else m.p.source) == n) = none := by
    rw [List.find?_eq_none]
    intro m hm hmatch
    rw [Bool.and_eq_true, beq_iff_eq, beq_iff_eq] at hmatch
    exact (h m hm).elim (fun hk => hk hmatch.1) (fun hn => hn hmatch.2)
  rw [onFencePacket, hnone]

/-- A brick that runs acts for its bay, also where only the network changed. -/
theorem whileRunning_tookGrit {s : State} {b n : Nat} (h : s.Running b n) (p : GritPacket) (f : State → Nat → State) :
    (s.tookGrit p).whileRunning n f = f (s.tookGrit p) b := by
  obtain ⟨hawake, hbay, hrun, hvacant⟩ := h
  have hbay' : (s.tookGrit p).bayOf n = some b := hbay
  rw [whileRunning, hbay']
  exact if_pos ⟨hawake, .inl hrun, fun hv => nomatch hvacant.symm.trans hv⟩

/-- Packets sent one after another stand at the end of the network's list in that order. -/
theorem foldl_sendGrit {α : Type} (requester : Nat) (packet : α → GritPacket) (l : List α) (s : State) :
    l.foldl (fun (u : State) x => u.sendGrit requester (packet x)) s = s.setGrit (s.net.grit ++ l.map fun x =>
      { p := packet x, requester := requester, path := gritPath (packet x).source (packet x).dest, place := none, hold := false }) := by
  induction l generalizing s with
  | nil => rw [List.foldl_nil, List.map_nil, List.append_nil, setGrit]
  | cons x l ih =>
    rw [List.foldl_cons, ih, List.map_cons, List.append_cons]
    rfl

/-! ### AMAX_PACKET -/

/-- The packets of the exchange so far, with one more (R193). -/
def amaxWaiting (s : State) (b : Nat) (p : GritPacket) : List (Nat × Nat × List Word) :=
  (s.bay b).amaxIn ++ [(p.source, p.arg.toNat, amaxValues p)]

theorem amaxArrives_waits (s : State) (b : Nat) (p : GritPacket) (h : (s.amaxWaiting b p).length < (s.sharers b).length) :
    s.amaxArrives b p = s.setBay b { s.bay b with amaxIn := s.amaxWaiting b p } := if_pos h

/-- The last packet sends the maxima back to every sharer. -/
theorem amaxArrives_last (s : State) (b : Nat) (p : GritPacket) (h : (s.sharers b).length ≤ (s.amaxWaiting b p).length) :
    let t := s.amaxArrives b p
    (t.bay b).amaxIn = [] ∧ t = { s with bays := t.bays, net := t.net }
    ∧ t.net.grit.map (·.p) = s.net.grit.map (·.p) ++ (s.amaxWaiting b p).map fun x =>
        gritOf 9 x.1 p.dest 0 0 (BitVec.ofNat 32 x.2.1) ((packetMaxima (s.amaxWaiting b p)).flatMap fun w => leBytes 4 w.toNat) := by
  intro t
  have ht : t = _ := (if_neg (Nat.not_lt.mpr h)).trans (foldl_sendGrit reqFunction _ (s.amaxWaiting b p) _)
  rw [ht]
  refine ⟨congrArg Bay.amaxIn (bay_setBay s b _), rfl, ?_⟩
  rw [setGrit]
  dsimp only
  rw [List.map_append, List.map_map]
  rfl

/-! ### What a step_end leaves of the exchange -/

/-- What the exchange knows of a brick: whether it waits, the fences it has passed, its registers. -/
def amaxView (s : State) (n : Nat) : Bool × Nat × Assoc Amax := ((s.brick n).amaxSent, (s.brick n).fences, (s.brick n).amax)

theorem amaxView_of_bricks {s t : State} (h : t.bricks = s.bricks) (n : Nat) : t.amaxView n = s.amaxView n := by
  rw [amaxView, brick, h]
  rfl

theorem amaxView_setBrick_same (s : State) (n : Nat) (k : Brick) :
    (s.setBrick n k).amaxView n = (k.amaxSent, k.fences, k.amax) := by
  rw [amaxView, brick_setBrick]

/-- A write of a brick's Clay leaves the exchange. -/
theorem amaxView_setClay (s : State) (m n : Nat) (c : Memory) :
    (s.setBrick m { s.brick m with clay := c }).amaxView n = s.amaxView n := by
  by_cases h : n = m
  · subst h
    exact amaxView_setBrick_same ..
  · rw [amaxView, brick_setBrick_other _ _ _ _ h]
    rfl

theorem amaxView_putTile (s : State) (tile : Bytes) (targets : List (Nat × Nat × Nat × Nat)) (n : Nat) :
    (s.putTile tile targets).amaxView n = s.amaxView n := by
  refine foldl_keeps (amaxView · n) _ (fun t w => ?_) targets s
  exact amaxView_setClay t w.1 n _

theorem bricks_writeToObj (s : State) (id : Nat) : (s.writeToObj id).bricks = s.bricks := by
  unfold writeToObj
  dsimp only
  split <;> split <;> rfl

theorem bricks_chargeSectors (s : State) (t : Tier) (b n : Nat) : (s.chargeSectors t b n).bricks = s.bricks := by
  cases t <;> rfl

theorem bricks_releaseSectors (s : State) (t : Tier) (b n : Nat) : (s.releaseSectors t b n).bricks = s.bricks := by
  cases t <;> rfl

/-- A tile rewritten in place lands in the Clay of its bricks or in sectors. -/
theorem amaxView_rewriteTile (s : State) (id k : Nat) (tile : Bytes) (n : Nat) :
    (s.rewriteTile id k tile).1.amaxView n = s.amaxView n := by
  have hwrite := amaxView_of_bricks (bricks_writeToObj s id) n
  unfold rewriteTile
  dsimp only
  split
  · exact hwrite
  · split
    · exact (amaxView_putTile ..).trans hwrite
    · exact hwrite
    · split
      · rfl
      · split
        · rfl
        · refine (amaxView_of_bricks ?_ n).trans hwrite
          split <;> exact (bricks_chargeSectors ..).trans (bricks_releaseSectors ..)

theorem amaxView_pokeObj (s : State) (id i : Nat) (v : Byte) (n : Nat) : (s.pokeObj id i v).amaxView n = s.amaxView n := by
  unfold pokeObj
  split
  · rfl
  · exact amaxView_rewriteTile ..

theorem amaxView_closeSequences (s : State) (code n : Nat) : (s.closeSequences code).amaxView n = s.amaxView n := by
  unfold closeSequences
  split
  · rfl
  · exact foldl_keeps (amaxView · n) _ (fun t k => amaxView_pokeObj ..) _ s

theorem amaxView_closeAtBoundary (s : State) (b n : Nat) : (s.closeAtBoundary b).amaxView n = s.amaxView n := by
  unfold closeAtBoundary
  split
  · exact amaxView_closeSequences ..
  · rfl

theorem bricks_noteFlip (s : State) (b : Nat) : (s.noteFlip b).bricks = s.bricks := by
  refine foldl_keeps bricks _ (fun t m => ?_) _ s
  dsimp only
  split
  · rfl
  · split <;> rfl

theorem bricks_flipWeights (s : State) (b : Nat) : (s.flipWeights b).bricks = s.bricks := by
  unfold flipWeights
  dsimp only
  split
  · exact bricks_noteFlip ..
  · rfl

theorem bricks_endLearnStep (s : State) (step : Nat) : (s.endLearnStep step).bricks = s.bricks := by
  unfold endLearnStep
  split <;> rfl

/-- The bay's part of a step_end fence leaves the exchange. -/
theorem amaxView_bayStepEnd (s : State) (b n : Nat) : (s.bayStepEnd b).amaxView n = s.amaxView n := by
  unfold bayStepEnd
  extract_lets v t
  have ht : t.amaxView n = s.amaxView n := (amaxView_closeAtBoundary ..).trans (amaxView_of_bricks (bricks_flipWeights ..) n)
  split
  · refine (amaxView_of_bricks (bricks_endLearnStep ..) n).trans ?_
    split
    · exact ht
    · exact ht
  · exact ht

/-! ### AMAX_RETURN -/

/-- The registers of a brick with the maxima a return carries. -/
def returnedAmax (k : Brick) (p : GritPacket) : Assoc Amax := arun {} 0 ((List.range 16).map fun r =>
  let a := aget ({} : Amax) k.amax r
  if p.arg.getLsbD r then { a with amax := (amaxValues p).getD r 0 } else a)

/-- The registers of a brick once they latch (R134). -/
def latchedAmax (m : Assoc Amax) : Assoc Amax := arun {} 0 ((List.range 16).map fun r => latchReg (aget ({} : Amax) m r))

/-- A table of sixteen entries reads the entry asked for. -/
theorem aget_arun_range (f : Nat → Amax) (r : Nat) (h : r < 16) : aget {} (arun {} 0 ((List.range 16).map f)) r = f r := by
  have hget := aget_arun ({} : Amax) ((List.range 16).map f) 0 r (by rw [List.length_map, List.length_range]; exact h)
  rw [Nat.zero_add] at hget
  rw [hget, List.getD_eq_getElem?_getD, List.getElem?_map, List.getElem?_range h]
  rfl

theorem aget_latchedAmax (m : Assoc Amax) (r : Nat) (h : r < 16) : aget {} (latchedAmax m) r = latchReg (aget {} m r) :=
  aget_arun_range _ r h

theorem aget_returnedAmax (k : Brick) (p : GritPacket) (r : Nat) (h : r < 16) : aget {} (returnedAmax k p) r =
    if p.arg.getLsbD r then { aget {} k.amax r with amax := (amaxValues p).getD r 0 } else aget {} k.amax r :=
  aget_arun_range _ r h

/-- The state in which program 0 has gone on behind a FENCE that ends a step. -/
def steppedOn (s : State) (n : Nat) : State :=
  (s.setBrick n { s.brick n with amax := latchedAmax (s.brick n).amax, fences := (s.brick n).fences + 1, amaxSent := false }).stepWord n 0

theorem passFence_ends (s : State) (b n : Nat) :
    s.passFence b n true = if n = s.anchor b then (s.steppedOn n).bayStepEnd b else s.steppedOn n := by
  have h : s.passFence b n true = if true = true ∧ n = s.anchor b then (s.steppedOn n).bayStepEnd b else s.steppedOn n := rfl
  rw [h]
  simp only [true_and]

theorem amaxView_steppedOn (s : State) (n : Nat) :
    (s.steppedOn n).amaxView n = (false, (s.brick n).fences + 1, latchedAmax (s.brick n).amax) := by
  rw [steppedOn, stepWord, putGen, amaxView_setBrick_same, brick_setBrick]
  rfl

theorem amaxView_passFence (s : State) (b n : Nat) :
    (s.passFence b n true).amaxView n = (false, (s.brick n).fences + 1, latchedAmax (s.brick n).amax) := by
  rw [passFence_ends]
  split
  · rw [amaxView_bayStepEnd, amaxView_steppedOn]
  · exact amaxView_steppedOn s n

/-- At a brick that is not the anchor, passing a fence changes that brick alone. -/
theorem passFence_other (s : State) (b n : Nat) (h : n ≠ s.anchor b) :
    (∀ m, m ≠ n → (s.passFence b n true).brick m = s.brick m) ∧ (s.passFence b n true).bays = s.bays := by
  rw [passFence_ends, if_neg h, steppedOn, stepWord, putGen]
  refine ⟨fun m hm => ?_, rfl⟩
  rw [brick_setBrick_other _ _ _ _ hm, brick_setBrick_other _ _ _ _ hm]

theorem amaxReturns_ignored (s : State) (b n : Nat) (p : GritPacket)
    (h : (s.brick n).amaxSent = false ∨ ((s.brick n).gen 0).state = .held) : s.amaxReturns b n p = s := by
  refine if_pos ?_
  rcases h with h | h
  · rw [h]
    rfl
  · rw [h, Bool.or_eq_true]
    exact .inr rfl

theorem amaxReturns_ends (s : State) (b n : Nat) (p : GritPacket) (hs : (s.brick n).amaxSent = true)
    (hg : ((s.brick n).gen 0).state ≠ .held) :
    s.amaxReturns b n p = (s.setBrick n { s.brick n with amax := returnedAmax (s.brick n) p }).passFence b n true := by
  refine if_neg ?_
  rw [hs, Bool.not_true, Bool.false_or, beq_iff_eq]
  exact hg

/-- A return that its brick waits for ends the exchange there. -/
theorem amaxReturns_spec (s : State) (b n : Nat) (p : GritPacket) (hs : (s.brick n).amaxSent = true)
    (hg : ((s.brick n).gen 0).state ≠ .held) :
    let t := s.amaxReturns b n p
    (t.brick n).amaxSent = false ∧ (t.brick n).fences = (s.brick n).fences + 1
    ∧ (n ≠ s.anchor b → (∀ m, m ≠ n → t.brick m = s.brick m) ∧ t.bays = s.bays)
    ∧ (∀ r, r < 16 → aget {} (t.brick n).amax r
      = latchReg (if p.arg.getLsbD r then { aget {} (s.brick n).amax r with amax := (amaxValues p).getD r 0 }
          else aget {} (s.brick n).amax r)) := by
  intro t
  let k := { s.brick n with amax := returnedAmax (s.brick n) p }
  have ht : t = (s.setBrick n k).passFence b n true := amaxReturns_ends s b n p hs hg
  have hview := amaxView_passFence (s.setBrick n k) b n
  rw [← ht, brick_setBrick] at hview
  simp only [amaxView, Prod.mk.injEq] at hview
  obtain ⟨hsent, hfences, hamax⟩ := hview
  refine ⟨hsent, hfences, fun hn => ?_, fun r hr => ?_⟩
  · obtain ⟨hother, hbays⟩ := passFence_other (s.setBrick n k) b n hn
    rw [ht]
    exact ⟨fun m hm => (hother m hm).trans (brick_setBrick_other _ _ _ _ hm), hbays⟩
  · rw [hamax, aget_latchedAmax _ r hr, aget_returnedAmax _ p r hr]

/-! ### Draw epochs -/

/-- A bay with the draw epoch of two words: taken at the next fence where the bay runs (R169). -/
def withEpoch (v : Bay) (low high : Word) : Bay :=
  if v.state = .running ∨ v.state = .draining then
    { v with epochNext := some (BitVec.ofNat 64 (low.toNat + high.toNat * 2 ^ 32)) }
  else { v with epoch := BitVec.ofNat 64 (low.toNat + high.toNat * 2 ^ 32), epochNext := none }

theorem setEpoch_eq (s : State) (b : Nat) (low high : Word) :
    s.setEpoch b (BitVec.ofNat 64 (low.toNat + high.toNat * 2 ^ 32)) = s.setBay b (withEpoch (s.bay b) low high) := by
  unfold setEpoch withEpoch
  dsimp only
  split <;> rfl

/-- The high word of an epoch takes the low word held, or the one last written (R6). -/
theorem epochWrite_high (s : State) (agent b : Nat) (low high : Word)
    (h : (aget none s.pairHold (agent * 2 ^ 40 + (randBase b + 8))).getD (loWord (lastEpoch (s.bay b)).toNat) = low) :
    let u := s.epochWrite agent b true high
    u = { s.setBay b (withEpoch (s.bay b) low high) with pairHold := u.pairHold } := by
  intro u
  have hu : u = { s with pairHold := aput none s.pairHold (agent * 2 ^ 40 + (randBase b + 8)) none }.setEpoch b
      (BitVec.ofNat 64 (low.toNat + high.toNat * 2 ^ 32)) := by
    rw [← h]
    rfl
  rw [hu, setEpoch_eq]
  rfl

/-! ### Weight slots -/

/-- A write of a bay's weight slots (R355). -/
theorem wslot_eq (s : State) (b : Nat) (v : Word) :
    let y := s.bay b
    s.wslot b v = s.setBay b { y with
      wsPending := y.wsPending || v.getLsbD 13
      wsDelta := if y.wsPending = true ∨ y.state = .running ∨ y.state = .draining then y.wsDelta else v.toNat % 4096 } := by
  intro y
  have hbusy : (y.wsPending || y.state == .running || y.state == .draining) = true
      ↔ y.wsPending = true ∨ y.state = .running ∨ y.state = .draining := by
    simp only [Bool.or_eq_true, beq_iff_eq, or_assoc]
  have h : s.wslot b v = s.setBay b { y with
      wsPending := y.wsPending || v.getLsbD 13
      wsDelta := if y.wsPending || y.state == .running || y.state == .draining then y.wsDelta else bits v 0 12 } := rfl
  rw [h, bits_low v 12 4096 rfl]
  simp only [hbusy]

end Sys2Proof.Machine.State

namespace Sys2Proof.Proofs
open Sys2Proof.Machine Sys2Proof.Machine.State

theorem exec_bayEpochWrite (s : State) (agent b : Nat) (high : Bool) (v : Word) (hup : s.coreUp agent = true) (hb : b < 64) :
    exec (.bayEpochWrite agent b high v) s = .next (s.epochWrite agent b high v) := by
  rw [exec, execBayEpochWrite, if_pos ⟨hup, hb⟩]

/-- Settles O22, from the effect of each packet and of each register write. -/
theorem amaxExchangeEpochAndWeightSlots : Obligations.AmaxExchangeEpochAndWeightSlots := by
  unfold Obligations.AmaxExchangeEpochAndWeightSlots
  refine ⟨⟨fun s b n p hrun harr => ?_, fun s b n p hrun harr => ?_, fun s n _ => ⟨fun h => ?_, fun h => ?_⟩,
    fun s agent b lo hi hup hb => ?_⟩, fun s agent b v hup hb => ?_⟩
  · intro v ps u
    refine ⟨u.amaxArrives b p, ?_, amaxArrives_waits u b p, amaxArrives_last u b p⟩
    rw [exec, execAmaxPacket, onFencePacket_arriving harr, whileRunning_tookGrit hrun]
  · intro k u
    refine ⟨u.amaxReturns b n p, ?_, amaxReturns_ignored u b n p, amaxReturns_spec u b n p⟩
    rw [exec, execAmaxReturn, onFencePacket_arriving harr, whileRunning_tookGrit hrun]
  · rw [exec, execAmaxPacket, onFencePacket_absent _ h]
  · rw [exec, execAmaxReturn, onFencePacket_absent _ h]
  · intro v put
    refine ⟨⟨s.holdLow agent (randBase b + 8) lo, exec_bayEpochWrite s agent b false lo hup hb, rfl, ?_⟩, fun hfree => ?_⟩
    · have hlow : aget none (s.holdLow agent (randBase b + 8) lo).pairHold (agent * 2 ^ 40 + (randBase b + 8)) = some lo :=
        aget_aput_same ..
      exact ⟨_, exec_bayEpochWrite _ agent b true hi hup hb, epochWrite_high _ agent b lo hi (by rw [hlow]; rfl)⟩
    · exact ⟨_, exec_bayEpochWrite s agent b true hi hup hb, epochWrite_high s agent b _ hi (by rw [hfree]; rfl)⟩
  · exact ⟨s.wslot b v, by rw [exec, execWslotWrite, if_pos ⟨hup, hb⟩], wslot_eq s b v⟩

end Sys2Proof.Proofs
end
section
/-!
PROOF. Control words of programs (R119, R206): the words an address generator stands at, the end of a LOOP's passes, and
END and JUMP of a program that holds no buffer.
-/
namespace Sys2Proof.Machine

/-! ### Loops -/

/-- At the last word of a body, with passes left, the body is run again. -/
theorem nextWord_repeats {m : Memory} {p : Nat} {g : Gen} {fr : LoopFrame} {rest : List LoopFrame}
    (hstack : g.stack = fr :: rest) (hlast : g.word + 1 = fr.word + loopBody (progWord m p fr.word) + 1)
    (hmore : 1 < fr.remaining) :
    nextWord m p g = { g with
      word := fr.word + 1, moved := 0, state := .running, addr := g.addr + loopStride (progWord m p fr.word)
      stack := { fr with remaining := fr.remaining - 1, start := g.addr + loopStride (progWord m p fr.word) } :: rest } := by
  simp only [nextWord, endPasses, hstack, if_pos hlast, if_pos hmore]

/-- At the last word of an outermost body, with its last pass done, the loop ends. -/
theorem nextWord_leaves {m : Memory} {p : Nat} {g : Gen} {fr : LoopFrame}
    (hstack : g.stack = [fr]) (hlast : g.word + 1 = fr.word + loopBody (progWord m p fr.word) + 1)
    (hdone : fr.remaining ≤ 1) :
    nextWord m p g = { g with
      word := g.word + 1, moved := 0, state := .running, addr := g.addr + loopStride (progWord m p fr.word), stack := [] } := by
  simp only [nextWord, endPasses, hstack, if_pos hlast, if_neg (Nat.not_lt.mpr hdone)]

/-- A generator that holds nothing restarts in the start state. -/
theorem restartGen_unheld (m : Memory) {g : Gen} (h : g.held = []) : restartGen m g = {} := by
  rw [restartGen, h, List.filter_nil]

/-- A generator put back as it stands. -/
theorem Brick.setGen_gen (k : Brick) (p : Nat) : k.setGen p (k.gen p) = k := by
  have h : k.gens.set p (k.gens.getD p {}) = k.gens := by
    by_cases hp : p < k.gens.length
    · rw [List.getD_eq_getElem?_getD, List.getElem?_eq_getElem hp, Option.getD_some, List.set_getElem_self]
    · exact List.set_eq_of_length_le (Nat.not_lt.mp hp)
  rw [setGen, gen, h]

namespace State

/-! ### The word a program stands at -/

/-- A brick that runs acts for its bay. -/
theorem whileRunning_running {s : State} {b n : Nat} (h : s.Running b n) (f : State → Nat → State) :
    s.whileRunning n f = f s b := by
  obtain ⟨hawake, hbay, hrun, hvacant⟩ := h
  rw [whileRunning, hbay]
  exact if_pos ⟨hawake, .inl hrun, fun hv => nomatch hvacant.symm.trans hv⟩

/-- A program of a bay that runs has not stopped for a drain. -/
theorem stoppedHere_running {s : State} {b : Nat} (h : (s.bay b).state = .running) (n p : Nat) :
    s.stoppedHere b n p = false := by
  rw [stoppedHere, h]
  rfl

/-- A program that stands at a word of an opcode executes it. -/
theorem atWord_standing {s : State} {b n p op : Nat} (h : s.AtWord b n p op) (f : State → Nat → State) :
    s.atWord n p op f = f s b := by
  obtain ⟨hrun, hp, hword, hop, hstate⟩ := h
  have hgoes := stoppedHere_running hrun.2.2.1 n p
  rw [atWord, whileRunning_running hrun]
  exact if_pos ⟨hp, hword, hop, hstate, fun hs => nomatch hgoes.symm.trans hs⟩

/-! ### END and JUMP -/

/-- A program that holds no buffer releases none. -/
theorem releaseRing_unheld {s : State} {b n p : Nat} (h : ((s.brick n).gen p).held = []) :
    s.releaseRing b n p = s.setBrick n (s.brick n) := by
  have hg : { (s.brick n).gen p with held := [] } = (s.brick n).gen p := by rw [← h]
  have hr : s.releaseRing b n p = s.putGen n p { (s.brick n).gen p with held := [] } := by
    simp only [releaseRing, h, List.filter_nil, List.foldl_nil]
  rw [hr, hg, putGen, Brick.setGen_gen]

/-- A brick as a program's END or JUMP leaves it: on program 0 the next WAIT takes a new tag. -/
def newPass (p : Nat) (k : Brick) : Brick := { k with passWaited := if p = 0 then false else k.passWaited }

theorem ite_passWaited (p : Nat) (k : Brick) : (if p = 0 then { k with passWaited := false } else k) = newPass p k := by
  rw [newPass]
  split <;> rfl

theorem endProgram_unheld {s : State} {b n p : Nat} (hfree : s.engineBusy n p = false)
    (h : ((s.brick n).gen p).held = []) :
    s.endProgram b n p = (s.setBrick n (s.brick n)).setBrick n
      (newPass p ((s.brick n).setGen p { (s.brick n).gen p with state := .ended })) := by
  simp only [endProgram, hfree, Bool.false_eq_true, if_false, releaseRing_unheld h, brick_setBrick, ite_passWaited]

theorem jumpProgram_unheld {s : State} {b n p : Nat} (hfree : s.engineBusy n p = false)
    (h : ((s.brick n).gen p).held = []) :
    s.jumpProgram b n p = (s.setBrick n (s.brick n)).setBrick n (newPass p ((s.brick n).setGen p {})) := by
  simp only [jumpProgram, hfree, Bool.false_eq_true, if_false, releaseRing_unheld h, brick_setBrick, ite_passWaited,
    restartGen_unheld _ h]

theorem endProgram_busy {s : State} {n p : Nat} (h : s.engineBusy n p = true) (b : Nat) : s.endProgram b n p = s := if_pos h

theorem jumpProgram_busy {s : State} {n p : Nat} (h : s.engineBusy n p = true) (b : Nat) : s.jumpProgram b n p = s := if_pos h

/-- Two writes of a brick, the second over the first, change that brick alone. -/
theorem setBrick_setBrick_frame (s : State) (n : Nat) (k k' : Brick) :
    let t := (s.setBrick n k).setBrick n k'
    t.brick n = k' ∧ (∀ m, m ≠ n → t.brick m = s.brick m) ∧ t = { s with bricks := t.bricks } :=
  ⟨brick_setBrick .., fun _ hm => (brick_setBrick_other _ _ _ _ hm).trans (brick_setBrick_other _ _ _ _ hm), rfl⟩

end State
end Sys2Proof.Machine

namespace Sys2Proof.Proofs
open Sys2Proof.Machine Sys2Proof.Machine.State

theorem exec_endWord {s : State} {b n p : Nat} (h : s.AtWord b n p 0) :
    exec (.endWord n p) s = .next (s.endProgram b n p) := by
  rw [exec, execEndWord, atWord_standing h]

theorem exec_jumpWord {s : State} {b n p : Nat} (h : s.AtWord b n p 7) :
    exec (.jumpWord n p) s = .next (s.jumpProgram b n p) := by
  rw [exec, execJumpWord, atWord_standing h]

/-- Settles O18, from what each word makes of its generator and the end of a loop's passes. -/
theorem controlWords : Obligations.ControlWords := by
  unfold Obligations.ControlWords
  refine ⟨fun s b n p => ⟨fun h => ?_, fun h => ?_⟩, fun m p g fr rest hstack hlast => ⟨?_, ?_⟩,
    fun s b n p => ⟨fun h hfree hheld => ?_, fun h hfree hheld => ?_, fun h hbusy => ?_, fun h hbusy => ?_⟩⟩
  · rw [exec, execBaseWord, atWord_standing h]
    rfl
  · rw [exec, execLoopWord, atWord_standing h]
    rfl
  · exact nextWord_repeats hstack hlast
  · rintro hdone rfl
    exact nextWord_leaves hstack hlast hdone
  · refine ⟨_, exec_endWord h, ?_⟩
    rw [endProgram_unheld hfree hheld]
    exact setBrick_setBrick_frame ..
  · refine ⟨_, exec_jumpWord h, ?_⟩
    rw [jumpProgram_unheld hfree hheld]
    exact setBrick_setBrick_frame ..
  · rw [exec_endWord h, endProgram_busy hbusy]
  · rw [exec_jumpWord h, jumpProgram_busy hbusy]

end Sys2Proof.Proofs
end
section
/-!
PROOF. MOVE (R119, R183, R185, R188, R216): the tiles a read hands to its consumer, through the load path and past an
error in what it read, and a write that waits, stalls or stores a raw result.
-/
namespace Sys2Proof.Machine

/-! ### The tiles a brick holds for its consumers -/

/-- What a MOVE's consumers and producers hold: how many tiles wait for the array, the side queue and the lanes, and the
results. -/
def Brick.tileView (k : Brick) : Nat × List ResultTile :=
  (k.acts.length + k.weights.length + k.side.length + k.prim.length, k.results)

theorem Brick.tileView_setActive (k : Brick) (p : Plane) : (k.setActive p).tileView = k.tileView := by
  unfold Brick.setActive
  split <;> rfl

theorem tileView_gatherTile (k : Brick) (f : FormatWord) (fmt : Nat) (codes : List Nat) :
    (gatherTile k f fmt codes).tileView = k.tileView := by
  unfold gatherTile
  split <;> rfl

namespace State

/-- A consumer takes one tile more. -/
theorem tileView_handTile (k : Brick) (p : Nat) {target : Nat} (x : OperandTile) (hlo : 16 ≤ target) (hhi : target ≤ 18) :
    (handTile k p target x).tileView = (k.tileView.1 + 1, k.results) := by
  have hcases : target = 16 ∨ target = 17 ∨ target = 18 := by omega
  rcases hcases with rfl | rfl | rfl
  · simp +arith [handTile, Brick.tileView]
  · simp +arith [handTile, Brick.tileView]
  · by_cases hside : p = 3 ∧ functionOf k.conf ≠ 4
    · simp +arith [handTile, Brick.tileView, hside]
    · simp +arith [handTile, Brick.tileView, hside]

/-! ### The load path -/

theorem bricks_orStat (s : State) (a v : Nat) : (s.orStat a v).bricks = s.bricks := by
  unfold orStat
  split <;> rfl

/-- A brick whose tiles stay as they are is written. -/
theorem tileView_setBrick {s : State} {n : Nat} {k : Brick} (h : k.tileView = (s.brick n).tileView) :
    ((s.setBrick n k).brick n).tileView = (s.brick n).tileView := by
  rw [brick_setBrick, h]

theorem brick_of_bricks {s t : State} (h : t.bricks = s.bricks) (n : Nat) : t.brick n = s.brick n := by
  rw [brick, h, brick]

theorem tileView_raise (s : State) (n : Nat) (fs : List (Nat × Nat)) :
    ((s.raise n fs).brick n).tileView = (s.brick n).tileView := by
  unfold raise
  extract_lets all k t
  have ht : (t.brick n).tileView = (s.brick n).tileView := by
    rw [brick_of_bricks (bricks_orStat ..), brick_setBrick]
    rfl
  split
  · rfl
  · split
    · rw [brick_of_bricks (bricks_orStat ..), ht]
    · exact ht

theorem tileView_drawsFor (s : State) (n : Nat) (ds : List DrawReq) :
    ((s.drawsFor n ds).2.brick n).tileView = (s.brick n).tileView := by
  unfold drawsFor
  split
  · rfl
  · dsimp only
    rw [brick_of_bricks (count_bricks ..), brick_of_bricks (setBay_bricks ..), brick_setBrick, Brick.tileView_setActive]

theorem tileView_loadDraws (s : State) (b n f count tag : Nat) :
    ((s.loadDraws b n f count tag).2.brick n).tileView = (s.brick n).tileView := by
  unfold loadDraws
  dsimp only
  split
  · exact tileView_setBrick rfl
  · exact tileView_drawsFor ..

/-- A tile through the load path: its draws, flags, gathering and count leave the tiles held. -/
theorem tileView_loadAt (s : State) (b n f : Nat) (sp : Space) (a tag : Nat) (array transpose : Bool) (note : RewindPoint) :
    ((s.loadAt b n f sp a tag array transpose note).1.brick n).tileView = (s.brick n).tileView := by
  unfold loadAt
  extract_lets k w count drawn rec_ l t kb u place
  have hdrawn : (drawn.2.brick n).tileView = (s.brick n).tileView := by
    unfold drawn
    split
    · exact tileView_loadDraws ..
    · rfl
  calc (u.brick n).tileView
    _ = kb.tileView := by rw [brick_setBrick]; rfl
    _ = (t.brick n).tileView := tileView_gatherTile ..
    _ = (drawn.2.brick n).tileView := tileView_raise ..
    _ = (s.brick n).tileView := hdrawn

/-! ### An error in what was read -/

@[simp] theorem error_bricks (s : State) (cls source : Nat) (code : Code) (arg : Word) :
    (s.error cls source code arg).bricks = s.bricks := by rw [error, logEntry_bricks, count_bricks]

@[simp] theorem alarm_bricks (s : State) (bit : Nat) (code : Code) (arg : Word) : (s.alarm bit code arg).bricks = s.bricks := rfl

@[simp] theorem degrade_bricks (s : State) (flag source : Nat) (code : Code) (arg : Nat) :
    (s.degrade flag source code arg).bricks = s.bricks := by simp only [degrade, alarm_bricks, error_bricks]

@[simp] theorem recordErr_bricks (s : State) (source place : Nat) (patrol : Bool) (addr : Nat) (obj : Option Nat) :
    (s.recordErr source place patrol addr obj).bricks = s.bricks := by rw [recordErr]

@[simp] theorem noteGranule_bricks (s : State) (n granule : Nat) : (s.noteGranule n granule).bricks = s.bricks := by
  unfold noteGranule
  extract_lets k e t
  split
  · exact degrade_bricks ..
  · rfl

@[simp] theorem badWord_bricks (s : State) (n unit : Nat) (patrol : Bool) (obj : Option Nat) :
    (s.badWord n unit patrol obj).bricks = s.bricks := by
  rw [badWord, noteGranule_bricks, recordErr_bricks, count_bricks]

@[simp] theorem stepAbort_bricks (s : State) (n : Nat) (obj : Option Nat) : (s.stepAbort n obj).bricks = s.bricks := by
  unfold stepAbort
  dsimp only
  split
  · rw [error_bricks]
  · split
    · rw [error_bricks]
    · rw [setBay_bricks, error_bricks]

/-- Bits are delivered as they are, whatever the reading showed (R262). -/
@[simp] theorem consumeEcc_bricks (s : State) (b n : Nat) (sp : Space) (at_ : Nat) (e : Ecc) :
    (s.consumeEcc b n sp at_ e).bricks = s.bricks := by
  cases e with
  | clean => rfl
  | corrected w => rw [consumeEcc, corrected, count_bricks, count_bricks]
  | uncorrectable off =>
    cases sp with
    | hopper => simp only [consumeEcc, stepAbort_bricks, recordErr_bricks, count_bricks]
    | column => simp only [consumeEcc, stepAbort_bricks, badWord_bricks]

/-! ### A read MOVE -/

theorem tileView_putGen (s : State) (n p : Nat) (g : Gen) :
    ((s.putGen n p g).brick n).tileView = (s.brick n).tileView := tileView_setBrick rfl

/-- A gathering of a MOVE's format word waits for the exchange of a shared register (R193). -/
def moveGathers (k : Brick) (w : DWord) : Bool :=
  (formatWord k.conf (moveFormat w)).amax && gatherHeld k (formatWord k.conf (moveFormat w)).scaleReg

theorem readMove_gathering {s : State} {n p : Nat} (h : moveGathers (s.brick n) ((s.brick n).wordAt p) = true) (b : Nat) (ecc : Ecc) :
    s.readMove b n p ecc = s :=
  if_pos (Bool.or_eq_true_iff.mpr (.inr h))

theorem readMove_full {s : State} {n p : Nat}
    (h : consumerFull (s.brick n) p (moveFormat ((s.brick n).wordAt p)) (moveTarget ((s.brick n).wordAt p)) = true) (b : Nat) (ecc : Ecc) :
    s.readMove b n p ecc = s :=
  if_pos (Bool.or_eq_true_iff.mpr (.inl h))

/-- A read MOVE that goes on: a tile through the load path, handed to its consumer. -/
theorem readMove_goes {s : State} {n p : Nat} (b : Nat) (ecc : Ecc)
    (hroom : consumerFull (s.brick n) p (moveFormat ((s.brick n).wordAt p)) (moveTarget ((s.brick n).wordAt p)) = false)
    (hgoes : moveGathers (s.brick n) ((s.brick n).wordAt p) = false) :
    ∃ (r : State × OperandTile) (g : Gen) (sp : Space) (a : Nat), (r.1.brick n).tileView = (s.brick n).tileView
      ∧ s.readMove b n p ecc
        = ((r.1.setBrick n (handTile (r.1.brick n) p (moveTarget ((s.brick n).wordAt p)) r.2)).putGen n p g).consumeEcc b n sp a ecc :=
  ⟨_, _, _, _, tileView_loadAt .., if_neg (ne_true_of_eq_false (Bool.or_eq_false_iff.mpr ⟨hroom, hgoes⟩))⟩

/-- A read MOVE that goes on hands its consumer one tile. -/
theorem tileView_readMove {s : State} {n p : Nat} (b : Nat) (ecc : Ecc)
    (hroom : consumerFull (s.brick n) p (moveFormat ((s.brick n).wordAt p)) (moveTarget ((s.brick n).wordAt p)) = false)
    (hgoes : moveGathers (s.brick n) ((s.brick n).wordAt p) = false)
    (hlo : 16 ≤ moveTarget ((s.brick n).wordAt p)) (hhi : moveTarget ((s.brick n).wordAt p) ≤ 18) :
    ((s.readMove b n p ecc).brick n).tileView = ((s.brick n).tileView.1 + 1, (s.brick n).results) := by
  obtain ⟨r, g, sp, a, hload, hread⟩ := readMove_goes b ecc hroom hgoes
  have hresults : (r.1.brick n).results = (s.brick n).results := congrArg Prod.snd hload
  rw [hread, brick_of_bricks (consumeEcc_bricks ..), tileView_putGen, brick_setBrick, tileView_handTile _ _ _ hlo hhi, hload, hresults]

/-! ### A write MOVE -/

theorem feedConverter_other {s : State} {n : Nat} (h : functionOf (s.brick n).conf ≠ 7) (b f : Nat) :
    s.feedConverter b n f = s := if_pos (.inl h)

theorem moveGathers_feedConverter (s : State) (b n f : Nat) (w : DWord) :
    moveGathers ((s.feedConverter b n f).brick n) w = moveGathers (s.brick n) w := by
  unfold feedConverter
  dsimp only
  split
  · rfl
  · split
    · rw [brick_setBrick]
      rfl
    · rfl

theorem writeMove_gathering {s : State} {n p : Nat} (h : moveGathers (s.brick n) ((s.brick n).wordAt p) = true) (b : Nat) :
    s.writeMove b n p = s :=
  if_pos (Bool.or_eq_true_iff.mpr (.inr ((moveGathers_feedConverter ..).trans h)))

/-- A write MOVE to the address or to a slot is barred by nothing but a gathering that waits. -/
theorem writeMove_bar {k : Brick} {w : DWord} (hgoes : moveGathers k w = false) (htarget : moveTarget w < 16 ∨ moveTarget w = 18) :
    ((moveTarget w != 18 && !Decidable.decide (moveTarget w < 16))
      || ((formatWord k.conf (moveFormat w)).amax && gatherHeld k (formatWord k.conf (moveFormat w)).scaleReg)) = false := by
  refine Bool.or_eq_false_iff.mpr ⟨?_, hgoes⟩
  rcases htarget with h | h
  · rw [decide_eq_true h, Bool.not_true, Bool.and_false]
  · rw [h, bne_self_eq_false, Bool.false_and]

/-- A write MOVE to a slot stalls while the stream has no handle. -/
theorem writeMove_noHandle {s : State} {n p : Nat} (b : Nat) (hfn : functionOf (s.brick n).conf ≠ 7)
    (htarget : moveTarget ((s.brick n).wordAt p) < 16) (hgoes : moveGathers (s.brick n) ((s.brick n).wordAt p) = false)
    (hslot : s.slotReady n (moveTarget ((s.brick n).wordAt p)) = false) :
    s.writeMove b n p = s.stallOut n (moveTarget ((s.brick n).wordAt p)) := by
  have hbar := ne_true_of_eq_false (writeMove_bar hgoes (.inl htarget))
  have hstall : (Decidable.decide (moveTarget ((s.brick n).wordAt p) < 16) && !s.slotReady n (moveTarget ((s.brick n).wordAt p))) = true := by
    rw [decide_eq_true htarget, hslot]
    rfl
  rw [Brick.wordAt] at hbar hstall ⊢
  simp only [writeMove, feedConverter_other hfn, if_neg hbar, if_pos hstall]

/-- A write MOVE to the address goes by the oldest result. -/
theorem writeMove_address {s : State} {n p : Nat} (b : Nat) (hfn : functionOf (s.brick n).conf ≠ 7)
    (htarget : moveTarget ((s.brick n).wordAt p) = 18) (hgoes : moveGathers (s.brick n) ((s.brick n).wordAt p) = false) :
    ((s.brick n).results = [] → s.writeMove b n p = s)
    ∧ ∀ r rest, (s.brick n).results = r :: rest → r.raw = true → s.writeMove b n p = s.writeRaw b n p r := by
  have hbar := ne_true_of_eq_false (writeMove_bar hgoes (.inr htarget))
  have haddress : ¬ (Decidable.decide (moveTarget ((s.brick n).wordAt p) < 16) && !s.slotReady n (moveTarget ((s.brick n).wordAt p))) = true := by
    rw [htarget]
    exact Bool.false_ne_true
  rw [Brick.wordAt] at hbar haddress
  refine ⟨fun hnone => ?_, fun r rest hresults hraw => ?_⟩
  · simp only [writeMove, feedConverter_other hfn, if_neg hbar, if_neg haddress, hnone]
  · simp only [writeMove, feedConverter_other hfn, if_neg hbar, if_neg haddress, hresults, if_pos hraw]

/-! ### A raw result into the hopper -/

/-- Bytes written to a brick's hopper are read back, its other bytes stay, and only the hopper changes. -/
theorem writeSpace_hopper (s : State) (b n a : Nat) (bs : Bytes) : ∃ m : Memory,
    (∀ x, x < bs.length → aget 0 m (a + x) = bs.getD x 0)
    ∧ (∀ x, x < a ∨ a + bs.length ≤ x → aget 0 m x = aget 0 (s.brick n).hopper x)
    ∧ (s.writeSpace b n .hopper a bs).brick n = { s.brick n with hopper := m }
    ∧ s.writeSpace b n .hopper a bs = { s with bricks := (s.writeSpace b n .hopper a bs).bricks } := by
  cases bs with
  | nil => exact ⟨_, fun x hx => absurd hx (Nat.not_lt_zero x), fun _ _ => rfl, rfl, rfl⟩
  | cons v vs =>
    exact ⟨_, aget_awrite_same 0 (s.brick n).hopper a _, aget_awrite_other 0 _ a _, brick_setBrick .., rfl⟩

/-- A brick whose oldest result is gone. -/
def dropResult (k : Brick) : Brick := { k with results := k.results.drop 1 }

/-- A raw result goes to the address: it is taken, its bytes are written, and the generator moves on. -/
theorem writeRaw_address {s : State} {n p : Nat} (b : Nat) (r : ResultTile)
    (htarget : moveTarget ((s.brick n).wordAt p) = 18) :
    ∃ g, s.writeRaw b n p r = ((s.setBrick n (dropResult (s.brick n))).writeSpace b n ((s.brick n).gen p).space
      (s.moveByte b n p true (moveFormat ((s.brick n).wordAt p))) (rawBytes r)).putGen n p g :=
  have hslot : ¬ moveTarget ((s.brick n).wordAt p) < 16 := by rw [htarget]; decide
  ⟨_, if_neg hslot⟩

/-- A generator moved on after a change of the bricks alone. -/
theorem putGen_frame {s t : State} (h : t = { s with bricks := t.bricks }) (n p : Nat) (g : Gen) :
    t.putGen n p g = { s with bricks := (t.putGen n p g).bricks } := congrArg (setBrick · n ((t.brick n).setGen p g)) h

/-- A raw result that goes to the hopper stands there as it is. -/
theorem writeRaw_hopper {s : State} {n p : Nat} (b : Nat) (r : ResultTile)
    (htarget : moveTarget ((s.brick n).wordAt p) = 18) (hspace : ((s.brick n).gen p).space = .hopper) :
    let a := s.moveByte b n p true (moveFormat ((s.brick n).wordAt p))
    let t := s.writeRaw b n p r
    (t.brick n).results = (s.brick n).results.drop 1
    ∧ (∀ x, x < (rawBytes r).length → aget 0 (t.brick n).hopper (a + x) = (rawBytes r).getD x 0)
    ∧ (∀ x, x < a ∨ a + (rawBytes r).length ≤ x → aget 0 (t.brick n).hopper x = aget 0 (s.brick n).hopper x)
    ∧ (t.brick n).clay = (s.brick n).clay ∧ t = { s with bricks := t.bricks } := by
  intro a t
  obtain ⟨g, ht⟩ := writeRaw_address b r htarget
  obtain ⟨m, hin, hout, hbrick, hframe⟩ := writeSpace_hopper (s.setBrick n (dropResult (s.brick n))) b n a (rawBytes r)
  rw [hspace] at ht
  rw [brick_setBrick] at hbrick hout
  have hk : t.brick n = ({ dropResult (s.brick n) with hopper := m } : Brick).setGen p g := by
    rw [show t = _ from ht, putGen, brick_setBrick, hbrick]
  have ht_frame : t = { s with bricks := t.bricks } := by
    rw [show t = _ from ht]
    exact putGen_frame hframe n p g
  rw [hk]
  exact ⟨rfl, hin, hout, rfl, ht_frame⟩

/-! ### Either direction -/

theorem moveProgram_write {s : State} {n p : Nat} (h : moveWrite ((s.brick n).wordAt p) = true) (b : Nat) (ecc : Ecc) :
    s.moveProgram b n p ecc = s.writeMove b n p := if_pos h

theorem moveProgram_read {s : State} {n p : Nat} (h : moveWrite ((s.brick n).wordAt p) = false) (b : Nat) (ecc : Ecc) :
    s.moveProgram b n p ecc = s.readMove b n p ecc := if_neg (ne_true_of_eq_false h)

theorem moveProgram_gathering {s : State} {n p : Nat} (h : moveGathers (s.brick n) ((s.brick n).wordAt p) = true) (b : Nat)
    (ecc : Ecc) : s.moveProgram b n p ecc = s := by
  cases hdir : moveWrite ((s.brick n).wordAt p) with
  | true => rw [moveProgram_write hdir, writeMove_gathering h]
  | false => rw [moveProgram_read hdir, readMove_gathering h]

end State
end Sys2Proof.Machine

namespace Sys2Proof.Proofs
open Sys2Proof.Machine Sys2Proof.Machine.State

theorem exec_moveWord {s : State} {b n p : Nat} (h : s.AtWord b n p 3) (ecc : Ecc) :
    exec (.moveWord n p ecc) s = .next (s.moveProgram b n p ecc) := by
  rw [exec, execMoveWord, atWord_standing h]

/-- Settles O19, from what a MOVE does in each direction; one tile a command is log entry 11 of the model, the point at
which a consumer is full log entry 43. -/
theorem moveWordFeedsItsConsumer : Obligations.MoveWordFeedsItsConsumer := by
  unfold Obligations.MoveWordFeedsItsConsumer
  intro s b n p ecc h k w fw held waits
  have hfree (hgoes : ¬ waits) : moveGathers k w = false := Bool.eq_false_iff.mpr hgoes
  refine ⟨_, exec_moveWord h ecc, fun hwaits => moveProgram_gathering hwaits b ecc, fun hread hfull => ?_,
    fun hread hroom hgoes hlo hhi => ?_, fun hwrite htarget hnone hfn => ?_, fun hwrite htarget hgoes hslot hfn => ?_,
    fun r rest hwrite htarget hgoes hresults hraw hfn hspace => ?_⟩
  · rw [moveProgram_read hread, readMove_full hfull]
  · have hview := tileView_readMove b ecc hroom (hfree hgoes) hlo hhi
    rw [moveProgram_read hread]
    exact ⟨congrArg Prod.fst hview, congrArg Prod.snd hview⟩
  · cases hgoes : moveGathers k w with
    | true => exact moveProgram_gathering hgoes b ecc
    | false => rw [moveProgram_write hwrite, (writeMove_address b hfn htarget hgoes).1 hnone]
  · rw [moveProgram_write hwrite]
    exact writeMove_noHandle b hfn htarget (hfree hgoes) hslot
  · have hspec := writeRaw_hopper b r htarget hspace
    rw [moveProgram_write hwrite, (writeMove_address b hfn htarget (hfree hgoes)).2 r rest hresults hraw]
    rw [hresults] at hspec
    exact hspec

end Sys2Proof.Proofs
end
